-- ==== Sys2Proof/Word.lean ====
section
/-! DEFINITION. The bit-level words of the K88: a byte of the link, and a set of tracks or lines. -/

namespace Sys2Proof

/-- One byte of link traffic (R162). -/
abbrev Byte := BitVec 8

/-- A set of tracks: bit t is track t. It is a row's hole set (section 1.1) or a cue's pattern or mask (R58). -/
abbrev TrackSet := BitVec 112

/-- A set of lines 0 to 90: bit m is line m (R168). -/
abbrev LineSet := BitVec 91

/-- A set of keys 0 to 87: bit k is key line k (R168). -/
abbrev KeySet := BitVec 88

end Sys2Proof
end

