-- ==== Sys2Proof/Syntax.lean ====
section
/-! DEFINITION. The commands of the K88, one constructor for each row of spec/opcode_table.json.

The block fetches no instructions: a command is one whole and indivisible step of the part (spec/95). Three kinds
stand in the table. An event from outside carries what the outside supplies as operands: a byte and its stop bit,
the 182 fault bits, the straps. The taking of a waiting request carries none: its operands are the kind, tag and
payload of the request that waits first in the receive buffer (R165). The expiry of a timer names the line or
pedal whose timer it is. -/

namespace Sys2Proof

/-- The three pedals: line 88, line 89 and line 90 (section "Conventions", Line). -/
inductive Pedal where
  | damper
  | bassRail
  | trebleRail
  deriving DecidableEq, Repr

/-- The commands, in the order of the table. -/
inductive Instr where
  /-- RECEIVE_BYTE (R163): a byte arrives on RXD; `stop` says whether its stop bit is there (R162). -/
  | receiveByte (byte : Byte) (stop : Bool)
  /-- GAP_TIMER_EXPIRY (R163). -/
  | gapTimerExpiry
  /-- HOST_SILENCE_EXPIRY (R167). -/
  | hostSilenceExpiry
  /-- SEND_FRAME (R166). -/
  | sendFrame
  /-- NOTICE_FRAME_PLACE (R166). -/
  | noticeFramePlace
  /-- UNKNOWN_KIND (R165): the waiting request of an unknown kind is taken. -/
  | unknownKind
  /-- IDENTIFY (R171). -/
  | identify
  /-- READ_STATUS (R171). -/
  | readStatus
  /-- TAKE_NOTICES (R170). -/
  | takeNotices
  /-- READ_HISTORY (R126). -/
  | readHistory
  /-- LOAD_ROLL (R25). -/
  | loadRoll
  /-- FEED_ROWS (R11). -/
  | feedRows
  /-- RUN (R27). -/
  | run
  /-- PAUSE (R28). -/
  | pause
  /-- STOP (R29). -/
  | stop
  /-- SET_TEMPO (R30). -/
  | setTempo
  /-- WRITE_SETTING (R172): a write of an item that has no row of its own. -/
  | writeSetting
  /-- WRITE_RING_LOW (R17). -/
  | writeRingLow
  /-- WRITE_TRACK_MAP (R40). -/
  | writeTrackMap
  /-- WRITE_ON_ROWS (R50). -/
  | writeOnRows
  /-- WRITE_OFF_ROWS (R50). -/
  | writeOffRows
  /-- WRITE_CUE_SLOT (R60). -/
  | writeCueSlot
  /-- WRITE_RAIL_MODE (R84). -/
  | writeRailMode
  /-- WRITE_REPEAT_GUARD (R135). -/
  | writeRepeatGuard
  /-- WRITE_PWM_BASE (R128). -/
  | writePwmBase
  /-- WRITE_HEAT_SOFT (R143). -/
  | writeHeatSoft
  /-- WRITE_HEAT_HARD (R143). -/
  | writeHeatHard
  /-- WRITE_DAMPER_HOLD_FULL (R161). -/
  | writeDamperHoldFull
  /-- WRITE_DAMPER_HOLD_PART (R161). -/
  | writeDamperHoldPart
  /-- WRITE_RAIL_HOLD (R161). -/
  | writeRailHold
  /-- WRITE_PEDAL_LEAD (R161). -/
  | writePedalLead
  /-- WRITE_NOTICE_MASK (R169). -/
  | writeNoticeMask
  /-- WRITE_LINE_FAULT_MASK (R169). -/
  | writeLineFaultMask
  /-- WRITE_LINE_RESTING_MASK (R169). -/
  | writeLineRestingMask
  /-- READ_SETTING (R172). -/
  | readSetting
  /-- ARM_CUES (R63). -/
  | armCues
  /-- SAVE_SETTINGS (R173). -/
  | saveSettings
  /-- SAVE_SETTINGS_DONE (R173): the save ends; `good` says whether the image read back passes its check. -/
  | saveSettingsDone (good : Bool)
  /-- RECALL_SETTINGS (R174). -/
  | recallSettings
  /-- STRIKE_KEY (R101). -/
  | strikeKey
  /-- PLAY_PATTERN (R104). -/
  | playPattern
  /-- CANCEL_PATTERN (R107). -/
  | cancelPattern
  /-- RESTORE_LINE (R147). -/
  | restoreLine
  /-- RESET_PART (R176). -/
  | resetPart
  /-- RESET_ASSERTED (R175): nRESET is low. -/
  | resetAsserted
  /-- PIN_RESET (R175), with the levels of the straps RATE1 and RATE0 that it reads (R162; true is high). -/
  | pinReset (rate1 rate0 : Bool)
  /-- FEED_TICK (R20). -/
  | feedTick
  /-- STARVE_HOLD_EXPIRY (R33). -/
  | starveHoldExpiry
  /-- EXPRESSION_TICK (R75). -/
  | expressionTick
  /-- HEAT_TICK (R142). -/
  | heatTick
  /-- STATUS_CHAIN_READ (R144): bit 2m and bit 2m + 1 are the two bits clocked in for line m. -/
  | statusChainRead (bits : BitVec 182)
  /-- KICK_END (R132): the kick of this key line runs out. -/
  | kickEnd (line : Nat)
  /-- HOLD_HEAT_GAIN (R141): a whole millisecond of this key line's hold has passed. -/
  | holdHeatGain (line : Nat)
  /-- HOLD_DEADLINE (R134) of this key line. -/
  | holdDeadline (line : Nat)
  /-- GUARD_END (R136) of this key line. -/
  | guardEnd (line : Nat)
  /-- WAIT_DEADLINE (R119) of the entry of this line. -/
  | waitDeadline (line : Nat)
  /-- PEDAL_KICK_END (R151). -/
  | pedalKickEnd (pedal : Pedal)
  /-- SETTLE_END (R152). -/
  | settleEnd (pedal : Pedal)
  /-- PATTERN_STEP (R105). -/
  | patternStep
  /-- PATTERN_END (R105). -/
  | patternEnd
  /-- POWER_FAIL (R173). -/
  | powerFail
  deriving DecidableEq, Repr

end Sys2Proof
end

