-- ==== Sys2Proof/Decode.lean ====
section
/-! DEFINITION. The commands that a word spells by the bits of spec/opcode_table.json. -/

namespace Sys2Proof

/-- No row of the table gives any bits (each has an empty list of fields and no fixed bits): the part has no
instruction words, so no word spells a command. The bytes that do reach the part, on RXD, are taken one by one by
RECEIVE_BYTE and framed by the rules of R163. -/
def decodeTableWord (_nbits _w : Nat) : Option Instr :=
  none

end Sys2Proof
end

