-- ==== Sys2Proof/Config.lean ====
section
/-! DEFINITION. What the part's description leaves open (the free order of simultaneous matters) and the fixed
capacities of the part. -/

namespace Sys2Proof.Config

/-- The free value of the model: which of several matters that "may come in any order" comes next. It has no
body, so nothing can be proved of the order it gives (log entry 1). -/
opaque choice : Nat → Nat

/-- Rows the Row Ring holds (R1). -/
def ringRows : Nat := 2048

/-- Entries the wait list holds (R111). -/
def waitEntries : Nat := 32

/-- Records the strike history holds (R125). -/
def historyRecords : Nat := 64

/-- Bytes of the receive buffer (R164) and of the transmit queue (R166). -/
def linkBytes : Nat := 4096

/-- The largest payload of a frame (R163). -/
def maxPayload : Nat := 1024

/-- Free bytes of the transmit queue that the taking of a request waits for (R165). -/
def replyRoom : Nat := 1064

/-- Bytes of a notice frame (R165, R166). -/
def noticeFrameBytes : Nat := 33

/-- The largest row number (section "Conventions", Row). -/
def lastRow : Nat := 2147483647

/-- The largest value of a 32-bit saturating count. -/
def countMax : Nat := 4294967295

end Sys2Proof.Config
end

