-- ==== Sys2Proof/Machine/Types.lean ====
section
/-! DEFINITION. The types of the pieces of state that the chapters of spec/ give the blocks of the part. -/

namespace Sys2Proof.Machine

/-- A track, 0 to 111 (section "Conventions"). -/
abbrev TrackNo := Fin 112

/-- A key and its key line, 0 to 87. -/
abbrev KeyNo := Fin 88

/-- A line, 0 to 90. -/
abbrev LineNo := Fin 91

/-- A time, or a length of time, in kick steps of 50 µs, the model's unit of time (log entry 2). -/
abbrev Time := Nat

/-- A half of the keyboard (section "Conventions", Halves). -/
inductive Half where
  | bass
  | treble
  deriving DecidableEq, Repr

/-- One thing for each half. -/
structure PerHalf (α : Type) where
  bass : α
  treble : α
  deriving DecidableEq, Repr

/-- The value held for a half. -/
def PerHalf.get {α : Type} (p : PerHalf α) : Half → α
  | .bass => p.bass
  | .treble => p.treble

/-- The pair with the value of one half replaced. -/
def PerHalf.set {α : Type} (p : PerHalf α) (h : Half) (a : α) : PerHalf α :=
  match h with
  | .bass => { p with bass := a }
  | .treble => { p with treble := a }

/-- The functions of a track map entry (section 3.1). -/
inductive TrackFunction where
  | none | key | step1 | step2 | step4 | swell | quick | accent | damperLift | damperFeather | soft
  deriving DecidableEq, Repr

/-- A track map entry (R37). -/
structure TrackEntry where
  function : TrackFunction
  key : KeyNo
  half : Half
  source : TrackNo
  deriving DecidableEq, Repr

/-- The actions of a cue slot (section 4.1). -/
inductive CueAction where
  | notice | pause | endRoll | tempo | trim
  deriving DecidableEq, Repr

/-- The six stored fields of a cue slot (R58). -/
structure CueSlot where
  pattern : TrackSet
  mask : TrackSet
  holdRows : Nat
  action : CueAction
  parameter : Nat
  once : Bool
  deriving DecidableEq, Repr

/-- Who commands a half's rail (section 5.7). -/
inductive RailMode where
  | auto | roll | up | down
  deriving DecidableEq, Repr

/-- A voicing entry (R99). -/
structure Voicing where
  floor : Nat
  span : Nat
  bend : Nat
  trim : Int
  kickDuty : Nat
  holdDuty : Nat
  deriving DecidableEq, Repr

/-- The working settings: every item of section 11.3 but the three masks (R172). -/
structure Settings where
  ringLow : Nat
  trimLow : Nat
  trimHigh : Nat
  starveHold : Nat
  trackMap : Vector TrackEntry 112
  splitKey : Nat
  onRows : Nat
  offRows : Nat
  cueSlots : Vector CueSlot 4
  stepTable : Vector Nat 8
  stepRate : Nat
  slowRate : Nat
  quickRate : Nat
  swellCeiling : Nat
  accentLift : Nat
  railOn : Nat
  railOff : Nat
  railMode : PerHalf RailMode
  railScale : PerHalf Nat
  voicing : Vector Voicing 88
  kickMin : Nat
  kickMax : Nat
  budgetUnits : Nat
  damperCost : Nat
  railCost : Nat
  waitLimit : Nat
  holdLimit : Nat
  repeatGuard : Nat
  pwmBase : Nat
  heatSoft : Nat
  heatHard : Nat
  damperKick : Nat
  damperKickDuty : Nat
  damperHoldFull : Nat
  damperHoldPart : Nat
  damperSettle : Nat
  railKick : Nat
  railKickDuty : Nat
  railHold : Nat
  railSettle : Nat
  pedalLead : Nat
  linkSilence : Nat
  deriving DecidableEq, Repr

/-- Chapter 1: a stored row, its number and its hole set. -/
structure StoredRow where
  number : Nat
  holes : TrackSet
  deriving DecidableEq, Repr

/-- The Row Ring (R1 to R4). `rows` is the ring, its head first. -/
structure RowRing where
  rows : List StoredRow
  nextExpected : Nat
  reference : TrackSet
  /-- The low-water state: true is ABOVE, false is BELOW (R4). -/
  above : Bool
  deriving DecidableEq, Repr

/-- The six transport states (section 2.1). -/
inductive Transport where
  | unloaded | loaded | running | paused | starved | ended
  deriving DecidableEq, Repr

/-- A running starve timer: when it was started, and the StarveHold (in ms) it keeps for this starve (R32). -/
structure StarveTimer where
  started : Time
  hold : Nat
  deriving DecidableEq, Repr

/-- The Feed Clock (R18). -/
structure FeedClock where
  transport : Transport
  row : Nat
  fraction : Nat
  taken : Bool
  tempo : Nat
  trim : Nat
  pitch : Nat
  buildUp : Nat
  endRow : Nat
  rowsTaken : Nat
  qBase : Nat
  q : Nat
  starve : Option StarveTimer
  starveReleases : Nat
  /-- When the next feed tick is due (section "Conventions", Time; log entry 3). -/
  nextTick : Time
  deriving DecidableEq, Repr

/-- The debounce states of a track (R45). OPENING also holds the first hole row. -/
inductive Debounce where
  | closed
  | opening (count firstRow : Nat)
  | opened
  | closing (count : Nat)
  deriving DecidableEq, Repr

/-- The Track Decoder's own state (R45, R49); the track map, SplitKey, OnRows and OffRows are settings. -/
structure TrackDecoder where
  states : Vector Debounce 112
  specks : Nat
  patches : Nat
  deriving DecidableEq, Repr

/-- What the Cue Matcher keeps beside a slot's stored fields (R58). -/
structure CueRun where
  count : Nat
  spent : Bool
  deriving DecidableEq, Repr

/-- The Cue Matcher's own state (R58, R62). -/
structure CueMatcher where
  runs : Vector CueRun 4
  valid : Bool
  deriving DecidableEq, Repr

/-- The six expression roles of a half (section 3.1). -/
inductive ExpressionRole where
  | step1 | step2 | step4 | swell | quick | accent
  deriving DecidableEq, Repr

/-- The input levels of a half, true for open (R71). -/
structure InputLevels where
  step1 : Bool
  step2 : Bool
  step4 : Bool
  swell : Bool
  quick : Bool
  accent : Bool
  deriving DecidableEq, Repr

/-- What the Expression Unit holds for one half (R71). `autoUp` is the auto demand, true for UP. -/
structure HalfExpression where
  shade : Nat
  swelled : Bool
  levels : InputLevels
  autoUp : Bool
  deriving DecidableEq, Repr

/-- The Expression Unit's own state (R71). -/
structure ExpressionUnit where
  halves : PerHalf HalfExpression
  /-- When the next expression tick is due (log entry 3). -/
  nextTick : Time
  deriving DecidableEq, Repr

/-- Where an onset came from (section 6.1). -/
inductive Origin where
  | roll | direct | pattern
  deriving DecidableEq, Repr

/-- The flags of a plan (R90). -/
structure PlanFlags where
  accent : Bool
  clamped : Bool
  derated : Bool
  short : Bool
  deriving DecidableEq, Repr

/-- A strike plan (R90). `shade` is e and `kick` is K. -/
structure Plan where
  line : KeyNo
  origin : Origin
  onsetRow : Option Nat
  shade : Nat
  kick : Nat
  kickDuty : Nat
  holdDuty : Nat
  cost : Nat
  priority : Nat
  holdTime : Option Nat
  flags : PlanFlags
  deriving DecidableEq, Repr

/-- The pattern player while PLAYING (R103); IDLE is the absence of it. A step is a shade, or REST as `none`.
`current` is absent while the final step is given its full step time (R105). -/
structure Pattern where
  key : KeyNo
  stepTime : Nat
  steps : List (Option Nat)
  repeatCount : Nat
  current : Option Nat
  repeats : Nat
  stepsTaken : Nat
  /-- When the step timer was last started. -/
  timerStarted : Time
  deriving DecidableEq, Repr

/-- The depth of the damper (R148). -/
inductive Depth where
  | full | part
  deriving DecidableEq, Repr

/-- What a line is to do when its request is granted (R111): a key plan, or a lift with the depth asked of the
damper. -/
inductive KickRequest where
  | strike (plan : Plan)
  | lift (depth : Depth)
  deriving DecidableEq, Repr

/-- A wait list entry (R111). -/
structure WaitEntry where
  line : LineNo
  priority : Nat
  cost : Nat
  request : KickRequest
  entered : Time
  deadline : Time
  short : Bool
  deriving DecidableEq, Repr

/-- The eight outcomes of a plan (R123). -/
inductive StrikeOutcome where
  | played | late | evicted | listFull | faulted | resting | flushed | merged
  deriving DecidableEq, Repr

/-- A strike history record (R125). -/
structure HistoryRecord where
  sequence : Nat
  line : KeyNo
  origin : Origin
  onsetRow : Nat
  outcome : StrikeOutcome
  shade : Nat
  kick : Nat
  waited : Nat
  flags : PlanFlags
  rowPresent : Bool
  deriving DecidableEq, Repr

/-- The Kick Arbiter's own state (R108, R111, R124, R125). `outcomes` is indexed by the code of the outcome. -/
structure KickArbiter where
  grants : Vector (Option Nat) 91
  wait : List WaitEntry
  outcomes : Vector Nat 8
  latePedals : Nat
  withdrawals : Nat
  history : List HistoryRecord
  nextSequence : Nat
  deriving DecidableEq, Repr

/-- A line's drive output (R128): its duty (`none` is off), the duty carried by the period in which the duty was
last changed, when the line's periods began, and when its duty was last changed. -/
structure Drive where
  duty : Option Nat
  carried : Nat
  began : Time
  changed : Time
  deriving DecidableEq, Repr

/-- Fault kinds, in the order of their values on the chain (R144). -/
inductive FaultKind where
  | none | openCoil | overcurrent | overtemp
  deriving DecidableEq, Repr

/-- The states of a key line (section 8.1). -/
inductive KeyState where
  | idle | queued | kick | hold | release | faulted
  deriving DecidableEq, Repr

/-- A key line record (R127). The kick steps run, the milliseconds of the hold and the guard timer are counted
from `kickStarted`, `holdStarted` and `guardStarted`; `holdGains` counts the milliseconds of the hold whose heat
has been gained (R141); `guardDone` is set while the line stays in RELEASE with its guard complete (R136). -/
structure KeyLine where
  state : KeyState
  queuedOrigin : Option Origin
  plan : Option Plan
  kickStarted : Time
  short : Bool
  holdStarted : Time
  holdGains : Nat
  holdDeadline : Option Time
  pending : Option Plan
  guardStarted : Time
  guardDone : Bool
  drive : Drive
  heat : Nat
  resting : Bool
  fault : FaultKind
  deriving DecidableEq, Repr

/-- The Drive Sequencer's own state (R127, R144): the key lines, the latest reported kind of every line and the
hold-cut counter. The records of the pedal lines are with the pedals. -/
structure DriveSequencer where
  keys : Vector KeyLine 88
  reported : Vector FaultKind 91
  holdCuts : Nat
  /-- When the next heat tick is due (log entry 3). -/
  nextHeatTick : Time
  deriving DecidableEq, Repr

/-- The states of a pedal (section 9.1). -/
inductive PedalState where
  | lowered | waiting | lifting | raised | dropping
  deriving DecidableEq, Repr

/-- Where a WAITING pedal came from (R148). -/
inductive WaitOrigin where
  | lowered | dropping | deepen
  deriving DecidableEq, Repr

/-- A timer that runs to a length in ms. -/
structure LengthTimer where
  started : Time
  length : Nat
  deriving DecidableEq, Repr

/-- A pedal record (R148), with the line's fault kind (R146) and drive output. -/
structure PedalRecord where
  state : PedalState
  depth : Depth
  origin : Option WaitOrigin
  dropMark : Bool
  kickTimer : Option LengthTimer
  settleTimer : Option LengthTimer
  faulted : Bool
  fault : FaultKind
  drive : Drive
  deriving DecidableEq, Repr

/-- The lead decoder (R159): its next row L and the debounce states of its two lead tracks. -/
structure LeadDecoder where
  next : Nat
  lift : Debounce
  feather : Debounce
  deriving DecidableEq, Repr

/-- The Pedal Unit (R148, R159), with the recorded on-time levels, true for open. -/
structure PedalUnit where
  damper : PedalRecord
  bassRail : PedalRecord
  trebleRail : PedalRecord
  liftLevel : Bool
  featherLevel : Bool
  softLevel : Bool
  lead : LeadDecoder
  deriving DecidableEq, Repr

/-- The thirteen notice sources, in the order of their bits (section 11.1). -/
inductive NoticeSource where
  | started | settingsDefaulted | ringLow | starved | rollEnded | linkSilence | cueFired | cuesDisarmed
  | strikesDropped | holdCut | lineFault | lineResting | frameErrors
  deriving DecidableEq, Repr

/-- The notice flags, sets and masks (R168). `plain` holds the flags of the ten sources that carry no set, each
at its source's bit; the flags of the other three follow from their sets and line masks. -/
structure Notices where
  plain : BitVec 13
  mask : BitVec 13
  cueSet : BitVec 4
  faultSet : LineSet
  restingSet : KeySet
  faultMask : LineSet
  restingMask : KeySet
  deriving DecidableEq, Repr

/-- A good frame kept as a request (R163), without its sync and check. -/
structure Frame where
  kind : Byte
  tag : Byte
  payload : List Byte
  deriving DecidableEq, Repr

/-- A frame in the transmit queue (R166): the bytes of a reply, or a notice frame whose content is not yet
formed. -/
inductive TransmitItem where
  | reply (bytes : List Byte)
  | notice
  deriving DecidableEq, Repr

/-- The frame that is on TXD, and when its first byte began. -/
structure Sending where
  bytes : List Byte
  began : Time
  deriving DecidableEq, Repr

/-- The hunt states of the receiver (R163). -/
inductive HuntState where
  | hunt | header | payload | check
  deriving DecidableEq, Repr

/-- The Link Port (R162 to R167). The candidate is kept with its sync byte; it is empty in HUNT. The gap timer
runs while there is a candidate. The receive buffer is the candidate and the waiting frames. -/
structure LinkPort where
  baud : Nat
  candidate : List Byte
  gapStarted : Time
  waiting : List Frame
  discarded : Nat
  overruns : Nat
  silenceStarted : Time
  silenceRunning : Bool
  queue : List TransmitItem
  sending : Option Sending
  /-- A notice frame has been asked for and is not yet placed (R166). -/
  noticeAsked : Bool
  deriving DecidableEq, Repr

/-- The settings store's image (R173): every working setting and the CRC-32 kept with them. -/
structure StoreImage where
  settings : Settings
  check : BitVec 32
  deriving DecidableEq, Repr

/-- Whether the part runs, is held with nRESET low, or has no supply (R175, R173). -/
inductive Power where
  | on | held | off
  deriving DecidableEq, Repr

end Sys2Proof.Machine
end

