-- ==== Sys2Proof/Machine/Bytes.lean ====
section
/-! DEFINITION. Byte order, the checks of the link and of the store, and the byte layouts of the setting values. -/

namespace Sys2Proof.Machine

/-- `n` in `width` bytes, least significant first (section "Conventions", Link data). -/
def littleEndian (width n : Nat) : List Byte :=
  match width with
  | 0 => []
  | width + 1 => BitVec.ofNat 8 n :: littleEndian width (n / 256)

/-- The number that bytes carry, least significant first. -/
def fromLittleEndian : List Byte → Nat
  | [] => 0
  | b :: bs => b.toNat + 256 * fromLittleEndian bs

/-- Byte `i` of a payload, 0 beyond its end. -/
def byteAt (bs : List Byte) (i : Nat) : Nat :=
  (bs.getD i 0).toNat

/-- The field of `width` bytes at offset `i` of a payload. -/
def fieldAt (bs : List Byte) (i width : Nat) : Nat :=
  fromLittleEndian ((bs.drop i).take width)

/-- A signed byte: a code of 128 or more stands for the code minus 256 (section 11.3, the trim of a Voicing value). -/
def signedByte (code : Nat) : Int :=
  if code < 128 then code else (code : Int) - 256

/-- The code of a signed byte. -/
def signedByteCode (t : Int) : Nat :=
  (t % 256).toNat

/-- A flag carried as a byte, 1 set and 0 clear. -/
def flagByte (b : Bool) : Byte :=
  if b then 1 else 0

/-- One bit of the link's check: the generator 0x1021, most significant bit first (R163). -/
def crc16Shift (c : BitVec 16) : BitVec 16 :=
  if c.msb then (c <<< 1) ^^^ 0x1021#16 else c <<< 1

/-- The check of a frame over its kind byte through its last payload byte (R163). The check bytes that section 10.7
prints are not the ones this rule gives; the rule is followed (log entry 11). -/
def crc16 (bs : List Byte) : BitVec 16 :=
  bs.foldl (fun (c : BitVec 16) b => Nat.repeat crc16Shift 8 (c ^^^ (b.setWidth 16).shiftLeft 8)) 0xFFFF#16

/-- One bit of the store's check, with the polynomial of R173. -/
def crc32Shift (c : BitVec 32) : BitVec 32 :=
  if c.msb then (c <<< 1) ^^^ 0x04C11DB7#32 else c <<< 1

/-- The store's check (R173). The spec gives the polynomial alone; the register's start and the order of the bits
are those of R163's check (DESIGN CHOICE, log entry 8). -/
def crc32 (bs : List Byte) : BitVec 32 :=
  bs.foldl (fun (c : BitVec 32) b => Nat.repeat crc32Shift 8 (c ^^^ (b.setWidth 32).shiftLeft 24)) 0xFFFFFFFF#32

/-- The function codes of section 3.1. -/
def TrackFunction.code : TrackFunction → Nat
  | .none => 0
  | .key => 1
  | .step1 => 2
  | .step2 => 3
  | .step4 => 4
  | .swell => 5
  | .quick => 6
  | .accent => 7
  | .damperLift => 8
  | .damperFeather => 9
  | .soft => 10

/-- The function of a code. -/
def TrackFunction.ofCode : Nat → Option TrackFunction
  | 0 => some .none
  | 1 => some .key
  | 2 => some .step1
  | 3 => some .step2
  | 4 => some .step4
  | 5 => some .swell
  | 6 => some .quick
  | 7 => some .accent
  | 8 => some .damperLift
  | 9 => some .damperFeather
  | 10 => some .soft
  | _ => Option.none

/-- The half codes: 0 for BASS and 1 for TREBLE (section 3.1). -/
def Half.code : Half → Nat
  | .bass => 0
  | .treble => 1

/-- The half of a code. -/
def Half.ofCode : Nat → Option Half
  | 0 => some .bass
  | 1 => some .treble
  | _ => none

/-- The action codes of section 4.1. -/
def CueAction.code : CueAction → Nat
  | .notice => 0
  | .pause => 1
  | .endRoll => 2
  | .tempo => 3
  | .trim => 4

/-- The action of a code. -/
def CueAction.ofCode : Nat → Option CueAction
  | 0 => some .notice
  | 1 => some .pause
  | 2 => some .endRoll
  | 3 => some .tempo
  | 4 => some .trim
  | _ => none

/-- The rail mode codes of section 5.7. -/
def RailMode.code : RailMode → Nat
  | .auto => 0
  | .roll => 1
  | .up => 2
  | .down => 3

/-- The rail mode of a code. -/
def RailMode.ofCode : Nat → Option RailMode
  | 0 => some .auto
  | 1 => some .roll
  | 2 => some .up
  | 3 => some .down
  | _ => none

/-- The transport codes of READ STATUS (R171). -/
def Transport.code : Transport → Nat
  | .unloaded => 0
  | .loaded => 1
  | .running => 2
  | .paused => 3
  | .starved => 4
  | .ended => 5

/-- The origin codes of a history record (R125). -/
def Origin.code : Origin → Nat
  | .roll => 0
  | .direct => 1
  | .pattern => 2

/-- The outcome codes of R123. -/
def StrikeOutcome.code : StrikeOutcome → Fin 8
  | .played => 0
  | .late => 1
  | .evicted => 2
  | .listFull => 3
  | .faulted => 4
  | .resting => 5
  | .flushed => 6
  | .merged => 7

/-- The key line state codes of READ STATUS (R171). -/
def KeyState.code : KeyState → Nat
  | .idle => 0
  | .queued => 1
  | .kick => 2
  | .hold => 3
  | .release => 4
  | .faulted => 5

/-- The pedal state codes of READ STATUS (R171). -/
def PedalState.code : PedalState → Nat
  | .lowered => 0
  | .waiting => 1
  | .lifting => 2
  | .raised => 3
  | .dropping => 4

/-- The fault kind codes of the chain and of READ STATUS (R144, R171). -/
def FaultKind.code : FaultKind → Nat
  | .none => 0
  | .openCoil => 1
  | .overcurrent => 2
  | .overtemp => 3

/-- The fault kind of a pair's value (R144). -/
def FaultKind.ofCode : Nat → FaultKind
  | 1 => .openCoil
  | 2 => .overcurrent
  | 3 => .overtemp
  | _ => .none

/-- A TrackMap value: function, key, half and source track (section 11.3). -/
def TrackEntry.bytes (e : TrackEntry) : List Byte :=
  littleEndian 1 e.function.code ++ littleEndian 1 e.key.val ++ littleEndian 1 e.half.code
    ++ littleEndian 1 e.source.val

/-- A Voicing value (section 11.3). -/
def Voicing.bytes (v : Voicing) : List Byte :=
  littleEndian 2 v.floor ++ littleEndian 2 v.span ++ littleEndian 1 v.bend
    ++ littleEndian 1 (signedByteCode v.trim) ++ littleEndian 1 v.kickDuty ++ littleEndian 1 v.holdDuty

/-- A CueSlot value: track t of a set is bit t mod 8 of byte t divided by 8 (section 11.3). -/
def CueSlot.bytes (c : CueSlot) : List Byte :=
  littleEndian 14 c.pattern.toNat ++ littleEndian 14 c.mask.toNat ++ littleEndian 1 c.holdRows
    ++ littleEndian 1 c.action.code ++ littleEndian 2 c.parameter ++ [flagByte c.once]

/-- The settings whose values are 2 bytes and carry no index, in the order of their codes. -/
def Settings.scalars (t : Settings) : List Nat :=
  [t.ringLow, t.trimLow, t.trimHigh, t.starveHold, t.splitKey, t.onRows, t.offRows, t.stepRate, t.slowRate,
    t.quickRate, t.swellCeiling, t.accentLift, t.railOn, t.railOff, t.kickMin, t.kickMax, t.budgetUnits,
    t.damperCost, t.railCost, t.waitLimit, t.holdLimit, t.repeatGuard, t.pwmBase, t.heatSoft, t.heatHard,
    t.damperKick, t.damperKickDuty, t.damperHoldFull, t.damperHoldPart, t.damperSettle, t.railKick,
    t.railKickDuty, t.railHold, t.railSettle, t.pedalLead, t.linkSilence]

/-- Every working setting as the bytes that the store's check is taken over (R173). The spec gives no layout of the
image; the values stand as section 11.3 lays them out (DESIGN CHOICE, log entry 8). -/
def Settings.bytes (t : Settings) : List Byte :=
  t.scalars.flatMap (littleEndian 2) ++ t.trackMap.toList.flatMap TrackEntry.bytes
    ++ t.cueSlots.toList.flatMap CueSlot.bytes ++ t.stepTable.toList.flatMap (littleEndian 2)
    ++ [t.railMode.bass, t.railMode.treble].flatMap (fun m => littleEndian 2 m.code)
    ++ [t.railScale.bass, t.railScale.treble].flatMap (littleEndian 2)
    ++ t.voicing.toList.flatMap Voicing.bytes

/-- A whole image of the settings with its check (R173). -/
def StoreImage.of (t : Settings) : StoreImage :=
  { settings := t, check := crc32 t.bytes }

/-- Does the image pass its check? -/
def StoreImage.passes (i : StoreImage) : Bool :=
  i.check == crc32 i.settings.bytes

/-- An image of these settings that fails its check, as a save that did not end leaves it (R173). -/
def StoreImage.spoilt (t : Settings) : StoreImage :=
  { settings := t, check := ~~~(crc32 t.bytes) }

end Sys2Proof.Machine
end

