-- ==== Sys2Proof/Machine/Defaults.lean ====
section
/-! DEFINITION. The defaults of the working settings (section 11.3) and the values each block takes at a pin reset. Times
that nothing has set yet are 0 (log entry 22). -/

namespace Sys2Proof.Machine

/-- The function of a track of the default map (R42). -/
def defaultFunction (t : Nat) : TrackFunction :=
  if t = 0 ∨ t = 96 then .step1
  else if t = 1 ∨ t = 97 then .step2
  else if t = 2 ∨ t = 98 then .step4
  else if t = 3 ∨ t = 99 then .swell
  else if t = 4 ∨ t = 100 then .quick
  else if t = 5 ∨ t = 101 then .accent
  else if t = 6 then .damperLift
  else if t = 7 then .damperFeather
  else if 8 ≤ t ∧ t ≤ 95 then .key
  else if t = 102 then .soft
  else .none

/-- The default map's entry of a track (R42), its source its own track. -/
def defaultEntry (t : TrackNo) : TrackEntry :=
  { function := defaultFunction t.val
    key := if h : 8 ≤ t.val ∧ t.val ≤ 95 then ⟨t.val - 8, by omega⟩ else 0
    half := if 96 ≤ t.val ∧ t.val ≤ 101 then .treble else .bass
    source := t }

/-- The default cue slot: empty pattern and mask, hold rows 1, NOTICE (R58). -/
def defaultCueSlot : CueSlot :=
  { pattern := 0, mask := 0, holdRows := 1, action := .notice, parameter := 0, once := false }

/-- The default voicing entry (R99). -/
def defaultVoicing : Voicing :=
  { floor := 40, span := 240, bend := 1, trim := 0, kickDuty := 28, holdDuty := 8 }

/-- Every working setting at its default (section 11.3). -/
def defaultSettings : Settings :=
  { ringLow := 256
    trimLow := 900
    trimHigh := 1100
    starveHold := 250
    trackMap := Vector.ofFn defaultEntry
    splitKey := 44
    onRows := 2
    offRows := 3
    cueSlots := Vector.replicate 4 defaultCueSlot
    stepTable := Vector.ofFn fun i => 96 + 104 * i.val
    stepRate := 40
    slowRate := 1
    quickRate := 6
    swellCeiling := 1000
    accentLift := 160
    railOn := 180
    railOff := 260
    railMode := { bass := .auto, treble := .auto }
    railScale := { bass := 1150, treble := 1150 }
    voicing := Vector.replicate 88 defaultVoicing
    kickMin := 4
    kickMax := 800
    budgetUnits := 40
    damperCost := 8
    railCost := 4
    waitLimit := 25
    holdLimit := 30
    repeatGuard := 25
    pwmBase := 24
    heatSoft := 12000
    heatHard := 20000
    damperKick := 60
    damperKickDuty := 32
    damperHoldFull := 14
    damperHoldPart := 8
    damperSettle := 40
    railKick := 30
    railKickDuty := 24
    railHold := 10
    railSettle := 25
    pedalLead := 12
    linkSilence := 0 }

/-- A drive that is off. Where its periods last began is of no effect while it is off. -/
def Drive.off : Drive :=
  { duty := none, carried := 0, began := 0, changed := 0 }

/-- The empty ring whose next-expected row is `next` (R16). -/
def RowRing.cleared (next : Nat) : RowRing :=
  { rows := [], nextExpected := next, reference := 0, above := false }

/-- The Feed Clock's values after STOP and the resets (R18), with the starve-release counter and the next feed tick
as given. -/
def FeedClock.unloadedWith (starveReleases : Nat) (nextTick : Time) : FeedClock :=
  { transport := .unloaded
    row := 0
    fraction := 0
    taken := false
    tempo := 0
    trim := 1000
    pitch := 300
    buildUp := 0
    endRow := 0
    rowsTaken := 0
    qBase := 0
    q := 0
    starve := none
    starveReleases := starveReleases
    nextTick := nextTick }

/-- Every track CLOSED (R56). -/
def allClosed : Vector Debounce 112 :=
  Vector.replicate 112 .closed

/-- Every match count 0 and every spent flag clear (R58). -/
def freshCueRuns : Vector CueRun 4 :=
  Vector.replicate 4 { count := 0, spent := false }

/-- Every input level closed (R71). -/
def closedLevels : InputLevels :=
  { step1 := false, step2 := false, step4 := false, swell := false, quick := false, accent := false }

/-- A half after a pin reset (R71). -/
def HalfExpression.atReset (t : Settings) : HalfExpression :=
  { shade := t.stepTable[0], swelled := false, levels := closedLevels, autoUp := false }

/-- The Kick Arbiter after a pin reset (R108, R111, R124, R125). -/
def KickArbiter.atReset : KickArbiter :=
  { grants := Vector.replicate 91 none
    wait := []
    outcomes := Vector.replicate 8 0
    latePedals := 0
    withdrawals := 0
    history := []
    nextSequence := 0 }

/-- A key line after a pin reset: IDLE, with H at HeatSoft (R127). -/
def KeyLine.atReset (t : Settings) : KeyLine :=
  { state := .idle
    queuedOrigin := none
    plan := none
    kickStarted := 0
    short := false
    holdStarted := 0
    holdGains := 0
    holdDeadline := none
    pending := none
    guardStarted := 0
    guardDone := false
    drive := Drive.off
    heat := t.heatSoft
    resting := false
    fault := .none }

/-- A pedal after a pin reset (R148, R146). -/
def PedalRecord.atReset : PedalRecord :=
  { state := .lowered
    depth := .full
    origin := none
    dropMark := false
    kickTimer := none
    settleTimer := none
    faulted := false
    fault := .none
    drive := Drive.off }

/-- The lead decoder reset with its next row at `next` (R159). -/
def LeadDecoder.atRow (next : Nat) : LeadDecoder :=
  { next := next, lift := .closed, feather := .closed }

/-- The Pedal Unit after a pin reset (R148). -/
def PedalUnit.atReset : PedalUnit :=
  { damper := PedalRecord.atReset
    bassRail := PedalRecord.atReset
    trebleRail := PedalRecord.atReset
    liftLevel := false
    featherLevel := false
    softLevel := false
    lead := LeadDecoder.atRow 0 }

/-- The bit of a source (section 11.1). -/
def NoticeSource.bit : NoticeSource → Nat
  | .started => 0
  | .settingsDefaulted => 1
  | .ringLow => 2
  | .starved => 3
  | .rollEnded => 4
  | .linkSilence => 5
  | .cueFired => 6
  | .cuesDisarmed => 7
  | .strikesDropped => 8
  | .holdCut => 9
  | .lineFault => 10
  | .lineResting => 11
  | .frameErrors => 12

/-- The source set with this source alone. -/
def NoticeSource.mask (n : NoticeSource) : BitVec 13 :=
  1#13 <<< n.bit

/-- The notices at the end of a pin reset: flags and sets cleared and masks enabled, then SETTINGS_DEFAULTED
raised if the image failed and STARTED in every case (R168, R175). -/
def Notices.atReset (imageFailed : Bool) : Notices :=
  { plain := NoticeSource.started.mask ||| if imageFailed then NoticeSource.settingsDefaulted.mask else 0
    mask := BitVec.allOnes 13
    cueSet := 0
    faultSet := 0
    restingSet := 0
    faultMask := BitVec.allOnes 91
    restingMask := BitVec.allOnes 88 }

/-- The rate that the straps select (R162), in baud. -/
def strapBaud : Bool → Bool → Nat
  | false, false => 460800
  | false, true => 921600
  | true, false => 1843200
  | true, true => 921600

/-- The Link Port after a pin reset at time `now` (R164, R166, R167). The raise of STARTED takes the summary
from empty to not empty, so the notice frame of R175 is asked for. -/
def LinkPort.atReset (baud : Nat) (now : Time) : LinkPort :=
  { baud := baud
    candidate := []
    gapStarted := 0
    waiting := []
    discarded := 0
    overruns := 0
    silenceStarted := now
    silenceRunning := true
    queue := []
    sending := none
    noticeAsked := true }

end Sys2Proof.Machine
end

