-- ==== Sys2Proof/Machine/State.lean ====
section
/-! DEFINITION. The state of the part with its queue of commands, why a step may stop, and the state after reset. -/

namespace Sys2Proof.Machine

/-- Why a step stops with a fault. -/
inductive Fault where
  /-- Raised by `exec` on a command that names a line the part does not have (the spec numbers key lines 0 to 87 and
  lines 0 to 90). Safe: the part has no such line, so no such event can come to it. -/
  | noSuchLine
  deriving DecidableEq, Repr

/-- Why a step is refused. -/
inductive Refusal where
  /-- Raised by `exec` on a command that has no meaning in the model yet. Safe: nothing is claimed of it. No arm of
  `exec` answers with it. -/
  | notModelled (mnemonic : String)
  deriving DecidableEq, Repr

/-- Everything the spec gives the part, block by block (section "Block diagram"), with the clock and the free
order of the model's own (log entries 1 and 2). -/
structure Part where
  /-- Whether the part runs (R175, R173). -/
  power : Power
  /-- The time since power came up, in kick steps; the model's own field (log entry 2). -/
  now : Time
  /-- How many free choices of order have been made; the model's own field (log entry 1). -/
  choices : Nat
  /-- The working settings (section 11.3). -/
  settings : Settings
  /-- The settings store (R173). -/
  store : StoreImage
  /-- The settings that a save under way is writing (R173). -/
  saving : Option Settings
  ring : RowRing
  feed : FeedClock
  tracks : TrackDecoder
  cues : CueMatcher
  expression : ExpressionUnit
  /-- The pattern player (R103): `none` is IDLE. -/
  player : Option Pattern
  arbiter : KickArbiter
  drives : DriveSequencer
  pedals : PedalUnit
  notices : Notices
  link : LinkPort
  deriving DecidableEq, Repr

/-- The part and the commands that wait to be taken, the first in first. -/
structure State where
  pending : List Instr
  part : Part
  deriving DecidableEq, Repr

/-- The part at the end of a pin reset (R175) that found this image in the store and these straps. A good image
gives every working setting, a failing one leaves them all at their defaults. -/
def Part.afterPinReset (store : StoreImage) (rate1 rate0 : Bool) (now : Time) (choices : Nat) : Part :=
  let settings := if store.passes then store.settings else defaultSettings
  { power := .on
    now := now
    choices := choices
    settings := settings
    store := store
    saving := none
    ring := RowRing.cleared 0
    feed := FeedClock.unloadedWith 0 (now + 2)
    tracks := { states := allClosed, specks := 0, patches := 0 }
    cues := { runs := freshCueRuns, valid := false }
    expression :=
      { halves := { bass := HalfExpression.atReset settings, treble := HalfExpression.atReset settings }
        nextTick := now + 20 }
    player := none
    arbiter := KickArbiter.atReset
    drives :=
      { keys := Vector.replicate 88 (KeyLine.atReset settings)
        reported := Vector.replicate 91 .none
        holdCuts := 0
        nextHeatTick := now + 200 }
    pedals := PedalUnit.atReset
    notices := Notices.atReset (!store.passes)
    link := LinkPort.atReset (strapBaud rate1 rate0) now }

/-- The part after the pin reset that follows its first power-up. The spec does not say what the store holds before
the first save, so the image fails its check (DESIGN CHOICE, log entry 7) and every setting has its default; nor
does it say how the straps are wired, so both are low (DESIGN CHOICE, log entry 7). -/
def Part.reset : Part :=
  { power := .on
    now := 0
    choices := 0
    settings := defaultSettings
    store := StoreImage.spoilt defaultSettings
    saving := none
    ring := RowRing.cleared 0
    feed := FeedClock.unloadedWith 0 2
    tracks := { states := allClosed, specks := 0, patches := 0 }
    cues := { runs := freshCueRuns, valid := false }
    expression :=
      { halves := { bass := HalfExpression.atReset defaultSettings, treble := HalfExpression.atReset defaultSettings }
        nextTick := 20 }
    player := none
    arbiter := KickArbiter.atReset
    drives :=
      { keys := Vector.replicate 88 (KeyLine.atReset defaultSettings)
        reported := Vector.replicate 91 .none
        holdCuts := 0
        nextHeatTick := 200 }
    pedals := PedalUnit.atReset
    notices := Notices.atReset true
    link := LinkPort.atReset (strapBaud false false) 0 }

/-- The machine right after reset: no command waits. -/
def State.reset : State :=
  { pending := [], part := Part.reset }

end Sys2Proof.Machine
end

