-- ==== Sys2Proof/Machine/Flags.lean ====
section
/-! DEFINITION. The notice flags: how they follow from the sets and masks, the summary, and every way of raising
(R168, R169). -/

namespace Sys2Proof.Machine

/-- The sources that carry a set; their flags are not kept in `plain`. -/
def setSources : BitVec 13 :=
  NoticeSource.cueFired.mask ||| NoticeSource.lineFault.mask ||| NoticeSource.lineResting.mask

/-- A source's mask if the condition holds, and the empty set if not. -/
def flagIf (c : Bool) (n : NoticeSource) : BitVec 13 :=
  if c then n.mask else 0

/-- The thirteen flags (R168): a plain source's own flag, CUE_FIRED while its slot set is not empty, and a line-set
source while its set holds a line whose line mask is enabled. A line mask that is disabled can so take the flag down
(log entry 15). -/
def Notices.flags (n : Notices) : BitVec 13 :=
  (n.plain &&& ~~~setSources) ||| flagIf (n.cueSet != 0) .cueFired
    ||| flagIf ((n.faultSet &&& n.faultMask) != 0) .lineFault
    ||| flagIf ((n.restingSet &&& n.restingMask) != 0) .lineResting

/-- Is the source's flag set? -/
def Notices.flag (n : Notices) (src : NoticeSource) : Bool :=
  (n.flags &&& src.mask) != 0

/-- The summary: the pending sources whose source mask bit is enabled (R168). -/
def Notices.summary (n : Notices) : BitVec 13 :=
  n.flags &&& n.mask

/-- The Link Port with a notice frame asked for (R166). While a notice frame waits in the queue a further request
places none, so it leaves nothing to place. -/
def LinkPort.askNotice (l : LinkPort) : LinkPort :=
  if TransmitItem.notice ∈ l.queue then l else { l with noticeAsked := true }

/-- Changes the notices, and asks the Link Port for a notice frame when the summary passes from empty to not empty
(R169). The frame is placed by NOTICE_FRAME_PLACE (log entry 5). -/
def updateNotices (f : Notices → Notices) (p : Part) : Part :=
  { p with
    notices := f p.notices
    link :=
      if p.notices.summary = 0 ∧ (f p.notices).summary ≠ 0 then p.link.askNotice else p.link }

/-- Raises a plain source (R168). -/
def raise (src : NoticeSource) (p : Part) : Part :=
  updateNotices (fun n => { n with plain := n.plain ||| src.mask }) p

/-- Raises CUE_FIRED for a slot (R65, R168). -/
def raiseCueFired (slot : Fin 4) (p : Part) : Part :=
  updateNotices (fun n => { n with cueSet := n.cueSet ||| (1#4 <<< slot.val) }) p

/-- Raises LINE_FAULT for a line (R145, R146, R168). -/
def raiseLineFault (line : LineNo) (p : Part) : Part :=
  updateNotices (fun n => { n with faultSet := n.faultSet ||| (1#91 <<< line.val) }) p

/-- Raises LINE_RESTING for a key line (R143, R168). -/
def raiseLineResting (key : KeyNo) (p : Part) : Part :=
  updateNotices (fun n => { n with restingSet := n.restingSet ||| (1#88 <<< key.val) }) p

end Sys2Proof.Machine
end

