-- ==== Sys2Proof/Machine/Ops.lean ====
section
/-! DEFINITION. The named operations that the blocks share: counts, times, free orders, records of lines and pedals,
and the drive outputs. -/

namespace Sys2Proof.Machine

/-! ### Counts and times -/

/-- A 32-bit count held at its largest value. -/
def saturate (n : Nat) : Nat :=
  min n Config.countMax

/-- A 32-bit saturating count one higher. -/
def bump (n : Nat) : Nat :=
  saturate (n + 1)

/-- A length in ms, in kick steps of 50 µs. -/
def msTime (ms : Nat) : Time :=
  20 * ms

/-- The whole milliseconds from one time to a later one, rounded down. -/
def wholeMs (since now : Time) : Nat :=
  (now - since) / 20

/-! ### Matters that come in any order -/

/-- Takes the element at a place out of a list. -/
def takeOut {α : Type} : Nat → List α → Option (α × List α)
  | _, [] => none
  | 0, a :: as => some (a, as)
  | n + 1, a :: as => (takeOut n as).map fun r => (r.1, a :: r.2)

/-- A list in a free order: while two or more are left, which comes next is a free value (log entry 1). A list of
one, or of none, has one order alone and takes no choice. `seed` numbers the first choice. -/
def freeOrder {α : Type} : Nat → Nat → List α → List α
  | 0, _, as => as
  | _ + 1, _, [] => []
  | _ + 1, _, [a] => [a]
  | fuel + 1, seed, a :: b :: as =>
    match takeOut (Config.choice seed % (as.length + 2)) (a :: b :: as) with
    | some r => r.1 :: freeOrder fuel (seed + 1) r.2
    | none => a :: freeOrder fuel (seed + 1) (b :: as)

/-- Acts on the part with every element of a list, in a free order. -/
def inAnyOrder {α : Type} (as : List α) (act : α → Part → Part) (p : Part) : Part :=
  (freeOrder as.length p.choices as).foldl (fun q a => act a q)
    { p with choices := p.choices + (as.length - 1) }

/-! ### Lines and pedals -/

/-- Every key, in ascending order. -/
def allKeys : List KeyNo :=
  List.finRange 88

/-- The line of a key. -/
def keyLineNo (k : KeyNo) : LineNo :=
  ⟨k.val, Nat.lt_trans k.isLt (by decide)⟩

/-- The line of a pedal: the damper 88, the bass rail 89, the treble rail 90. -/
def pedalLineNo : Pedal → LineNo
  | .damper => 88
  | .bassRail => 89
  | .trebleRail => 90

/-- What a line is: a key line or a pedal line. -/
def lineKey (line : LineNo) : KeyNo ⊕ Pedal :=
  if h : line.val < 88 then .inl ⟨line.val, h⟩
  else if line.val = 88 then .inr .damper
  else if line.val = 89 then .inr .bassRail
  else .inr .trebleRail

/-- The rail of a half. -/
def railOf : Half → Pedal
  | .bass => .bassRail
  | .treble => .trebleRail

/-- The record of a key line. -/
def Part.key (p : Part) (k : KeyNo) : KeyLine :=
  p.drives.keys[k]

/-- The part with a key line's record replaced. -/
def Part.setKey (p : Part) (k : KeyNo) (l : KeyLine) : Part :=
  { p with drives := { p.drives with keys := p.drives.keys.set k l } }

/-- The record of a pedal. -/
def Part.pedal (p : Part) : Pedal → PedalRecord
  | .damper => p.pedals.damper
  | .bassRail => p.pedals.bassRail
  | .trebleRail => p.pedals.trebleRail

/-- The part with a pedal's record replaced. -/
def Part.setPedal (p : Part) (d : Pedal) (r : PedalRecord) : Part :=
  match d with
  | .damper => { p with pedals := { p.pedals with damper := r } }
  | .bassRail => { p with pedals := { p.pedals with bassRail := r } }
  | .trebleRail => { p with pedals := { p.pedals with trebleRail := r } }

/-- The part with a half of the Expression Unit replaced. -/
def Part.setHalf (p : Part) (h : Half) (x : HalfExpression) : Part :=
  { p with expression := { p.expression with halves := p.expression.halves.set h x } }

/-- Does the transport stand in RUNNING or STARVED? -/
def Part.inPlay (p : Part) : Bool :=
  p.feed.transport == .running || p.feed.transport == .starved

/-! ### Drive outputs (R128) -/

/-- How many whole PWM periods of a base in kHz have begun since the line's periods began, `ns` nanoseconds after
the time `at_`. -/
def Drive.periodIndex (d : Drive) (base : Nat) (at_ : Time) (ns : Nat) : Nat :=
  ((at_ - d.began) * 50000 + ns) * base / 1000000

/-- How far into its period the output is, in millionths of the period. -/
def Drive.phase (d : Drive) (base : Nat) (at_ : Time) (ns : Nat) : Nat :=
  ((at_ - d.began) * 50000 + ns) * base % 1000000

/-- The duty of the period under way: the duty carried, until the period in which the duty was changed has ended
(R128). A change that falls exactly where one period ends and the next begins counts as inside the one that begins, so
that this one keeps the old duty (DESIGN CHOICE, log entry 31). -/
def Drive.dutyAt (d : Drive) (base : Nat) (at_ : Time) (ns : Nat) : Option Nat :=
  d.duty.map fun new => if d.periodIndex base at_ ns = d.periodIndex base d.changed 0 then d.carried else new

/-- A change of a line's duty (R128): to off at once, from off a first period begins, and between two on values the
new duty waits for the next period. -/
def Drive.setDuty (base : Nat) (now : Time) (new : Option Nat) (d : Drive) : Drive :=
  match d.duty, new with
  | _, none => { d with duty := none }
  | none, some duty => { duty := some duty, carried := duty, began := now, changed := now }
  | some old, some duty =>
    if old = duty then d
    else { d with duty := some duty, carried := (d.dutyAt base now 0).getD old, changed := now }

/-- A write of PwmBase: a line that is driving begins a new period, its duty unchanged (R128). -/
def Drive.rebase (now : Time) (d : Drive) : Drive :=
  match d.duty with
  | none => d
  | some duty => { duty := some duty, carried := duty, began := now, changed := now }

/-- Is the output high, `ns` nanoseconds after the time `at_`? It is for duty/32 of each period (R128), and the high
part comes first in the period, which the rule does not place (DESIGN CHOICE, log entry 31). -/
def Drive.high (d : Drive) (base : Nat) (at_ : Time) (ns : Nat) : Bool :=
  match d.dutyAt base at_ ns with
  | none => false
  | some duty => decide (32 * d.phase base at_ ns < duty * 1000000)

/-- Sets the drive duty of a key line. -/
def Part.driveKey (p : Part) (k : KeyNo) (duty : Option Nat) : Part :=
  p.setKey k { p.key k with drive := (p.key k).drive.setDuty p.settings.pwmBase p.now duty }

/-- A pedal's record with its drive duty set. -/
def PedalRecord.driven (r : PedalRecord) (p : Part) (duty : Option Nat) : PedalRecord :=
  { r with drive := r.drive.setDuty p.settings.pwmBase p.now duty }

/-- The level of the output pin DRVn, `ns` nanoseconds after the present time, if nothing changes the line's duty
before then (R128): low while nRESET is low or the supply is gone, and low on a pedal line that has a fault kind
(R146; log entry 20). -/
def Part.drv (p : Part) (line : LineNo) (ns : Nat) : Bool :=
  if p.power = .on then
    match lineKey line with
    | .inl k => (p.key k).drive.high p.settings.pwmBase p.now ns
    | .inr d => (p.pedal d).fault == .none && (p.pedal d).drive.high p.settings.pwmBase p.now ns
  else false

end Sys2Proof.Machine
end

