-- ==== Sys2Proof/Machine/Link.lean ====
section
/-! DEFINITION. The Link Port: frames and their checks, the receiver, the receive buffer, the transmit queue, notice
frames and the taking of requests (chapter 10). -/

namespace Sys2Proof.Machine

/-! ### Frames (section 10.6) -/

/-- The sync byte. -/
def syncByte : Byte :=
  0x7E

/-- The bytes that a frame's check is taken over: kind, tag, length and payload (R163). -/
def Frame.body (f : Frame) : List Byte :=
  f.kind :: f.tag :: littleEndian 2 f.payload.length ++ f.payload

/-- A frame as it stands on the line (section 10.6). -/
def Frame.bytes (f : Frame) : List Byte :=
  syncByte :: f.body ++ littleEndian 2 (crc16 f.body).toNat

/-- How many bytes of the receive buffer a frame takes. -/
def Frame.size (f : Frame) : Nat :=
  f.payload.length + 7

/-! ### The receiver (R163) -/

/-- What a candidate's bytes after its sync have come to. -/
inductive Candidate where
  /-- More bytes are needed; the hunt state says of which part. -/
  | growing (state : HuntState)
  /-- The candidate is discarded: its length is above 1024 or its check fails. -/
  | discarded
  /-- The frame is good, and `used` bytes after the sync belong to it. -/
  | good (frame : Frame) (used : Nat)
  deriving DecidableEq, Repr

/-- Reads a candidate's bytes after its sync (R163). -/
def readCandidate (bs : List Byte) : Candidate :=
  if bs.length < 4 then .growing .header
  else
    let n := fieldAt bs 2 2
    if Config.maxPayload < n then .discarded
    else if bs.length < n + 4 then .growing .payload
    else if bs.length < n + 6 then .growing .check
    else if (crc16 (bs.take (n + 4))).toNat = fieldAt bs (n + 4) 2 then
      .good { kind := bs.getD 0 0, tag := bs.getD 1 0, payload := (bs.drop 4).take n } (n + 6)
    else .discarded

/-- What a scan of received bytes finds: the candidate left under reception (with its sync; empty in HUNT), the good
frames in order, and how many candidates were discarded. -/
structure Scan where
  candidate : List Byte
  good : List Frame
  discarded : Nat
  deriving DecidableEq, Repr

/-- The scan with one more good frame in front. -/
def Scan.withGood (s : Scan) (f : Frame) : Scan :=
  { s with good := f :: s.good }

/-- The scan with one more discard. -/
def Scan.withDiscard (s : Scan) : Scan :=
  { s with discarded := s.discarded + 1 }

/-- Hunts through received bytes (R163), after passing over `skip` of them that a good frame has used. A byte other
than the sync is dropped. A discarded candidate is hunted again from the byte after its sync. -/
def scanBytes : Nat → List Byte → Scan
  | _, [] => { candidate := [], good := [], discarded := 0 }
  | skip + 1, _ :: bs => scanBytes skip bs
  | 0, b :: bs =>
    if b = syncByte then
      match readCandidate bs with
      | .growing _ => { candidate := b :: bs, good := [], discarded := 0 }
      | .discarded => (scanBytes 0 bs).withDiscard
      | .good frame used => (scanBytes used bs).withGood frame
    else scanBytes 0 bs

/-- The hunt state (R163): HUNT with no candidate, and otherwise what the candidate still needs (log entry 27). -/
def LinkPort.hunt (l : LinkPort) : HuntState :=
  match l.candidate with
  | [] => .hunt
  | _ :: bs =>
    match readCandidate bs with
    | .growing state => state
    | .discarded | .good .. => .hunt

/-- The bytes held in the receive buffer: the candidate and every good frame not yet taken (R164). -/
def LinkPort.buffered (l : LinkPort) : Nat :=
  l.candidate.length + (l.waiting.map Frame.size).sum

/-- Adds to a 32-bit saturating count. -/
def bumpBy (n k : Nat) : Nat :=
  saturate (n + k)

/-- The Link Port after a scan at time `now` (R163, R167): the good frames wait, a good frame restarts the silence
timer, and the gap timer of a candidate starts now. -/
def LinkPort.scanned (l : LinkPort) (s : Scan) (now : Time) : LinkPort :=
  { l with
    candidate := s.candidate
    gapStarted := if s.candidate = [] then l.gapStarted else now
    waiting := l.waiting ++ s.good
    silenceStarted := if s.good = [] then l.silenceStarted else now
    silenceRunning := l.silenceRunning || s.good != [] }

/-- Discards are counted, and FRAME_ERRORS is raised for them (R163, R164). -/
def countDiscards (k : Nat) (p : Part) : Part :=
  if k = 0 then p
  else raise .frameErrors { p with link := { p.link with discarded := bumpBy p.link.discarded k } }

/-- The part after a scan (R163). -/
def takeScan (s : Scan) (p : Part) : Part :=
  countDiscards s.discarded { p with link := p.link.scanned s p.now }

/-- A byte reaches the receiver (R163, R164): it is lost and counted if the buffer is full. That holds in HUNT too, of a
byte that would be dropped there, and a lost byte does not start the gap timer of a candidate again (DESIGN CHOICE, log
entry 32). -/
def acceptByte (b : Byte) (p : Part) : Part :=
  if Config.linkBytes ≤ p.link.buffered then
    { p with link := { p.link with overruns := bump p.link.overruns } }
  else takeScan (scanBytes 0 (p.link.candidate ++ [b])) p

/-- The gap timer expires (R163): the candidate is discarded and hunted again from the byte after its sync. -/
def expireGap (p : Part) : Part :=
  match p.link.candidate with
  | [] => p
  | _ :: bs => takeScan (scanBytes 0 bs).withDiscard p

/-! ### The transmit queue (R166) -/

/-- How many bytes of the queue an item takes. -/
def TransmitItem.size : TransmitItem → Nat
  | .reply bytes => bytes.length
  | .notice => Config.noticeFrameBytes

/-- The bytes of the frame on TXD that are not yet sent: ten bits a byte at the link's rate (R162, R166; log entry
30). -/
def Sending.unsent (s : Sending) (baud : Nat) (now : Time) : Nat :=
  s.bytes.length - (now - s.began) * baud / 200000

/-- The level of TXD, true for high, `ns` nanoseconds after the time `now`: each byte is a start bit, 8 data bits
sent least significant first and a stop bit, and the line idles high (R162). -/
def Sending.level (s : Sending) (baud : Nat) (now : Time) (ns : Nat) : Bool :=
  let bit := ((now - s.began) * 50000 + ns) * baud / 1000000000
  if bit % 10 = 0 then decide (s.bytes.length ≤ bit / 10)
  else if bit % 10 = 9 then true
  else decide (s.bytes.length ≤ bit / 10) || (s.bytes.getD (bit / 10) 0).getLsbD (bit % 10 - 1)

/-- The bytes of the frame on TXD that are not yet sent. -/
def LinkPort.unsent (l : LinkPort) (now : Time) : Nat :=
  match l.sending with
  | none => 0
  | some s => s.unsent l.baud now

/-- The free bytes of the transmit queue (R166). -/
def LinkPort.room (l : LinkPort) (now : Time) : Nat :=
  Config.linkBytes - ((l.queue.map TransmitItem.size).sum + l.unsent now)

/-- The level of the output pin TXD, `ns` nanoseconds after the present time, if nothing is placed before then: the
line idles high, and the link is silent while the part does not run. There R175 has every output low and R162 has TXD
idle high, and the model keeps TXD high (DESIGN CHOICE, log entry 20). -/
def Part.txd (p : Part) (ns : Nat) : Bool :=
  match p.link.sending with
  | some s => if p.power = .on then s.level p.link.baud p.now ns else true
  | none => true

/-- The part with an item placed at the end of the transmit queue. -/
def Part.enqueue (p : Part) (item : TransmitItem) : Part :=
  { p with link := { p.link with queue := p.link.queue ++ [item] } }

/-- The notice payload (section 10.6). -/
def Notices.payload (n : Notices) : List Byte :=
  littleEndian 2 n.flags.toNat ++ littleEndian 1 n.cueSet.toNat ++ littleEndian 12 n.faultSet.toNat
    ++ littleEndian 11 n.restingSet.toNat

/-- A notice frame with these notices as its content: kind 0xC0, tag 0 (R166). -/
def Notices.frame (n : Notices) : Frame :=
  { kind := 0xC0, tag := 0, payload := n.payload }

/-- May a notice frame be placed: one has been asked for, and the queue has room for its 33 bytes (R166)? -/
def Part.noticePlaceable (p : Part) : Bool :=
  p.link.noticeAsked && decide (Config.noticeFrameBytes ≤ p.link.room p.now)

/-- A notice frame that has been asked for is placed if there is room for its 33 bytes; a request that finds no room
is kept (R166). -/
def placeNotice (p : Part) : Part :=
  if p.noticePlaceable then
    ({ p with link := { p.link with noticeAsked := false } } : Part).enqueue .notice
  else p

/-- The bytes of an item as it begins to be sent: a notice frame's content is formed now (R166). -/
def TransmitItem.sentBytes (item : TransmitItem) (n : Notices) : List Byte :=
  match item with
  | .reply bytes => bytes
  | .notice => n.frame.bytes

/-- The next frame begins to be sent (R166); the frame before it has been sent whole. -/
def sendNext (p : Part) : Part :=
  match p.link.queue with
  | [] => p
  | item :: rest =>
    { p with
      link := { p.link with
        queue := rest
        sending := some { bytes := item.sentBytes p.notices, began := p.now } } }

/-! ### The taking of requests (R165) -/

/-- The result codes (section 10.5). -/
inductive Result where
  | ok | clamped | partially | state | range | conflict | gap | unknownKind | unknownItem | length | fault
  | storeError
  deriving DecidableEq, Repr

/-- The code of a result (section 10.5). -/
def Result.code : Result → Nat
  | .ok => 0
  | .clamped => 1
  | .partially => 2
  | .state => 3
  | .range => 4
  | .conflict => 5
  | .gap => 6
  | .unknownKind => 7
  | .unknownItem => 8
  | .length => 9
  | .fault => 10
  | .storeError => 11

/-- A reply payload's head (section 10.6), which is also the whole of a reply that is "the result alone". -/
def Result.bytes (r : Result) : List Byte :=
  littleEndian 1 r.code

/-- The reply frame of a request: its kind plus 0x80, its tag, and the payload (R165). -/
def Frame.reply (f : Frame) (payload : List Byte) : Frame :=
  { kind := f.kind + 0x80, tag := f.tag, payload := payload }

/-- The request that waits first. -/
def Part.request (p : Part) : Option Frame :=
  p.link.waiting.head?

/-- May a request be taken: the reply to the last one has been placed, and the queue has 1064 bytes free (R165)? -/
def Part.readyForRequest (p : Part) : Bool :=
  p.saving.isNone && decide (Config.replyRoom ≤ p.link.room p.now)

/-- The reply is placed, and the request's bytes leave the receive buffer (R164, R165). -/
def finishRequest (reply : Frame) (p : Part) : Part :=
  let placed := p.enqueue (.reply reply.bytes)
  { placed with link := { placed.link with waiting := placed.link.waiting.tail } }

end Sys2Proof.Machine
end

