-- ==== Sys2Proof/Machine/Arbiter.lean ====
section
/-! DEFINITION. The Kick Arbiter: units, the wait list, granting, outcomes and the strike history (chapter 7), with
the starts of the kicks and lifts it grants (R130, R151). -/

namespace Sys2Proof.Machine

/-! ### Outcomes and the strike history -/

/-- A ring of records with one filed at its end, the oldest removed first when it is full (R125). -/
def fileRecord (history : List HistoryRecord) (r : HistoryRecord) : List HistoryRecord :=
  history.drop (history.length + 1 - Config.historyRecords) ++ [r]

/-- The record of a plan that ends (R125): K is the plan's for PLAYED and 0 for every other outcome, and the
waited time saturates at 255. -/
def recordOf (sequence : Nat) (plan : Plan) (outcome : StrikeOutcome) (waited : Nat) : HistoryRecord :=
  { sequence := sequence
    line := plan.line
    origin := plan.origin
    onsetRow := plan.onsetRow.getD 0
    outcome := outcome
    shade := plan.shade
    kick := if outcome = .played then plan.kick else 0
    waited := min waited 255
    flags := plan.flags
    rowPresent := plan.origin == .roll }

/-- The arbiter with a plan's end counted and filed (R123, R124, R125). -/
def KickArbiter.fileEnd (a : KickArbiter) (plan : Plan) (outcome : StrikeOutcome) (waited : Nat) : KickArbiter :=
  { a with
    outcomes := a.outcomes.set outcome.code (bump a.outcomes[outcome.code])
    history := fileRecord a.history (recordOf a.nextSequence plan outcome waited)
    nextSequence := (a.nextSequence + 1) % 65536 }

/-- A plan ends in an outcome: it is counted and filed, and STRIKES_DROPPED is raised unless the outcome is PLAYED
or MERGED (R123, R124). -/
def endPlan (plan : Plan) (outcome : StrikeOutcome) (waited : Nat) (p : Part) : Part :=
  let filed := { p with arbiter := p.arbiter.fileEnd plan outcome waited }
  if outcome = .played ∨ outcome = .merged then filed else raise .strikesDropped filed

/-- The plan of a key entry or grant with the short flag as it stands there. -/
def Plan.withShort (plan : Plan) (short : Bool) : Plan :=
  { plan with flags := { plan.flags with short := short } }

/-! ### Units -/

/-- The units in use: the sum of the grant table (R108). -/
def KickArbiter.unitsInUse (a : KickArbiter) : Nat :=
  (a.grants.toList.map fun place => place.getD 0).sum

/-- Is the cost at most the free units (R108, R112)? -/
def Part.fits (p : Part) (cost : Nat) : Bool :=
  decide (cost + p.arbiter.unitsInUse ≤ p.settings.budgetUnits)

/-- The part with a line's place in the grant table filled or emptied. -/
def Part.setPlace (p : Part) (line : LineNo) (place : Option Nat) : Part :=
  { p with arbiter := { p.arbiter with grants := p.arbiter.grants.set line place } }

/-- The part with another wait list. -/
def Part.setWait (p : Part) (wait : List WaitEntry) : Part :=
  { p with arbiter := { p.arbiter with wait := wait } }

/-! ### Grants -/

/-- A granted plan starts its kick (R130). -/
def startKick (plan : Plan) (p : Part) : Part :=
  let l := p.key plan.line
  p.setKey plan.line
    { l with
      state := .kick
      queuedOrigin := none
      plan := some plan
      kickStarted := p.now
      short := plan.flags.short
      drive := l.drive.setDuty p.settings.pwmBase p.now (some plan.kickDuty) }

/-- The length in ms of a pedal's kick (R151). -/
def Settings.pedalKick (t : Settings) : Pedal → Nat
  | .damper => t.damperKick
  | .bassRail | .trebleRail => t.railKick

/-- The duty of a pedal's kick (R151). -/
def Settings.pedalKickDuty (t : Settings) : Pedal → Nat
  | .damper => t.damperKickDuty
  | .bassRail | .trebleRail => t.railKickDuty

/-- A granted pedal enters LIFTING (R151). -/
def startLift (d : Pedal) (p : Part) : Part :=
  let r := p.pedal d
  p.setPedal d
    { r with
      state := .lifting
      origin := none
      kickTimer := some { started := p.now, length := p.settings.pedalKick d }
      drive := r.drive.setDuty p.settings.pwmBase p.now (some (p.settings.pedalKickDuty d)) }

/-- A grant (R115): the place is filled; a key plan ends PLAYED and its kick starts; a pedal's lift starts. -/
def grant (line : LineNo) (cost : Nat) (request : KickRequest) (short : Bool) (waited : Nat) (p : Part) : Part :=
  let filled := p.setPlace line (some cost)
  match request with
  | .strike plan => startKick (plan.withShort short) (endPlan (plan.withShort short) .played waited filled)
  | .lift _ =>
    match lineKey line with
    | .inl _ => filled
    | .inr d => startLift d filled

/-- A granting pass over the list given: entries are granted from its front while they fit (R114). -/
def grantFrom : List WaitEntry → Part → Part
  | [], p => p.setWait []
  | e :: rest, p =>
    if p.fits e.cost then
      grantFrom rest (grant e.line e.cost e.request e.short (wholeMs e.entered p.now) (p.setWait rest))
    else p.setWait (e :: rest)

/-- A granting pass (R114). It is made after every removal, of the head or not: behind a head that does not fit it grants
nothing (log entry 18). -/
def grantingPass (p : Part) : Part :=
  grantFrom p.arbiter.wait p

/-! ### The ends of kicks and lifts -/

/-- The end of a kick or lift is reported (R116): the place is emptied and a granting pass follows. A report for an
empty place changes nothing. -/
def reportEnd (line : LineNo) (p : Part) : Part :=
  match p.arbiter.grants[line] with
  | none => p
  | some _ => grantingPass (p.setPlace line none)

/-! ### Leaving and joining the wait list -/

/-- A key line whose entry has left the list without a grant is IDLE (R131). -/
def unqueueKey (k : KeyNo) (p : Part) : Part :=
  p.setKey k { p.key k with state := .idle, queuedOrigin := none }

/-- A key line whose entry has joined the list is QUEUED (R112, R129). -/
def queueKey (k : KeyNo) (origin : Origin) (p : Part) : Part :=
  p.setKey k { p.key k with state := .queued, queuedOrigin := some origin }

/-- The length in ms of a pedal's settle (R152). -/
def Settings.pedalSettle (t : Settings) : Pedal → Nat
  | .damper => t.damperSettle
  | .bassRail | .trebleRail => t.railSettle

/-- A WAITING pedal whose entry has left the list without a grant goes back by its waiting origin (R152, R154): to
LOWERED, to DROPPING with its settle restarted, or to RAISED at PART with its drive unchanged. The rules name no depth
for a damper that goes back to LOWERED or DROPPING, and it keeps the depth that was asked for (DESIGN CHOICE, log entry
24). -/
def returnPedal (d : Pedal) (p : Part) : Part :=
  let r := p.pedal d
  match r.origin with
  | some .dropping =>
    p.setPedal d
      { r with
        state := .dropping
        origin := none
        settleTimer := some { started := p.now, length := p.settings.pedalSettle d } }
  | some .deepen => p.setPedal d { r with state := .raised, origin := none, depth := .part }
  | some .lowered | none => p.setPedal d { r with state := .lowered, origin := none }

/-- The line of an entry that has left the list without a grant goes back to where it came from. -/
def returnLine (e : WaitEntry) (p : Part) : Part :=
  match e.request, lineKey e.line with
  | .strike plan, _ => unqueueKey plan.line p
  | .lift _, .inr d => returnPedal d p
  | .lift _, .inl _ => p

/-- The entry of a line, if it has one (R111: a line has at most one). -/
def Part.entryOf (p : Part) (line : LineNo) : Option WaitEntry :=
  p.arbiter.wait.find? fun e => e.line == line

/-- The part with the entry of a line taken out of the list. -/
def Part.dropEntry (p : Part) (line : LineNo) : Part :=
  p.setWait (p.arbiter.wait.eraseP fun e => e.line == line)

/-- Where a request of this priority stands (R112): directly behind the last entry whose priority is numerically
lower than or equal to its own, or at the head. -/
def placeOf (priority : Nat) (wait : List WaitEntry) : Nat :=
  wait.length - (wait.reverse.takeWhile fun e => decide (priority < e.priority)).length

/-- The list with an entry put in at a place. -/
def insertAt (place : Nat) (e : WaitEntry) (wait : List WaitEntry) : List WaitEntry :=
  wait.take place ++ e :: wait.drop place

/-- The entry of a request that joins the list now (R112). -/
def Part.newEntry (p : Part) (line : LineNo) (priority cost : Nat) (request : KickRequest) (short : Bool) :
    WaitEntry :=
  { line := line
    priority := priority
    cost := cost
    request := request
    entered := p.now
    deadline := p.now + msTime p.settings.waitLimit
    short := short }

/-- A request joins the list at its place, its line becomes QUEUED (a pedal is WAITING already), and a granting pass
follows (R112, R114). -/
def joinList (e : WaitEntry) (p : Part) : Part :=
  let joined := p.setWait (insertAt (placeOf e.priority p.arbiter.wait) e p.arbiter.wait)
  grantingPass <|
    match e.request with
    | .strike plan => queueKey plan.line plan.origin joined
    | .lift _ => joined

/-- The last entry is removed EVICTED (R113). A pedal entry is never the last of a full list that a better request
meets, so that case is not one the part reaches. -/
def evict (e : WaitEntry) (p : Part) : Part :=
  let removed := returnLine e (p.setWait p.arbiter.wait.dropLast)
  match e.request with
  | .strike plan => endPlan (plan.withShort e.short) .evicted (wholeMs e.entered p.now) removed
  | .lift _ => removed

/-- A request that neither joins nor is granted (R113): a key plan ends LIST_FULL and its line is IDLE. A pedal's
request always joins, so that case is not one the part reaches. -/
def turnAway (e : WaitEntry) (p : Part) : Part :=
  match e.request with
  | .strike plan => endPlan (plan.withShort e.short) .listFull 0 (returnLine e p)
  | .lift _ => returnLine e p

/-- A request arrives (R112, R113). -/
def arrive (line : LineNo) (priority cost : Nat) (request : KickRequest) (short : Bool) (p : Part) : Part :=
  let e := p.newEntry line priority cost request short
  if placeOf priority p.arbiter.wait = 0 ∧ p.fits cost then grant line cost request short 0 p
  else if p.arbiter.wait.length < Config.waitEntries then joinList e p
  else
    match p.arbiter.wait.getLast? with
    | none => turnAway e p
    | some last => if priority < last.priority then joinList e (evict last p) else turnAway e p

/-- A key plan arrives from an IDLE line, or at the end of a guard (R129, R136). -/
def submitPlan (plan : Plan) (p : Part) : Part :=
  arrive (keyLineNo plan.line) plan.priority plan.cost (.strike plan) plan.flags.short p

/-- The cost of a pedal's lift (R109). -/
def Settings.pedalCost (t : Settings) : Pedal → Nat
  | .damper => t.damperCost
  | .bassRail | .trebleRail => t.railCost

/-- The lift of a pedal arrives, with priority 0 (R111, R150). -/
def submitLift (d : Pedal) (depth : Depth) (p : Part) : Part :=
  arrive (pedalLineNo d) 0 (p.settings.pedalCost d) (.lift depth) false p

/-! ### What reaches an entry while it waits -/

/-- The entry that a merge leaves (R117): the new plan, its cost and its short flag, in the old place with the old
times and priority. -/
def WaitEntry.merged (e : WaitEntry) (plan : Plan) : WaitEntry :=
  { e with request := .strike plan, cost := plan.cost, short := plan.flags.short }

/-- The list with a line's first entry changed. -/
def changeEntry (line : LineNo) (f : WaitEntry → WaitEntry) : List WaitEntry → List WaitEntry
  | [] => []
  | e :: rest => if e.line = line then f e :: rest else e :: changeEntry line f rest

/-- A merge (R117): a QUEUED line's new plan takes the place of the plan in its entry, the old plan ends MERGED, and
a granting pass follows if that changed the cost of the head. -/
def mergePlan (plan : Plan) (p : Part) : Part :=
  match p.entryOf (keyLineNo plan.line) with
  | none => p
  | some e =>
    let changed := queueKey plan.line plan.origin
      (p.setWait (changeEntry (keyLineNo plan.line) (fun x => x.merged plan) p.arbiter.wait))
    let ended :=
      match e.request with
      | .strike old => endPlan (old.withShort e.short) .merged (wholeMs e.entered p.now) changed
      | .lift _ => changed
    if p.arbiter.wait.head? = some e ∧ e.cost ≠ plan.cost then grantingPass ended else ended

/-- A note-off for a QUEUED line sets the short flag of its entry (R118). -/
def shortenEntry (k : KeyNo) (p : Part) : Part :=
  p.setWait (changeEntry (keyLineNo k) (fun e => { e with short := true }) p.arbiter.wait)

/-- A key entry is removed and its plan ends, with the waited time up to now; the line becomes IDLE and a granting
pass follows (R114). -/
def removeKeyEntry (e : WaitEntry) (plan : Plan) (outcome : StrikeOutcome) (waited : Nat) (p : Part) : Part :=
  grantingPass (endPlan (plan.withShort e.short) outcome waited (unqueueKey plan.line (p.dropEntry e.line)))

/-- The pedal-withdrawal counter rises by 1 (R120, R121, R150). -/
def countWithdrawal (p : Part) : Part :=
  { p with arbiter := { p.arbiter with withdrawals := bump p.arbiter.withdrawals } }

/-- The late-pedal counter rises by 1 (R119). -/
def countLatePedal (p : Part) : Part :=
  { p with arbiter := { p.arbiter with latePedals := bump p.arbiter.latePedals } }

/-- A pedal's entry is withdrawn, by a drop (R120) or a fault (R121): removed, counted, and followed by a granting
pass. -/
def withdrawLift (d : Pedal) (p : Part) : Part :=
  grantingPass (countWithdrawal (p.dropEntry (pedalLineNo d)))

/-- An entry's deadline passes (R119): a key entry ends LATE with a waited time of the WaitLimit it joined with, and
a pedal entry is counted and handed back as late (R154). -/
def expireEntry (e : WaitEntry) (p : Part) : Part :=
  match e.request, lineKey e.line with
  | .strike plan, _ => removeKeyEntry e plan .late (wholeMs e.entered e.deadline) p
  | .lift _, .inr d => grantingPass (returnPedal d (countLatePedal (p.dropEntry e.line)))
  | .lift _, .inl _ => grantingPass (p.dropEntry e.line)

/-! ### The flush -/

/-- Is the entry a key entry? -/
def WaitEntry.isKey (e : WaitEntry) : Bool :=
  match e.request with
  | .strike _ => true
  | .lift _ => false

/-- One key entry leaves FLUSHED, with the waited time up to now, and its line becomes IDLE (R122, R138). The
list itself is emptied of key entries by `flushEntries`. -/
def flushEntry (e : WaitEntry) (p : Part) : Part :=
  match e.request with
  | .strike plan => endPlan (plan.withShort e.short) .flushed (wholeMs e.entered p.now) (unqueueKey plan.line p)
  | .lift _ => p

/-- Every key entry leaves the list, in list order, FLUSHED; pedal entries stay (R122). No granting pass is made
yet. -/
def flushEntries (p : Part) : Part :=
  (p.arbiter.wait.filter WaitEntry.isKey).foldl (fun q e => flushEntry e q)
    (p.setWait (p.arbiter.wait.filter fun e => !e.isKey))

end Sys2Proof.Machine
end

