-- ==== Sys2Proof/Machine/Pedals.lean ====
section
/-! DEFINITION. The Pedal Unit: lifts, drops, depths, late lifts, faults and re-sync (chapter 9, without the lead
decoder), and the Expression Unit's part in them (R86, R88). -/

namespace Sys2Proof.Machine

/-- The hold duty of a raised pedal: by its depth for the damper, RailHold for a rail (R151). -/
def Settings.pedalHold (t : Settings) (d : Pedal) (depth : Depth) : Nat :=
  match d, depth with
  | .damper, .full => t.damperHoldFull
  | .damper, .part => t.damperHoldPart
  | .bassRail, _ | .trebleRail, _ => t.railHold

/-- The depth a lift leaves with the pedal: a rail has none, so its record's depth stays as it is (R148). -/
def liftDepth (d : Pedal) (r : PedalRecord) (depth : Depth) : Depth :=
  match d with
  | .damper => depth
  | .bassRail | .trebleRail => r.depth

/-- The pedal enters WAITING from the state its origin names, and its request goes to the arbiter (R150). -/
def beginWait (d : Pedal) (origin : WaitOrigin) (depth : Depth) (p : Part) : Part :=
  let r := p.pedal d
  submitLift d (liftDepth d r depth)
    (p.setPedal d
      { r with state := .waiting, origin := some origin, depth := liftDepth d r depth, settleTimer := none })

/-- A pedal enters DROPPING with its drive off and its settle timer at 0 (R151, R152). -/
def beginDrop (d : Pedal) (p : Part) : Part :=
  let r := (p.pedal d).driven p none
  p.setPedal d
    { r with
      state := .dropping
      dropMark := false
      settleTimer := some { started := p.now, length := p.settings.pedalSettle d } }

/-- A change of the damper's depth (R153). -/
def changeDepth (d : Pedal) (depth : Depth) (p : Part) : Part :=
  let r := p.pedal d
  match r.state with
  | .raised =>
    match depth with
    | .part => p.setPedal d { r.driven p (some p.settings.damperHoldPart) with depth := .part }
    | .full => beginWait d .deepen .full p
  | .waiting =>
    if r.origin = some .deepen then returnPedal d (withdrawLift d p)
    else p.setPedal d { r with depth := depth }
  | .lifting => p.setPedal d { r with depth := depth }
  | .lowered | .dropping => p

/-- A lift (R150). -/
def liftPedal (d : Pedal) (depth : Depth) (p : Part) : Part :=
  let r := p.pedal d
  let other := liftDepth d r depth != r.depth
  match r.state with
  | .lowered => if r.faulted then countWithdrawal p else beginWait d .lowered depth p
  | .dropping => beginWait d .dropping depth p
  | .waiting => if other then changeDepth d depth p else p
  | .lifting => p.setPedal d { r with dropMark := false, depth := liftDepth d r depth }
  | .raised => if other then changeDepth d depth p else p

/-- A drop (R152). A WAITING pedal's entry is withdrawn first; a deepen goes back to RAISED and is dropped from
there. -/
def dropPedal (d : Pedal) (p : Part) : Part :=
  let r := p.pedal d
  match r.state with
  | .lowered | .dropping => p
  | .waiting =>
    let back := returnPedal d (withdrawLift d p)
    if r.origin = some .deepen then beginDrop d back else back
  | .lifting => p.setPedal d { r with dropMark := true }
  | .raised => beginDrop d p

/-- A pedal's kick ends (R151): the units return, and it goes to DROPPING if the drop mark is set and to RAISED if
not. -/
def liftEnds (d : Pedal) (p : Part) : Part :=
  if (p.pedal d).state = .lifting then
    let q := reportEnd (pedalLineNo d) p
    let r := q.pedal d
    let still := q.setPedal d { r with kickTimer := none }
    if r.dropMark then beginDrop d still
    else
      still.setPedal d
        { (still.pedal d).driven still (some (p.settings.pedalHold d r.depth)) with state := .raised }
  else p

/-- A settle ends (R152). -/
def settleEnds (d : Pedal) (p : Part) : Part :=
  let r := p.pedal d
  if r.state = .dropping then p.setPedal d { r with state := .lowered, settleTimer := none } else p

/-! ### Demands (section 9.2) -/

/-- The damper's demand from its two recorded levels (R149): the depth to lift to, or `none` for a drop. -/
def PedalUnit.damperDemand (u : PedalUnit) : Option Depth :=
  if u.liftLevel then some .full else if u.featherLevel then some .part else none

/-- The damper is handed the demand of its recorded levels (R149). -/
def demandDamper (p : Part) : Part :=
  match p.pedals.damperDemand with
  | some depth => liftPedal .damper depth p
  | none => dropPedal .damper p

/-- A pedal is handed a lift (at FULL, where it is the damper) or a drop. -/
def moveRail (d : Pedal) (up : Bool) (p : Part) : Part :=
  if up then liftPedal d .full p else dropPedal d p

/-- The part with the half's auto demand set (R71, R86, R88). -/
def Part.setAutoUp (p : Part) (h : Half) (up : Bool) : Part :=
  p.setHalf h { p.expression.halves.get h with autoUp := up }

/-- The rail stage of a half (R86): a lift below RailOn, a drop above RailOff, and nothing between. -/
def railStage (h : Half) (p : Part) : Part :=
  let shade := (p.expression.halves.get h).shade
  if shade < p.settings.railOn then moveRail (railOf h) true (p.setAutoUp h true)
  else if p.settings.railOff < shade then moveRail (railOf h) false (p.setAutoUp h false)
  else p

/-- The Expression Unit's answer for an AUTO rail (R88): true for UP. -/
def railAnswer (h : Half) (p : Part) : Bool :=
  let x := p.expression.halves.get h
  if x.shade < p.settings.railOn then true
  else if p.settings.railOff < x.shade then false
  else x.autoUp

/-- The re-sync of one rail, by its half's mode (R157). -/
def resyncRail (h : Half) (p : Part) : Part :=
  match p.settings.railMode.get h with
  | .auto => moveRail (railOf h) (railAnswer h p) (p.setAutoUp h (railAnswer h p))
  | .roll => moveRail (railOf h) p.pedals.softLevel p
  | .up => moveRail (railOf h) true p
  | .down => moveRail (railOf h) false p

/-- The re-sync of one pedal; one whose faulted mark is set is skipped (R157). -/
def resyncPedal (d : Pedal) (p : Part) : Part :=
  if (p.pedal d).faulted then p
  else
    match d with
    | .damper => demandDamper p
    | .bassRail => resyncRail .bass p
    | .trebleRail => resyncRail .treble p

/-- The re-sync, in line order (R157). -/
def resyncPedals (p : Part) : Part :=
  resyncPedal .trebleRail (resyncPedal .bassRail (resyncPedal .damper p))

/-- A rail in ROLL mode receives a lift or a drop from the SOFT level; a rail in another mode does not move
(R149). -/
def followSoft (h : Half) (p : Part) : Part :=
  if p.settings.railMode.get h = .roll then moveRail (railOf h) p.pedals.softLevel p else p

/-- A DAMPER_LIFT level is recorded and acted on (R149). -/
def takeLiftLevel (level : Bool) (p : Part) : Part :=
  demandDamper { p with pedals := { p.pedals with liftLevel := level } }

/-- A DAMPER_FEATHER level is recorded and acted on (R149). -/
def takeFeatherLevel (level : Bool) (p : Part) : Part :=
  demandDamper { p with pedals := { p.pedals with featherLevel := level } }

/-- A SOFT level is recorded and acted on: the bass rail, then the treble (R149; log entry 13). -/
def takeSoftLevel (level : Bool) (p : Part) : Part :=
  followSoft .treble (followSoft .bass { p with pedals := { p.pedals with softLevel := level } })

/-- A rail mode, newly written, is handed to the Pedal Unit with the request that goes with it (R84, R158). -/
def handRailMode (h : Half) (p : Part) : Part :=
  match p.settings.railMode.get h with
  | .auto => if p.inPlay then railStage h p else dropPedal (railOf h) (p.setAutoUp h false)
  | .roll => moveRail (railOf h) (p.inPlay && p.pedals.softLevel) p
  | .up => moveRail (railOf h) true p
  | .down => moveRail (railOf h) false p

/-- The drop of a rail that PAUSE and the end of the roll ask for: only in AUTO or ROLL (R156). -/
def dropPlayedRail (h : Half) (p : Part) : Part :=
  match p.settings.railMode.get h with
  | .auto | .roll => dropPedal (railOf h) p
  | .up | .down => p

/-- The drops of PAUSE and of the end of the roll (R28, R31, R156). -/
def dropPlayedPedals (p : Part) : Part :=
  dropPlayedRail .treble (dropPlayedRail .bass (dropPedal .damper p))

/-- The drops of STOP and of a soft reset: every pedal (R29, R156). -/
def dropAllPedals (p : Part) : Part :=
  dropPedal .trebleRail (dropPedal .bassRail (dropPedal .damper p))

/-! ### Faults on pedal lines -/

/-- The Pedal Unit takes a fault (R155): a lift is cut and its units return, an entry leaves and is counted, and the
pedal is LOWERED with its faulted mark set; its depth is kept (log entry 24). -/
def pedalFaulted (d : Pedal) (p : Part) : Part :=
  let cut :=
    match (p.pedal d).state with
    | .lifting => reportEnd (pedalLineNo d) p
    | .waiting => withdrawLift d p
    | .lowered | .raised | .dropping => p
  cut.setPedal d
    { cut.pedal d with
      state := .lowered
      origin := none
      dropMark := false
      kickTimer := none
      settleTimer := none
      faulted := true }

/-- A fault report for a pedal line (R146): the drive goes off, the kind is kept, LINE_FAULT is raised, and the
fault is handed to the Pedal Unit. A line whose kind is set already changes nothing. -/
def faultPedal (d : Pedal) (kind : FaultKind) (p : Part) : Part :=
  if (p.pedal d).fault ≠ .none then p
  else
    pedalFaulted d
      (raiseLineFault (pedalLineNo d) (p.setPedal d { (p.pedal d).driven p none with fault := kind }))

/-- A pedal line's fault kind is set to none and its faulted mark cleared (R146, R155). -/
def clearPedalFault (d : Pedal) (p : Part) : Part :=
  p.setPedal d { p.pedal d with fault := .none, faulted := false }

/-- A restore by an admitted RESTORE LINE (R147, R155): in RUNNING or STARVED the pedal is re-synced alone. -/
def restorePedal (d : Pedal) (p : Part) : Part :=
  let q := clearPedalFault d p
  if q.inPlay then resyncPedal d q else q

/-- The restores a soft reset hands over, which move nothing (R146, R155). -/
def restoreAllPedals (p : Part) : Part :=
  clearPedalFault .trebleRail (clearPedalFault .bassRail (clearPedalFault .damper p))

/-- A write of a hold duty takes effect at once on a pedal that holds by it (R161). `holding` says which records
do. -/
def applyHold (d : Pedal) (holding : PedalRecord → Bool) (duty : Nat) (p : Part) : Part :=
  if holding (p.pedal d) then p.setPedal d ((p.pedal d).driven p (some duty)) else p

/-- Does the damper hold at FULL (R161)? -/
def PedalRecord.holdsFull (r : PedalRecord) : Bool :=
  r.state == .raised && r.depth == .full

/-- Does the damper hold at PART: RAISED there, or waiting in a deepen (R161)? -/
def PedalRecord.holdsPart (r : PedalRecord) : Bool :=
  (r.state == .raised && r.depth == .part) || (r.state == .waiting && r.origin == some .deepen)

/-- Is the rail RAISED (R161)? -/
def PedalRecord.isRaised (r : PedalRecord) : Bool :=
  r.state == .raised

/-- DamperHoldFull takes effect at once (R161). -/
def applyHoldFull (p : Part) : Part :=
  applyHold .damper PedalRecord.holdsFull p.settings.damperHoldFull p

/-- DamperHoldPart takes effect at once (R161). -/
def applyHoldPart (p : Part) : Part :=
  applyHold .damper PedalRecord.holdsPart p.settings.damperHoldPart p

/-- RailHold takes effect at once on both rails (R161). -/
def applyRailHold (p : Part) : Part :=
  applyHold .trebleRail PedalRecord.isRaised p.settings.railHold
    (applyHold .bassRail PedalRecord.isRaised p.settings.railHold p)

end Sys2Proof.Machine
end

