-- ==== Sys2Proof/Machine/Expression.lean ====
section
/-! DEFINITION. The expression tick: step, base, target, swelled flag, rate and move (section 5.3). -/

namespace Sys2Proof.Machine

/-- The step of a half's levels, 0 to 7 (R76). -/
def InputLevels.step (l : InputLevels) : Fin 8 :=
  (if l.step1 then 1 else 0) + (if l.step2 then 2 else 0) + (if l.step4 then 4 else 0)

/-- The base: the step table's entry of the step (R76). -/
def expressionBase (t : Settings) (l : InputLevels) : Nat :=
  t.stepTable[l.step]

/-- The target: the base, or under an open SWELL the larger of it and the ceiling (R76). -/
def expressionTarget (t : Settings) (l : InputLevels) : Nat :=
  if l.swell then max (expressionBase t l) t.swellCeiling else expressionBase t l

/-- The swelled flag after the second stage (R77). -/
def nextSwelled (base : Nat) (x : HalfExpression) : Bool :=
  if x.shade ≤ base then false else x.levels.swell || x.swelled

/-- The rate of the third stage (R78). -/
def expressionRate (t : Settings) (x : HalfExpression) (target : Nat) (swelled : Bool) : Nat :=
  if x.shade < target then
    if x.levels.swell then if x.levels.quick then t.quickRate else t.slowRate else t.stepRate
  else if target < x.shade then
    if x.levels.quick then t.quickRate else if swelled then t.slowRate else t.stepRate
  else 0

/-- The shade moved toward the target by a rate, or by the distance if that is smaller (R79). -/
def glide (shade target rate : Nat) : Nat :=
  if shade < target then min (shade + rate) target else max (shade - rate) target

/-- The first four stages of the tick for a half (R76 to R79). -/
def tickHalf (t : Settings) (x : HalfExpression) : HalfExpression :=
  let base := expressionBase t x.levels
  let target := expressionTarget t x.levels
  let swelled := nextSwelled base x
  { x with shade := glide x.shade target (expressionRate t x target swelled), swelled := swelled }

/-- The rail stage, for a half whose mode is AUTO (R86). -/
def autoRailStage (h : Half) (p : Part) : Part :=
  if p.settings.railMode.get h = .auto then railStage h p else p

/-- The expression tick in RUNNING: both halves move, then the rail stages, the bass half before the treble (R75). -/
def expressionTicks (p : Part) : Part :=
  let moved :=
    { p with expression := { p.expression with
        halves :=
          { bass := tickHalf p.settings p.expression.halves.bass
            treble := tickHalf p.settings p.expression.halves.treble } } }
  autoRailStage .treble (autoRailStage .bass moved)

end Sys2Proof.Machine
end

