-- ==== Sys2Proof/Machine/Items.lean ====
section
/-! DEFINITION. The setting items of section 11.3: their codes, the sizes of their values, and the command that writes
each. -/

namespace Sys2Proof.Machine

/-- The items, in the order of their codes (section 11.3). -/
inductive Item where
  | ringLow | trimLow | trimHigh | starveHold | trackMap | splitKey | onRows | offRows | cueSlot | stepTable
  | stepRate | slowRate | quickRate | swellCeiling | accentLift | railOn | railOff | railMode | railScale
  | voicing | kickMin | kickMax | budgetUnits | damperCost | railCost | waitLimit | holdLimit | repeatGuard
  | pwmBase | heatSoft | heatHard | damperKick | damperKickDuty | damperHoldFull | damperHoldPart
  | damperSettle | railKick | railKickDuty | railHold | railSettle | pedalLead | linkSilence | noticeMask
  | lineFaultMask | lineRestingMask
  deriving DecidableEq, Repr

/-- The code of an item (section 11.3). -/
def Item.code : Item → Nat
  | .ringLow => 0x01
  | .trimLow => 0x08
  | .trimHigh => 0x09
  | .starveHold => 0x0A
  | .trackMap => 0x10
  | .splitKey => 0x11
  | .onRows => 0x12
  | .offRows => 0x13
  | .cueSlot => 0x18
  | .stepTable => 0x20
  | .stepRate => 0x21
  | .slowRate => 0x22
  | .quickRate => 0x23
  | .swellCeiling => 0x24
  | .accentLift => 0x25
  | .railOn => 0x26
  | .railOff => 0x27
  | .railMode => 0x28
  | .railScale => 0x29
  | .voicing => 0x30
  | .kickMin => 0x31
  | .kickMax => 0x32
  | .budgetUnits => 0x38
  | .damperCost => 0x39
  | .railCost => 0x3A
  | .waitLimit => 0x3B
  | .holdLimit => 0x40
  | .repeatGuard => 0x41
  | .pwmBase => 0x42
  | .heatSoft => 0x43
  | .heatHard => 0x44
  | .damperKick => 0x48
  | .damperKickDuty => 0x49
  | .damperHoldFull => 0x4A
  | .damperHoldPart => 0x4B
  | .damperSettle => 0x4C
  | .railKick => 0x4D
  | .railKickDuty => 0x4E
  | .railHold => 0x4F
  | .railSettle => 0x50
  | .pedalLead => 0x51
  | .linkSilence => 0x58
  | .noticeMask => 0x60
  | .lineFaultMask => 0x61
  | .lineRestingMask => 0x62

/-- The item of a code; a code not in the table has none (R172). -/
def Item.ofCode : Nat → Option Item
  | 0x01 => some .ringLow
  | 0x08 => some .trimLow
  | 0x09 => some .trimHigh
  | 0x0A => some .starveHold
  | 0x10 => some .trackMap
  | 0x11 => some .splitKey
  | 0x12 => some .onRows
  | 0x13 => some .offRows
  | 0x18 => some .cueSlot
  | 0x20 => some .stepTable
  | 0x21 => some .stepRate
  | 0x22 => some .slowRate
  | 0x23 => some .quickRate
  | 0x24 => some .swellCeiling
  | 0x25 => some .accentLift
  | 0x26 => some .railOn
  | 0x27 => some .railOff
  | 0x28 => some .railMode
  | 0x29 => some .railScale
  | 0x30 => some .voicing
  | 0x31 => some .kickMin
  | 0x32 => some .kickMax
  | 0x38 => some .budgetUnits
  | 0x39 => some .damperCost
  | 0x3A => some .railCost
  | 0x3B => some .waitLimit
  | 0x40 => some .holdLimit
  | 0x41 => some .repeatGuard
  | 0x42 => some .pwmBase
  | 0x43 => some .heatSoft
  | 0x44 => some .heatHard
  | 0x48 => some .damperKick
  | 0x49 => some .damperKickDuty
  | 0x4A => some .damperHoldFull
  | 0x4B => some .damperHoldPart
  | 0x4C => some .damperSettle
  | 0x4D => some .railKick
  | 0x4E => some .railKickDuty
  | 0x4F => some .railHold
  | 0x50 => some .railSettle
  | 0x51 => some .pedalLead
  | 0x58 => some .linkSilence
  | 0x60 => some .noticeMask
  | 0x61 => some .lineFaultMask
  | 0x62 => some .lineRestingMask
  | _ => none

/-- The size of an item's value in bytes (section 11.3): a scalar has 2. -/
def Item.size : Item → Nat
  | .trackMap => 4
  | .voicing => 8
  | .cueSlot => 33
  | .ringLow | .trimLow | .trimHigh | .starveHold | .splitKey | .onRows | .offRows | .stepTable | .stepRate
  | .slowRate | .quickRate | .swellCeiling | .accentLift | .railOn | .railOff | .railMode | .railScale
  | .kickMin | .kickMax | .budgetUnits | .damperCost | .railCost | .waitLimit | .holdLimit | .repeatGuard
  | .pwmBase | .heatSoft | .heatHard | .damperKick | .damperKickDuty | .damperHoldFull | .damperHoldPart
  | .damperSettle | .railKick | .railKickDuty | .railHold | .railSettle | .pedalLead | .linkSilence
  | .noticeMask | .lineFaultMask | .lineRestingMask => 2

/-- The command that writes an item: its own row of the table, or WRITE_SETTING for an item that has none. -/
def Item.writer : Item → Instr
  | .ringLow => .writeRingLow
  | .trackMap => .writeTrackMap
  | .onRows => .writeOnRows
  | .offRows => .writeOffRows
  | .cueSlot => .writeCueSlot
  | .railMode => .writeRailMode
  | .repeatGuard => .writeRepeatGuard
  | .pwmBase => .writePwmBase
  | .heatSoft => .writeHeatSoft
  | .heatHard => .writeHeatHard
  | .damperHoldFull => .writeDamperHoldFull
  | .damperHoldPart => .writeDamperHoldPart
  | .railHold => .writeRailHold
  | .pedalLead => .writePedalLead
  | .noticeMask => .writeNoticeMask
  | .lineFaultMask => .writeLineFaultMask
  | .lineRestingMask => .writeLineRestingMask
  | .trimLow | .trimHigh | .starveHold | .splitKey | .stepTable | .stepRate | .slowRate | .quickRate
  | .swellCeiling | .accentLift | .railOn | .railOff | .railScale | .voicing | .kickMin | .kickMax
  | .budgetUnits | .damperCost | .railCost | .waitLimit | .holdLimit | .damperKick | .damperKickDuty
  | .damperSettle | .railKick | .railKickDuty | .railSettle | .linkSilence => .writeSetting

end Sys2Proof.Machine
end

