-- ==== Sys2Proof/Machine/Operands.lean ====
section
/-! DEFINITION. The operand forms: the fields that a request's payload carries, read from their bytes (section 10.6 and
section 11.3), and the values of the indexed setting items. -/

namespace Sys2Proof.Machine

/-! ### Transport requests -/

/-- The five fields of LOAD ROLL, in the order of the table of section 2.4. -/
structure LoadRequest where
  startRow : Nat
  endRow : Nat
  pitch : Nat
  tempo : Nat
  buildUp : Nat
  deriving DecidableEq, Repr

/-- Reads a LOAD ROLL payload. -/
def LoadRequest.read (bs : List Byte) : LoadRequest :=
  { startRow := fieldAt bs 0 4
    endRow := fieldAt bs 4 4
    pitch := fieldAt bs 8 2
    tempo := fieldAt bs 10 2
    buildUp := fieldAt bs 12 2 }

/-- Are the fields legal (R24)? -/
def LoadRequest.legal (r : LoadRequest) : Bool :=
  decide (r.startRow ≤ Config.lastRow)
    && (r.endRow == 0 || decide (r.startRow < r.endRow ∧ r.endRow ≤ Config.lastRow))
    && (r.pitch == 0 || decide (100 ≤ r.pitch ∧ r.pitch ≤ 600))
    && decide (10 ≤ r.tempo ∧ r.tempo ≤ 200) && decide (r.buildUp ≤ 2000)

/-- SET TEMPO: a tempo and a trim, each absent where its presence flag is clear (section 10.5). -/
structure TempoRequest where
  tempo : Option Nat
  trim : Option Nat
  deriving DecidableEq, Repr

/-- A value that a presence flag admits. -/
def presentIf (flag : Bool) (value : Nat) : Option Nat :=
  if flag then some value else none

/-- Reads a SET TEMPO payload: flags with bit 0 for the tempo and bit 1 for the trim, other bits ignored, then the
two values (section 10.5). -/
def TempoRequest.read (bs : List Byte) : TempoRequest :=
  { tempo := presentIf ((byteAt bs 0).testBit 0) (fieldAt bs 1 2)
    trim := presentIf ((byteAt bs 0).testBit 1) (fieldAt bs 3 2) }

/-- The head of FEED ROWS and the bytes of its records (section 10.6). -/
structure FeedRequest where
  firstRow : Nat
  count : Nat
  records : List Byte
  deriving DecidableEq, Repr

/-- Reads a FEED ROWS payload. -/
def FeedRequest.read (bs : List Byte) : FeedRequest :=
  { firstRow := fieldAt bs 0 4, count := fieldAt bs 4 2, records := bs.drop 6 }

/-- Are the head fields legal (R5)? -/
def FeedRequest.legal (r : FeedRequest) : Bool :=
  decide (r.firstRow ≤ Config.lastRow) && decide (1 ≤ r.count ∧ r.count ≤ 512)
    && decide (r.firstRow + r.count ≤ Config.lastRow + 1)

/-! ### Strikes -/

/-- The three fields of STRIKE KEY (section 10.6). -/
structure StrikeRequest where
  key : Nat
  shade : Nat
  holdTime : Nat
  deriving DecidableEq, Repr

/-- Reads a STRIKE KEY payload. -/
def StrikeRequest.read (bs : List Byte) : StrikeRequest :=
  { key := byteAt bs 0, shade := fieldAt bs 1 2, holdTime := fieldAt bs 3 2 }

/-- The fields of PLAY PATTERN (section 10.6). -/
structure PatternRequest where
  key : Nat
  stepTime : Nat
  repeatCount : Nat
  stepCount : Nat
  steps : List Nat
  deriving DecidableEq, Repr

/-- The 2-byte values of a list of bytes, in order. -/
def pairsOf : List Byte → List Nat
  | low :: high :: rest => (low.toNat + 256 * high.toNat) :: pairsOf rest
  | _ => []

/-- Reads a PLAY PATTERN payload. -/
def PatternRequest.read (bs : List Byte) : PatternRequest :=
  { key := byteAt bs 0
    stepTime := fieldAt bs 1 2
    repeatCount := byteAt bs 3
    stepCount := byteAt bs 4
    steps := pairsOf (bs.drop 5) }

/-- A step as it is carried: 0xFFFF stands for REST (R104). -/
def stepOf (code : Nat) : Option Nat :=
  if code = 65535 then none else some code

/-- Is the length of the payload the one its step count asks for (R104)? -/
def PatternRequest.fits (r : PatternRequest) (bs : List Byte) : Bool :=
  decide (5 ≤ bs.length) && bs.length == 5 + 2 * r.stepCount

/-- Are the fields legal (R104)? The key is checked where it is turned into a key number. -/
def PatternRequest.legal (r : PatternRequest) : Bool :=
  decide (20 ≤ r.stepTime ∧ r.stepTime ≤ 2000) && decide (1 ≤ r.stepCount ∧ r.stepCount ≤ 16)
    && r.steps.all fun code => decide (code ≤ 1023) || code == 65535

/-! ### Values of indexed items -/

/-- Is the function an expression role (section 3.1)? -/
def TrackFunction.isExpression : TrackFunction → Bool
  | .step1 | .step2 | .step4 | .swell | .quick | .accent => true
  | .none | .key | .damperLift | .damperFeather | .soft => false

/-- A number below a bound, or `none`. -/
def below (bound n : Nat) : Option (Fin bound) :=
  if h : n < bound then some ⟨n, h⟩ else none

/-- The half that an entry holds: the half named where the function is an expression role, and BASS otherwise (R37);
`none` for a code that is no half where the function is an expression role (R40). -/
def entryHalf (f : TrackFunction) (code : Nat) : Option Half :=
  if f.isExpression then Half.ofCode code else some .bass

/-- The key that an entry holds: the key named where the function is KEY, and 0 otherwise (R37); `none` for a number
that is no key where the function is KEY (R40). -/
def entryKey (f : TrackFunction) (n : Nat) : Option KeyNo :=
  if f = .key then below 88 n else some 0

/-- Reads a TrackMap value: function, key, half and source track (section 11.3), with unused fields as R37 holds
them. `none` is a value out of range (R40). -/
def TrackEntry.read (bs : List Byte) : Option TrackEntry :=
  match TrackFunction.ofCode (byteAt bs 0) with
  | none => none
  | some f =>
    match entryKey f (byteAt bs 1), entryHalf f (byteAt bs 2), below 112 (byteAt bs 3) with
    | some key, some half, some source => some { function := f, key := key, half := half, source := source }
    | _, _, _ => none

/-- Reads a Voicing value (section 11.3); `none` is a value with a field out of range (R99). -/
def Voicing.read (bs : List Byte) : Option Voicing :=
  let v : Voicing :=
    { floor := fieldAt bs 0 2
      span := fieldAt bs 2 2
      bend := byteAt bs 4
      trim := signedByte (byteAt bs 5)
      kickDuty := byteAt bs 6
      holdDuty := byteAt bs 7 }
  if (4 ≤ v.floor ∧ v.floor ≤ 400) ∧ v.span ≤ 600 ∧ v.bend ≤ 3 ∧ (-64 ≤ v.trim ∧ v.trim ≤ 63)
      ∧ (1 ≤ v.kickDuty ∧ v.kickDuty ≤ 32) ∧ (1 ≤ v.holdDuty ∧ v.holdDuty ≤ 32)
  then some v else none

/-- The track set of 14 bytes: track t is bit t mod 8 of byte t divided by 8 (section 11.3). -/
def trackSetAt (bs : List Byte) (i : Nat) : TrackSet :=
  BitVec.ofNat 112 (fieldAt bs i 14)

/-- The parameter that a slot stores: that of TEMPO and TRIM as sent, and 0 for the others (R59). -/
def CueAction.stored (a : CueAction) (parameter : Nat) : Nat :=
  match a with
  | .tempo | .trim => parameter
  | .notice | .pause | .endRoll => 0

/-- Is the parameter legal at the write (R59)? -/
def CueAction.admits (a : CueAction) (parameter : Nat) : Bool :=
  match a with
  | .tempo => decide (10 ≤ parameter ∧ parameter ≤ 200)
  | .notice | .pause | .endRoll | .trim => true

/-- Reads a CueSlot value (section 11.3); `none` is a value that fails one of the RANGE checks of R59. -/
def CueSlot.read (bs : List Byte) : Option CueSlot :=
  match CueAction.ofCode (byteAt bs 29) with
  | none => none
  | some action =>
    let parameter := fieldAt bs 30 2
    if (1 ≤ byteAt bs 28 ∧ byteAt bs 28 ≤ 16) ∧ byteAt bs 32 ≤ 1 ∧ action.admits parameter = true then
      some
        { pattern := trackSetAt bs 0
          mask := trackSetAt bs 14
          holdRows := byteAt bs 28
          action := action
          parameter := action.stored parameter
          once := byteAt bs 32 == 1 }
    else none

/-! ### Bits of the status chain -/

/-- The value of a line's pair of chain bits, the first bit of the pair the less significant (R144). -/
def chainPair (bits : BitVec 182) (line : Nat) : Nat :=
  (bits.getLsbD (2 * line)).toNat + 2 * (bits.getLsbD (2 * line + 1)).toNat

end Sys2Proof.Machine
end

