-- ==== Sys2Proof/Machine/Debounce.lean ====
section
/-! DEFINITION. The debounce state machine of a track (section 3.4), shared by the Track Decoder and the lead decoder,
and the levels of the map's targets (R39). -/

namespace Sys2Proof.Machine

/-- The event of a track on a row (R48): an onset carries the recorded row. -/
inductive TrackEvent where
  | none
  | onset (recordedRow : Nat)
  | offset
  deriving DecidableEq, Repr

/-- A track's move on a row: its state, its event, and whether a speck or a patch is counted (R46, R47, R49). -/
structure TrackMove where
  state : Debounce
  event : TrackEvent
  speck : Bool
  patch : Bool
  deriving DecidableEq, Repr

/-- A move that counts nothing. -/
def TrackMove.to (state : Debounce) (event : TrackEvent) : TrackMove :=
  { state := state, event := event, speck := false, patch := false }

/-- The track sees a hole in this row (R46). -/
def seeHole (onRows row : Nat) : Debounce → TrackMove
  | .closed => if onRows = 1 then .to .opened (.onset row) else .to (.opening 1 row) .none
  | .opening count first =>
    if count + 1 = onRows then .to .opened (.onset first) else .to (.opening (count + 1) first) .none
  | .opened => .to .opened .none
  | .closing _ => { state := .opened, event := .none, speck := false, patch := true }

/-- The track sees no hole (R47). -/
def seeNoHole (offRows : Nat) : Debounce → TrackMove
  | .closed => .to .closed .none
  | .opening _ _ => { state := .closed, event := .none, speck := true, patch := false }
  | .opened => if offRows = 1 then .to .closed .offset else .to (.closing 1) .none
  | .closing count =>
    if count + 1 = offRows then .to .closed .offset else .to (.closing (count + 1)) .none

/-- A track's move on the raw hole of its source track (R43, R46, R47). -/
def moveTrack (onRows offRows row : Nat) (hole : Bool) (d : Debounce) : TrackMove :=
  if hole then seeHole onRows row d else seeNoHole offRows d

/-- The decoded level, true for open (R48). -/
def Debounce.level : Debounce → Bool
  | .opened | .closing _ => true
  | .closed | .opening _ _ => false

/-- What an accepted write of OnRows does to a track: OPENING becomes CLOSED (R50). -/
def Debounce.dropOpening : Debounce → Debounce
  | .opening _ _ => .closed
  | d => d

/-- What an accepted write of OffRows does to a track: CLOSING becomes OPEN (R50). -/
def Debounce.dropClosing : Debounce → Debounce
  | .closing _ => .opened
  | d => d

/-- The raw hole of a track in a row. -/
def holeAt (holes : TrackSet) (t : TrackNo) : Bool :=
  holes.getLsbD t.val

/-- Do two entries address the same target (R37, R38)? NONE has no target. -/
def TrackEntry.sameTarget (a b : TrackEntry) : Bool :=
  a.function == b.function && a.function != .none
    && (a.function != .key || a.key == b.key)
    && (!a.function.isExpression || a.half == b.half)

/-- Every track, in ascending order. -/
def allTracks : List TrackNo :=
  List.finRange 112

/-- The track whose entry has this function, and this half if the function is an expression role (R37, R39). -/
def Settings.trackOf (s : Settings) (f : TrackFunction) (h : Half) : Option TrackNo :=
  allTracks.find? fun t => s.trackMap[t].function == f && (!f.isExpression || s.trackMap[t].half == h)

/-- The level of a target: that of the track that addresses it, and closed if none does (R39). -/
def targetLevel (s : Settings) (states : Vector Debounce 112) (f : TrackFunction) (h : Half) : Bool :=
  match s.trackOf f h with
  | some t => states[t].level
  | none => false

/-- The six levels of a half's roles (R57). -/
def halfLevels (s : Settings) (states : Vector Debounce 112) (h : Half) : InputLevels :=
  { step1 := targetLevel s states .step1 h
    step2 := targetLevel s states .step2 h
    step4 := targetLevel s states .step4 h
    swell := targetLevel s states .swell h
    quick := targetLevel s states .quick h
    accent := targetLevel s states .accent h }

/-- The half with its input levels replaced (R72). -/
def HalfExpression.withLevels (x : HalfExpression) (l : InputLevels) : HalfExpression :=
  { x with levels := l }

/-- A level refresh (R57): the expression roles of both halves and the three pedal roles, in one piece. It moves no
shade and no pedal. -/
def levelRefresh (p : Part) : Part :=
  { p with
    expression := { p.expression with
      halves :=
        { bass := p.expression.halves.bass.withLevels (halfLevels p.settings p.tracks.states .bass)
          treble := p.expression.halves.treble.withLevels (halfLevels p.settings p.tracks.states .treble) } }
    pedals := { p.pedals with
      liftLevel := targetLevel p.settings p.tracks.states .damperLift .bass
      featherLevel := targetLevel p.settings p.tracks.states .damperFeather .bass
      softLevel := targetLevel p.settings p.tracks.states .soft .bass } }

/-- Every track returns to CLOSED, without any event or count (R56). -/
def closeTracks (p : Part) : Part :=
  { p with tracks := { p.tracks with states := allClosed } }

end Sys2Proof.Machine
end

