-- ==== Sys2Proof/Machine/Lead.lean ====
section
/-! DEFINITION. The lead decoder of the Pedal Unit (section 9.10). -/

namespace Sys2Proof.Machine

/-- The feed head row: N while the taken mark is clear and N + 1 while it is set (R19). -/
def FeedClock.headRow (f : FeedClock) : Nat :=
  if f.taken then f.row + 1 else f.row

/-- The part with its lead decoder replaced. -/
def Part.setLead (p : Part) (l : LeadDecoder) : Part :=
  { p with pedals := { p.pedals with lead := l } }

/-- The lead decoder is reset: both lead tracks CLOSED and L at the head row (R159). -/
def resetLead (p : Part) : Part :=
  p.setLead (LeadDecoder.atRow p.feed.headRow)

/-- A lead track's move on a row (R159): it reads the raw hole of its entry's source track, and a role that no entry
addresses stays CLOSED. -/
def moveLead (t : Settings) (f : TrackFunction) (row : StoredRow) (d : Debounce) : TrackMove :=
  match t.trackOf f .bass with
  | some track => moveTrack t.onRows t.offRows row.number (holeAt row.holes t.trackMap[track].source) d
  | none => .to .closed .none

/-- Is the event an onset? -/
def TrackEvent.isOnset : TrackEvent → Bool
  | .onset _ => true
  | .none | .offset => false

/-- A lead onset (R160): a damper that is LOWERED or DROPPING, its faulted mark clear, is lifted; in any other state
the onset is ignored. -/
def leadOnset (p : Part) : Part :=
  let r := p.pedals.damper
  if (r.state = .lowered ∨ r.state = .dropping) ∧ r.faulted = false then
    liftPedal .damper (if p.pedals.lead.lift.level then .full else .part) p
  else p

/-- The lead decoder examines a row (R159, R160): both lead tracks move, L becomes the row after it, and an onset of
either is a lead onset. -/
def examineRow (row : StoredRow) (p : Part) : Part :=
  let lift := moveLead p.settings .damperLift row p.pedals.lead.lift
  let feather := moveLead p.settings .damperFeather row p.pedals.lead.feather
  let moved := p.setLead { next := row.number + 1, lift := lift.state, feather := feather.state }
  if lift.event.isOnset || feather.event.isOnset then leadOnset moved else moved

/-- The lead decoder examines the rows of a list from L up to a last row, and stops at the first it does not find
(R159). -/
def examineFrom (lastRow : Nat) : List StoredRow → Part → Part
  | [], p => p
  | row :: rest, p =>
    if row.number < p.pedals.lead.next then examineFrom lastRow rest p
    else if row.number = p.pedals.lead.next ∧ row.number ≤ lastRow then examineFrom lastRow rest (examineRow row p)
    else p

/-- The lead decoder examines every held row from L up to the head row plus PedalLead; with PedalLead 0 it examines
nothing (R159). -/
def examineAhead (p : Part) : Part :=
  if p.settings.pedalLead = 0 then p
  else examineFrom (p.feed.headRow + p.settings.pedalLead) p.ring.rows p

/-- Before a take of a row: with PedalLead above 0 the lead decoder examines it if it has not (R159, R51). -/
def examineBeforeTake (row : StoredRow) (p : Part) : Part :=
  if p.settings.pedalLead ≠ 0 ∧ p.pedals.lead.next ≤ row.number then examineRow row p else p

/-- After a take: the lead decoder examines ahead, or with PedalLead 0 its L becomes the head row (R159). -/
def examineAfterTake (p : Part) : Part :=
  if p.settings.pedalLead = 0 then p.setLead { p.pedals.lead with next := p.feed.headRow } else examineAhead p

end Sys2Proof.Machine
end

