-- ==== Sys2Proof/Machine/Lines.lean ====
section
/-! DEFINITION. The key lines of the Drive Sequencer: heat, plans and note-offs, holds, guards, releases and faults
(chapter 8). -/

namespace Sys2Proof.Machine

/-! ### Heat and resting -/

/-- H gains an amount, held at 65535, and a line that reaches HeatHard becomes resting, with LINE_RESTING raised if
it was not (R141, R143). -/
def gainHeat (k : KeyNo) (amount : Nat) (p : Part) : Part :=
  let l := p.key k
  let heat := min (l.heat + amount) 65535
  let hot := decide (p.settings.heatHard ≤ heat)
  let gained := p.setKey k { l with heat := heat, resting := l.resting || hot }
  if hot && !l.resting then raiseLineResting k gained else gained

/-- The heat of a kick of this many kick steps (R141). -/
def kickHeat (steps duty : Nat) : Nat :=
  steps * duty / 2

/-- The whole kick steps run of the plan in hand (R127, R132). -/
def kickStepsRun (plan : Plan) (l : KeyLine) (now : Time) : Nat :=
  min plan.kick (now - l.kickStarted)

/-! ### Into RELEASE and out of it -/

/-- A key line enters RELEASE with its drive off and its guard timer at 0; the plan in hand and its short flag are
given up (R129, R132, R134, R138). -/
def enterRelease (k : KeyNo) (p : Part) : Part :=
  let l := p.key k
  p.setKey k
    { l with
      state := .release
      plan := none
      short := false
      holdDeadline := none
      guardStarted := p.now
      guardDone := false
      drive := l.drive.setDuty p.settings.pwmBase p.now none }

/-- The end-of-guard step (R136). -/
def endOfGuard (k : KeyNo) (p : Part) : Part :=
  let l := p.key k
  match l.pending with
  | none => p.setKey k { l with state := .idle, guardDone := false }
  | some plan =>
    if l.resting then p.setKey k { l with guardDone := true }
    else
      submitPlan plan
        (p.setKey k
          { l with state := .idle, guardDone := false, pending := none, queuedOrigin := some plan.origin })

/-- Does the line wait in RELEASE with its guard complete, a pending plan and its resting flag clear? It then takes
the end-of-guard step (R143). -/
def KeyLine.mayResume (l : KeyLine) : Bool :=
  l.state == .release && l.guardDone && !l.resting && l.pending.isSome

/-- A guard that is under way (R135). -/
def KeyLine.guarding (l : KeyLine) : Bool :=
  l.state == .release && !l.guardDone

/-- Every line that may resume takes its end-of-guard step, the lines in any order (log entry 1). -/
def resumeLines (p : Part) : Part :=
  inAnyOrder (allKeys.filter fun k => (p.key k).mayResume) endOfGuard p

/-! ### Plans reaching a line (R129) -/

/-- A pending plan is held, and one it replaces ends MERGED with a waited time of 0 (R129, R137). -/
def holdPending (plan : Plan) (p : Part) : Part :=
  let l := p.key plan.line
  let held := p.setKey plan.line { l with pending := some plan }
  match l.pending with
  | none => held
  | some old => endPlan old .merged 0 held

/-- The Strike Planner hands a key line a new plan (R129). A FAULTED line is handed none. -/
def newPlan (plan : Plan) (p : Part) : Part :=
  let k := plan.line
  match (p.key k).state with
  | .idle => submitPlan plan (p.setKey k { p.key k with queuedOrigin := some plan.origin })
  | .queued => mergePlan plan p
  | .kick | .release => holdPending plan p
  | .hold => holdPending plan (enterRelease k p)
  | .faulted => p

/-! ### Note-offs (R133) -/

/-- Is the plan one of the roll's? -/
def Plan.ofRoll (plan : Plan) : Bool :=
  plan.origin == .roll

/-- A note-off for a key acts on the line's newest ROLL plan (R133). -/
def noteOff (k : KeyNo) (p : Part) : Part :=
  let l := p.key k
  let shortenPending := fun plan : Plan => p.setKey k { l with pending := some (plan.withShort true) }
  match l.state with
  | .idle | .faulted => p
  | .queued => if l.queuedOrigin = some .roll then shortenEntry k p else p
  | .kick =>
    match l.pending.filter Plan.ofRoll, l.plan.filter Plan.ofRoll with
    | some plan, _ => shortenPending plan
    | none, some _ => p.setKey k { l with short := true }
    | none, none => p
  | .hold => if (l.plan.filter Plan.ofRoll).isSome then enterRelease k p else p
  | .release =>
    match l.pending.filter Plan.ofRoll with
    | some plan => shortenPending plan
    | none => p

/-! ### The end of a kick and of a hold -/

/-- A key line enters HOLD (R132): at the plan's hold duty, until its hold time or HoldLimit. -/
def enterHold (k : KeyNo) (plan : Plan) (p : Part) : Part :=
  let l := p.key k
  p.setKey k
    { l with
      state := .hold
      holdStarted := p.now
      holdGains := 0
      holdDeadline := some (p.now + msTime (plan.holdTime.getD (1000 * p.settings.holdLimit)))
      drive := l.drive.setDuty p.settings.pwmBase p.now (some plan.holdDuty) }

/-- A kick runs out (R132): H gains, the units return, and the line goes to RELEASE if the strike is short or a plan
is pending, and to HOLD if not. -/
def kickRunsOut (k : KeyNo) (p : Part) : Part :=
  match (p.key k).state, (p.key k).plan with
  | .kick, some plan =>
    let q := reportEnd (keyLineNo k) (gainHeat k (kickHeat plan.kick plan.kickDuty) p)
    if (q.key k).short || (q.key k).pending.isSome then enterRelease k q else enterHold k plan q
  | _, _ => p

/-- A whole millisecond of a hold has passed (R141). -/
def holdGains (k : KeyNo) (p : Part) : Part :=
  match (p.key k).state, (p.key k).plan with
  | .hold, some plan =>
    gainHeat k (plan.holdDuty / 4) (p.setKey k { p.key k with holdGains := (p.key k).holdGains + 1 })
  | _, _ => p

/-- A ROLL hold is cut (R134). -/
def countHoldCut (p : Part) : Part :=
  raise .holdCut { p with drives := { p.drives with holdCuts := bump p.drives.holdCuts } }

/-- A hold reaches its deadline (R134). -/
def holdEnds (k : KeyNo) (p : Part) : Part :=
  let l := p.key k
  if l.state = .hold then
    if (l.plan.filter Plan.ofRoll).isSome then countHoldCut (enterRelease k p) else enterRelease k p
  else p

/-- A guard ends (R135, R136). -/
def guardEnds (k : KeyNo) (p : Part) : Part :=
  if (p.key k).guarding then endOfGuard k p else p

/-! ### The release of the key lines (R138, R122) -/

/-- A kick is cut (R132): H gains the heat of the kick steps run, and the line's units return. The granting pass is
the caller's. -/
def cutKick (k : KeyNo) (p : Part) : Part :=
  match (p.key k).plan with
  | some plan =>
    (gainHeat k (kickHeat (kickStepsRun plan (p.key k) p.now) plan.kickDuty) p).setPlace (keyLineNo k) none
  | none => p.setPlace (keyLineNo k) none

/-- One key line is released, according to its state (R138). A QUEUED line's entry has been flushed, and it is IDLE
already. `restore` also takes a FAULTED line, as a soft reset does (R140). -/
def releaseKey (restore : Bool) (k : KeyNo) (p : Part) : Part :=
  match (p.key k).state with
  | .kick => enterRelease k (cutKick k p)
  | .hold => enterRelease k p
  | .queued => unqueueKey k p
  | .faulted =>
    if restore then
      let q := enterRelease k p
      q.setKey k { q.key k with fault := .none }
    else p
  | .idle | .release => p

/-- A pending plan ends in an outcome with a waited time of 0 and its place is emptied (R137). -/
def endPending (k : KeyNo) (outcome : StrikeOutcome) (p : Part) : Part :=
  match (p.key k).pending with
  | none => p
  | some plan => endPlan plan outcome 0 (p.setKey k { p.key k with pending := none })

/-- A line in RELEASE whose guard was complete but kept a pending plan has nothing left to wait for once that plan
is flushed: it takes the end-of-guard step and is IDLE (R136, R138; log entry 12). -/
def endWait (k : KeyNo) (p : Part) : Part :=
  if (p.key k).state = .release ∧ (p.key k).guardDone ∧ (p.key k).pending = none then endOfGuard k p else p

/-- Every pending plan ends FLUSHED, the lines in any order (R122, R138; log entry 1). -/
def flushPending (p : Part) : Part :=
  inAnyOrder (allKeys.filter fun k => (p.key k).pending.isSome) (fun k q => endWait k (endPending k .flushed q)) p

/-- The release of the key lines (R138) with the arbiter's flush (R122): the key entries leave, the kicks are cut and
the holds end, the pending plans end, and one granting pass is made after all of it. The FLUSHED records of the entries
are filed before those of the pending plans, between which neither rule fixes an order (DESIGN CHOICE, log entry 35). -/
def releaseKeyLines (restore : Bool) (p : Part) : Part :=
  grantingPass (flushPending (allKeys.foldl (fun q k => releaseKey restore k q) (flushEntries p)))

/-- The starve-hold expiry lets the held keys go, with no hold cut counted (R139). -/
def releaseHolds (p : Part) : Part :=
  allKeys.foldl (fun q k => if (q.key k).state = .hold then enterRelease k q else q) p

/-! ### Heat ticks and threshold writes -/

/-- H after a heat tick: it falls by H divided by 64, rounded up (R142). -/
def cooled (heat : Nat) : Nat :=
  heat - (heat + 63) / 64

/-- A heat tick on one line: the fall, and the clearing of the resting flag below HeatSoft (R142, R143). -/
def coolKey (k : KeyNo) (p : Part) : Part :=
  let l := p.key k
  p.setKey k
    { l with
      heat := cooled l.heat
      resting := l.resting && !decide (cooled l.heat < p.settings.heatSoft) }

/-- A heat tick (R142), after which the lines that may resume do so (R143). -/
def heatTicks (p : Part) : Part :=
  resumeLines (allKeys.foldl (fun q k => coolKey k q) p)

/-- A threshold write brings one line's resting flag up to date (R143): set at or above HeatHard, cleared below
HeatSoft, kept between the two. -/
def updateResting (k : KeyNo) (p : Part) : Part :=
  let l := p.key k
  if p.settings.heatHard ≤ l.heat then
    let set := p.setKey k { l with resting := true }
    if l.resting then set else raiseLineResting k set
  else if l.heat < p.settings.heatSoft then p.setKey k { l with resting := false }
  else p

/-- The entry of a QUEUED line that rests leaves RESTING, with the waited time up to now, and the line becomes IDLE
(R143). The granting pass is the caller's, so that no resting line is granted before its entry is removed (R130; log
entry 28). -/
def removeRestingEntry (e : WaitEntry) (p : Part) : Part :=
  match e.request with
  | .strike plan =>
    if (p.key plan.line).resting then
      endPlan (plan.withShort e.short) .resting (wholeMs e.entered p.now)
        (unqueueKey plan.line (p.dropEntry e.line))
    else p
  | .lift _ => p

/-- A write of HeatSoft or HeatHard brings every resting flag up to date, takes out the entries of the lines that
now rest, makes a granting pass, and lets the lines resume that no longer rest (R143). Where one write puts several
QUEUED lines to rest, their entries leave, and their RESTING records are filed, in the order of the wait list, since no
rule gives one (DESIGN CHOICE, log entry 28). -/
def updateAllResting (p : Part) : Part :=
  let flagged := allKeys.foldl (fun q k => updateResting k q) p
  resumeLines (grantingPass (flagged.arbiter.wait.foldl (fun q e => removeRestingEntry e q) flagged))

/-- A write of RepeatGuard ends every guard whose timer stands at or beyond the new value (R135), the lines in any
order (log entry 1). -/
def endElapsedGuards (p : Part) : Part :=
  inAnyOrder
    (allKeys.filter fun k =>
      (p.key k).guarding && decide (msTime p.settings.repeatGuard ≤ p.now - (p.key k).guardStarted))
    guardEnds p

/-! ### Faults (R145) -/

/-- A key line becomes FAULTED: its drive is off, and its plan in hand and short flag are discarded (R145). -/
def markFaulted (k : KeyNo) (kind : FaultKind) (p : Part) : Part :=
  let l := p.key k
  p.setKey k
    { l with
      state := .faulted
      queuedOrigin := none
      plan := none
      short := false
      holdDeadline := none
      guardDone := false
      drive := l.drive.setDuty p.settings.pwmBase p.now none
      fault := kind }

/-- The entry of a line, if it is a key's, leaves FAULTED and a granting pass follows (R121). -/
def faultEntry (k : KeyNo) (p : Part) : Part :=
  match p.entryOf (keyLineNo k) with
  | some e =>
    match e.request with
    | .strike plan => removeKeyEntry e plan .faulted (wholeMs e.entered p.now) p
    | .lift _ => p
  | none => p

/-- What a fault report cuts on a key line, by its state (R145). The pending plan is filed after the pass that the
returned units bring (log entry 17). -/
def faultCuts (k : KeyNo) (p : Part) : Part :=
  match (p.key k).state with
  | .queued => faultEntry k p
  | .kick => endPending k .faulted (grantingPass (cutKick k p))
  | .release => endPending k .faulted p
  | .idle | .hold | .faulted => p

/-- A fault report for a key line that is not FAULTED (R145); one already FAULTED keeps its first kind. -/
def faultKey (k : KeyNo) (kind : FaultKind) (p : Part) : Part :=
  if (p.key k).state = .faulted then p
  else raiseLineFault (keyLineNo k) (markFaulted k kind (faultCuts k p))

/-- An admitted RESTORE LINE on a key line (R147): it enters RELEASE with its fault cleared. -/
def restoreKey (k : KeyNo) (p : Part) : Part :=
  let q := enterRelease k p
  q.setKey k { q.key k with fault := .none }

end Sys2Proof.Machine
end

