-- ==== Sys2Proof/Machine/Planner.lean ====
section
/-! DEFINITION. The Strike Planner: the kick computation stage by stage, plans, drops and the pattern player
(chapter 6). -/

namespace Sys2Proof.Machine

/-! ### The kick computation (section 6.3) -/

/-- Stage 1, the accented shade e (R93). -/
def accentedShade (shade lift : Nat) (accent : Bool) : Nat :=
  if accent then min (shade + lift) 1023 else shade

/-- Stage 2, the trimmed shade x (R93). -/
def trimmedShade (e : Nat) (trim : Int) : Nat :=
  (max 0 (min 1023 ((e : Int) + trim))).toNat

/-- Stage 3, the shade bent along the key's curve (R94). -/
def bentShade (bend x : Nat) : Nat :=
  ((4 - bend) * x * 1023 + bend * x * x) / 4092

/-- Stage 4, the kick spread across the key's range (R94). -/
def spreadKick (floor span bent : Nat) : Nat :=
  floor + span * bent / 1023

/-- Stage 5, the kick scaled for a raised rail (R95). -/
def railedKick (raised : Bool) (scale kick : Nat) : Nat :=
  if raised then kick * scale / 1000 else kick

/-- The derate factor of stage 6, in thousandths (R96). At or above HeatHard the line rests and no plan is made, so
the stage is not reached there. -/
def derateFactor (heat soft hard : Nat) : Nat :=
  if heat ≤ soft then 1000 else 1000 - 500 * (heat - soft) / (hard - soft)

/-- Stage 7, the kick clamped to KickMin to KickMax (R96). -/
def clampedKick (low high kick : Nat) : Nat :=
  if kick < low then low else if high < kick then high else kick

/-- The kick of stages 2 to 6 (R93 to R96). -/
def shapedKick (v : Voicing) (raised : Bool) (scale factor e : Nat) : Nat :=
  railedKick raised scale (spreadKick v.floor v.span (bentShade v.bend (trimmedShade e v.trim))) * factor / 1000

/-! ### Plans and drops -/

/-- What an onset brings the planner (section 6.1). -/
structure Onset where
  key : KeyNo
  half : Half
  origin : Origin
  onsetRow : Option Nat
  shade : Nat
  accent : Bool
  holdTime : Option Nat
  deriving DecidableEq, Repr

/-- The half of a key, by SplitKey (R44). -/
def Settings.halfOf (t : Settings) (k : KeyNo) : Half :=
  if k.val < t.splitKey then .bass else .treble

/-- Does the planner count the half's rail as raised: RAISED or DROPPING (R95)? -/
def railCounts (h : Half) (p : Part) : Bool :=
  (p.pedal (railOf h)).state == .raised || (p.pedal (railOf h)).state == .dropping

/-- The cost of a kick duty: it divided by 8, rounded up (R97). -/
def costOf (duty : Nat) : Nat :=
  (duty + 7) / 8

/-- The priority of a plan (R97). -/
def priorityOf (origin : Origin) (accent : Bool) : Nat :=
  match origin with
  | .roll => if accent then 1 else 2
  | .direct | .pattern => 3

/-- The plan of an onset that is not dropped (R93 to R97). -/
def planOf (o : Onset) (p : Part) : Plan :=
  let v := p.settings.voicing[o.key]
  let e := accentedShade o.shade p.settings.accentLift o.accent
  let factor := derateFactor (p.key o.key).heat p.settings.heatSoft p.settings.heatHard
  let shaped := shapedKick v (railCounts o.half p) (p.settings.railScale.get o.half) factor e
  let kick := clampedKick p.settings.kickMin p.settings.kickMax shaped
  { line := o.key
    origin := o.origin
    onsetRow := o.onsetRow
    shade := e
    kick := kick
    kickDuty := v.kickDuty
    holdDuty := v.holdDuty
    cost := costOf v.kickDuty
    priority := priorityOf o.origin o.accent
    holdTime := o.holdTime
    flags :=
      { accent := o.accent
        clamped := kick != shaped
        derated := decide (factor < 1000)
        short := o.holdTime == some 0 } }

/-- The record of an onset that is dropped (R92): the line, origin, onset row, e, the accent flag, and a K of 0. -/
def droppedPlan (o : Onset) (p : Part) : Plan :=
  { line := o.key
    origin := o.origin
    onsetRow := o.onsetRow
    shade := accentedShade o.shade p.settings.accentLift o.accent
    kick := 0
    kickDuty := 0
    holdDuty := 0
    cost := 0
    priority := 0
    holdTime := none
    flags := { accent := o.accent, clamped := false, derated := false, short := false } }

/-- The outcome an onset is dropped with, if it is (R92). -/
def dropOutcome (k : KeyNo) (p : Part) : Option StrikeOutcome :=
  if (p.key k).state = .faulted then some .faulted
  else if (p.key k).resting then some .resting
  else none

/-- The plan, or the record of the drop, that an onset makes (R92). -/
def onsetPlan (o : Onset) (p : Part) : Plan :=
  match dropOutcome o.key p with
  | some _ => droppedPlan o p
  | none => planOf o p

/-- The Strike Planner takes an onset (R90, R92): it is dropped, or its plan is handed to the key line. -/
def takeOnset (o : Onset) (p : Part) : Part :=
  match dropOutcome o.key p with
  | some outcome => endPlan (droppedPlan o p) outcome 0 p
  | none => newPlan (planOf o p) p

/-- An onset of the host's (R101) or of a pattern step (R105): unaccented, its half found from SplitKey (R91). -/
def directOnset (key : KeyNo) (origin : Origin) (shade holdTime : Nat) (p : Part) : Onset :=
  { key := key
    half := p.settings.halfOf key
    origin := origin
    onsetRow := none
    shade := shade
    accent := false
    holdTime := some holdTime }

/-! ### The pattern player (section 6.9) -/

/-- The pattern after a step is taken: the next step is current, or a round has ended (R105). -/
def Pattern.advance (a : Pattern) (index : Nat) (now : Time) : Pattern :=
  let stepped := { a with stepsTaken := min (a.stepsTaken + 1) 65535, timerStarted := now }
  if index + 1 < a.steps.length then { stepped with current := some (index + 1) }
  else
    let repeats := min (a.repeats + 1) 255
    if a.repeatCount = 0 ∨ repeats < a.repeatCount then { stepped with current := some 0, repeats := repeats }
    else { stepped with current := none, repeats := repeats }

/-- The onset of a pattern step, if it is a shade (R105). -/
def takePatternOnset (a : Pattern) (index : Nat) (p : Part) : Part :=
  match a.steps.getD index none with
  | some shade => takeOnset (directOnset a.key .pattern shade (a.stepTime / 2) p) p
  | none => p

/-- A pattern step is taken (R105). -/
def takePatternStep (p : Part) : Part :=
  match p.player with
  | none => p
  | some a =>
    match a.current with
    | none => p
    | some index => { takePatternOnset a index p with player := some (a.advance index p.now) }

/-- The pattern player is cancelled (R103). -/
def cancelPlayer (p : Part) : Part :=
  { p with player := none }

end Sys2Proof.Machine
end

