-- ==== Sys2Proof/Machine/Ring.lean ====
section
/-! DEFINITION. The Row Ring: the low-water state, the expansion of a batch, storing, taking and clearing
(chapter 1). -/

namespace Sys2Proof.Machine

/-- The number of rows held (R1). -/
def RowRing.occupancy (r : RowRing) : Nat :=
  r.rows.length

/-- The free space (R1). -/
def RowRing.free (r : RowRing) : Nat :=
  Config.ringRows - r.occupancy

/-- The low-water state brought up to date against RingLow (R4). -/
def RowRing.marked (r : RowRing) (ringLow : Nat) : RowRing :=
  { r with above := decide (ringLow ≤ r.occupancy) }

/-! ### The expansion of a batch (R6, R7) -/

/-- The hole set that group bytes give, ascending from a group: those of the groups named in the presence set
(section 1.2). The rest of the payload comes with it; `none` when a byte is missing. -/
def readGroups (presence : Nat) : Nat → List Nat → List Byte → Option (TrackSet × List Byte)
  | holes, [], bs => some (BitVec.ofNat 112 holes, bs)
  | holes, g :: groups, bs =>
    if presence.testBit g then
      match bs with
      | [] => none
      | b :: rest => readGroups presence (holes + b.toNat * 2 ^ (8 * g)) groups rest
    else readGroups presence holes groups bs

/-- The groups of a row, in ascending order. -/
def allGroups : List Nat :=
  List.range 14

/-- The hole sets that a batch's records stand for, `left` rows from here on, each run repeating the row before it;
`none` when the records do not expand to exactly that many rows (R6, R7). `fuel` bounds the number of records. -/
def expandRecords : Nat → TrackSet → Nat → List Byte → Option (List TrackSet)
  | _, _, 0, [] => some []
  | 0, _, _, _ => none
  | _ + 1, _, _, [] => none
  | _ + 1, _, _, [_] => none
  | fuel + 1, before, left, low :: high :: rest =>
    let header := low.toNat + 256 * high.toNat
    if header.testBit 15 then
      let run := low.toNat
      if header = 32768 + run ∧ 1 ≤ run ∧ run ≤ left then
        (expandRecords fuel before (left - run) rest).map fun rows => List.replicate run before ++ rows
      else none
    else if header < 16384 ∧ 1 ≤ left then
      match readGroups header 0 allGroups rest with
      | none => none
      | some (holes, rest) => (expandRecords fuel holes (left - 1) rest).map fun rows => holes :: rows
    else none

/-- Rows numbered consecutively from a first row. -/
def numberRows : Nat → List TrackSet → List StoredRow
  | _, [] => []
  | n, holes :: more => { number := n, holes := holes } :: numberRows (n + 1) more

/-! ### The stages of FEED ROWS after expansion (R8 to R11) -/

/-- The rows that are not below next-expected (R8). -/
def RowRing.unskipped (r : RowRing) (batch : List StoredRow) : List StoredRow :=
  batch.filter fun row => decide (r.nextExpected ≤ row.number)

/-- Is the first remaining row above next-expected (R9)? -/
def RowRing.gap (r : RowRing) (remaining : List StoredRow) : Bool :=
  match remaining with
  | [] => false
  | row :: _ => decide (r.nextExpected < row.number)

/-- The rows that are not above the end row, 0 meaning none (R10). -/
def withinRoll (endRow : Nat) (rows : List StoredRow) : List StoredRow :=
  if endRow = 0 then rows else rows.filter fun row => decide (row.number ≤ endRow)

/-- The ring with rows stored at its end, as many as it has room for (R11). -/
def RowRing.store (r : RowRing) (rows : List StoredRow) : RowRing :=
  let stored := rows.take r.free
  match stored.getLast? with
  | none => r
  | some last => { r with rows := r.rows ++ stored, nextExpected := last.number + 1, reference := last.holes }

/-! ### Taking and reading (R14, R15) -/

/-- The part after its ring has given up its head row (R14): the low-water state is brought up to date, and a passage
to BELOW in RUNNING raises RING_LOW (R4). -/
def takeHead (p : Part) : Part :=
  let ring := { p.ring with rows := p.ring.rows.tail }.marked p.settings.ringLow
  let taken := { p with ring := ring }
  if p.ring.above && !ring.above && p.feed.transport == .running then raise .ringLow taken else taken

/-- The ring is cleared, with next-expected as given (R16). -/
def clearRing (next : Nat) (p : Part) : Part :=
  { p with ring := RowRing.cleared next }

end Sys2Proof.Machine
end

