-- ==== Sys2Proof/Machine/Transport.lean ====
section
/-! DEFINITION. The Feed Clock's arithmetic and transport changes (chapter 2), up to the falling due of a row. -/

namespace Sys2Proof.Machine

/-- The part with its Feed Clock replaced. -/
def Part.setFeed (p : Part) (f : FeedClock) : Part :=
  { p with feed := f }

/-! ### The increment (R22) -/

/-- Q_base: P × T × S × 65536 / 500,000,000, rounded to nearest, halves up (R22). -/
def baseIncrement (pitch tempo trim : Nat) : Nat :=
  (pitch * tempo * trim * 65536 + 250000000) / 500000000

/-- Q: Q_base with the build-up term of the build-up step k, clamped to 1 to 65535 (R22). -/
def increment (qBase buildUp rowsTaken : Nat) : Nat :=
  max 1 (min 65535 (qBase + qBase * buildUp * (rowsTaken / 1000) / 1000000))

/-- Q recomputed, with Q_base as it stands (R21, R23). -/
def FeedClock.recomputeQ (f : FeedClock) : FeedClock :=
  { f with q := increment f.qBase f.buildUp f.rowsTaken }

/-- Q_base and Q recomputed (R22, R23). -/
def FeedClock.recompute (f : FeedClock) : FeedClock :=
  { f with qBase := baseIncrement f.pitch f.tempo f.trim }.recomputeQ

/-- A trim clamped to TrimLow to TrimHigh (R30). -/
def Settings.clampTrim (t : Settings) (trim : Nat) : Nat :=
  if trim < t.trimLow then t.trimLow else if t.trimHigh < trim then t.trimHigh else trim

/-! ### Pausing and ending -/

/-- What PAUSE and the end of the roll ask of the other blocks: the key lines released, the damper and the AUTO and
ROLL rails dropped (R28, R31), in that order (log entry 16). -/
def releasePlay (p : Part) : Part :=
  dropPlayedPedals (releaseKeyLines false p)

/-- The transport becomes PAUSED, from RUNNING or STARVED, with every effect of R28. -/
def pauseTransport (p : Part) : Part :=
  releasePlay (p.setFeed { p.feed with transport := .paused, starve := none })

/-- The end of the roll (R31): from RUNNING or PAUSED the transport becomes ENDED; in ENDED nothing changes. -/
def endRoll (p : Part) : Part :=
  match p.feed.transport with
  | .running | .paused => raise .rollEnded (releasePlay (p.setFeed { p.feed with transport := .ended }))
  | .unloaded | .loaded | .starved | .ended => p

/-! ### Starving -/

/-- The starve-hold expiry (R33): held keys and the damper are let go, the starve-release counter rises, and the
timer stops. -/
def expireStarve (p : Part) : Part :=
  dropPedal .damper
    (releaseHolds
      (p.setFeed { p.feed with starve := none, starveReleases := bump p.feed.starveReleases }))

/-- The transport becomes STARVED at a row that is due and absent (R32). With a StarveHold of 0 the expiry follows
at once. -/
def enterStarve (p : Part) : Part :=
  let starved := raise .starved
    (p.setFeed { p.feed with
      transport := .starved
      fraction := 0
      starve := some { started := p.now, hold := p.settings.starveHold } })
  if p.settings.starveHold = 0 then expireStarve starved else starved

/-! ### The report of a take (R21) -/

/-- The taken mark is set and d counted; Q is recomputed at each multiple of 1000 (R21). -/
def FeedClock.countTake (f : FeedClock) : FeedClock :=
  let counted := { f with taken := true, rowsTaken := f.rowsTaken + 1 }
  if (f.rowsTaken + 1) % 1000 = 0 then counted.recomputeQ else counted

/-- Is this the row that ends the roll: the end row, or with none held the last row number there is (R21)? -/
def FeedClock.endsAt (f : FeedClock) (row : Nat) : Bool :=
  if f.endRow = 0 then row == Config.lastRow else row == f.endRow

/-- The take of a row is reported to the Feed Clock (R21). -/
def reportTake (row : Nat) (p : Part) : Part :=
  let counted := p.setFeed p.feed.countTake
  if counted.feed.endsAt row then endRoll counted else counted

/-! ### Cue actions (R35) -/

/-- A cue action with its parameter, as the Cue Matcher hands it over. -/
structure FiredAction where
  action : CueAction
  parameter : Nat
  deriving DecidableEq, Repr

/-- The Feed Clock takes a cue action (R35). NOTICE hands none over. -/
def takeCueAction (a : FiredAction) (p : Part) : Part :=
  match a.action with
  | .notice => p
  | .pause => if p.feed.transport = .running then pauseTransport p else p
  | .endRoll => endRoll p
  | .tempo => p.setFeed { p.feed with tempo := a.parameter }.recompute
  | .trim => p.setFeed { p.feed with trim := p.settings.clampTrim a.parameter }.recompute

/-! ### Loading and stopping -/

/-- The Cue Matcher clears every match count and spent flag, keeping cue-valid (R68). -/
def clearCueRuns (p : Part) : Part :=
  { p with cues := { p.cues with runs := freshCueRuns } }

/-- The half's auto demand becomes DOWN (R71). -/
def HalfExpression.demandDown (x : HalfExpression) : HalfExpression :=
  { x with autoUp := false }

/-- Both auto demands become DOWN (R71). -/
def clearDemands (p : Part) : Part :=
  { p with expression := { p.expression with
      halves :=
        { bass := p.expression.halves.bass.demandDown, treble := p.expression.halves.treble.demandDown } } }

/-- The half's shade at StepTable[0] and its swelled flag clear (R26, R71). -/
def HalfExpression.reshade (shade : Nat) (x : HalfExpression) : HalfExpression :=
  { x with shade := shade, swelled := false }

/-- LOAD ROLL sets each shade to StepTable[0] and clears both swelled flags (R26, R71). -/
def resetShades (p : Part) : Part :=
  let shade := p.settings.stepTable[0]
  { p with expression := { p.expression with
      halves :=
        { bass := p.expression.halves.bass.reshade shade
          treble := p.expression.halves.treble.reshade shade } } }

/-- The Feed Clock after an admitted LOAD ROLL (R25). -/
def FeedClock.load (f : FeedClock) (startRow endRow pitch tempo buildUp : Nat) : FeedClock :=
  FeedClock.recompute
    { f with
      transport := .loaded
      row := startRow
      fraction := 0
      taken := false
      tempo := tempo
      trim := 1000
      pitch := if pitch = 0 then 300 else pitch
      buildUp := buildUp
      endRow := endRow
      rowsTaken := 0
      starve := none }

/-- An admitted LOAD ROLL: the Feed Clock's own state (R25), then the requests of R26 in their order. -/
def loadTransport (startRow endRow pitch tempo buildUp : Nat) (p : Part) : Part :=
  let loaded := p.setFeed (p.feed.load startRow endRow pitch tempo buildUp)
  let prepared := resetShades (clearDemands (clearCueRuns (resetLead (closeTracks (clearRing startRow loaded)))))
  cancelPlayer (dropPedal .damper (releaseKeyLines false (levelRefresh prepared)))

/-- The Feed Clock after STOP and a soft reset (R18). -/
def FeedClock.unload (f : FeedClock) : FeedClock :=
  FeedClock.unloadedWith f.starveReleases f.nextTick

/-- What STOP and a soft reset do to the roll's own state: the ring, the tracks, the lead decoder, the cue counts,
the auto demands and the pattern player (R29, R176). -/
def unloadRoll (p : Part) : Part :=
  cancelPlayer (levelRefresh (clearDemands (clearCueRuns (resetLead (closeTracks (clearRing 0 p))))))

/-- STOP, in any state but UNLOADED (R29). -/
def stopTransport (p : Part) : Part :=
  unloadRoll (dropAllPedals (releaseKeyLines false (p.setFeed p.feed.unload)))

end Sys2Proof.Machine
end

