-- ==== Sys2Proof/Machine/Cues.lean ====
section
/-! DEFINITION. The Cue Matcher: matching, firing and the cue-valid flag (chapter 4). -/

namespace Sys2Proof.Machine

/-- Every cue slot, in ascending order. -/
def allSlots : List (Fin 4) :=
  List.finRange 4

/-- Do the levels match the slot: each masked track open exactly when the pattern names it (R64)? -/
def CueSlot.matchesLevels (c : CueSlot) (levels : TrackSet) : Bool :=
  (levels &&& c.mask) == (c.pattern &&& c.mask)

/-- Is the slot in use: its mask is not empty (R58)? -/
def CueSlot.inUse (c : CueSlot) : Bool :=
  c.mask != 0

/-- Does a slot compare rows: in use and not spent (R64)? -/
def CueSlot.compares (c : CueSlot) (r : CueRun) : Bool :=
  c.inUse && !r.spent

/-- Does the slot fire on a row with these levels (R64, R65)? -/
def CueSlot.fires (c : CueSlot) (r : CueRun) (levels : TrackSet) : Bool :=
  c.compares r && c.matchesLevels levels && r.count + 1 == c.holdRows

/-- The match count after a row (R64). -/
def CueSlot.nextCount (c : CueSlot) (r : CueRun) (levels : TrackSet) : Nat :=
  if c.matchesLevels levels then if r.count + 1 ≤ c.holdRows then r.count + 1 else r.count else 0

/-- A slot's count and spent flag after a row (R64, R65). -/
def CueSlot.nextRun (c : CueSlot) (r : CueRun) (levels : TrackSet) : CueRun :=
  if c.compares r then
    { count := c.nextCount r levels, spent := c.once && c.fires r levels }
  else r

/-- The slots that fire on a row. -/
def firingSlots (levels : TrackSet) (p : Part) : List (Fin 4) :=
  allSlots.filter fun i => p.settings.cueSlots[i].fires p.cues.runs[i] levels

/-- The action of a slot, as it is handed over. -/
def Settings.slotAction (t : Settings) (i : Fin 4) : FiredAction :=
  { action := t.cueSlots[i].action, parameter := t.cueSlots[i].parameter }

/-- Does a slot hand an action to the Feed Clock (R65)? NOTICE does not. -/
def FiredAction.handed (a : FiredAction) : Bool :=
  a.action != .notice

/-- The counts and spent flags after a row, and cue-valid cleared if an END slot fired (R64, R65, R67). -/
def moveCues (levels : TrackSet) (p : Part) : Part :=
  { p with
    cues :=
      { runs := Vector.ofFn fun i => p.settings.cueSlots[i].nextRun p.cues.runs[i] levels
        valid := !(firingSlots levels p).any fun i => p.settings.cueSlots[i].action == .endRoll } }

/-- The Cue Matcher is handed the levels of a row (R64 to R67). Every firing slot raises CUE_FIRED, and the actions of
the row reach the Feed Clock in any order (log entry 1). -/
def matchCues (levels : TrackSet) (p : Part) : Part :=
  if p.cues.valid then
    let fired := firingSlots levels p
    let raised := fired.foldl (fun q i => raiseCueFired i q) (moveCues levels p)
    inAnyOrder ((fired.map p.settings.slotAction).filter FiredAction.handed) takeCueAction raised
  else p

/-- Cue-valid is cleared, with CUES_DISARMED if it was set (R60, R70). -/
def disarmCues (p : Part) : Part :=
  let cleared := { p with cues := { p.cues with valid := false } }
  if p.cues.valid then raise .cuesDisarmed cleared else cleared

/-- ARM CUES (R63). -/
def armAllCues (p : Part) : Part :=
  { p with cues := { runs := freshCueRuns, valid := true } }

end Sys2Proof.Machine
end

