-- ==== Sys2Proof/Machine/Tracks.lean ====
section
/-! DEFINITION. The take of a row by the Track Decoder (section 3.5), the falling due of a row, and the arrival of
rows. -/

namespace Sys2Proof.Machine

/-! ### The update stage (R51) -/

/-- The move of a track on a row, from the raw hole of its source track (R43, R46, R47). -/
def rowMove (row : StoredRow) (p : Part) (t : TrackNo) : TrackMove :=
  moveTrack p.settings.onRows p.settings.offRows row.number (holeAt row.holes p.settings.trackMap[t].source)
    p.tracks.states[t]

/-- How many tracks of a list satisfy a test. -/
def countTracks (test : TrackNo → Bool) : Nat :=
  (allTracks.filter test).length

/-- The update stage: all 112 debounce states move, and specks and patches are counted (R46, R47, R49, R51). -/
def updateTracks (row : StoredRow) (p : Part) : Part :=
  { p with
    tracks :=
      { states := Vector.ofFn fun t => (rowMove row p t).state
        specks := saturate (p.tracks.specks + countTracks fun t => (rowMove row p t).speck)
        patches := saturate (p.tracks.patches + countTracks fun t => (rowMove row p t).patch) } }

/-! ### The handout stage (R51 to R54) -/

/-- The input levels with one role's replaced (R53, R72). -/
def InputLevels.setRole (l : InputLevels) (f : TrackFunction) (level : Bool) : InputLevels :=
  match f with
  | .step1 => { l with step1 := level }
  | .step2 => { l with step2 := level }
  | .step4 => { l with step4 := level }
  | .swell => { l with swell := level }
  | .quick => { l with quick := level }
  | .accent => { l with accent := level }
  | .none | .key | .damperLift | .damperFeather | .soft => l

/-- A role's new level reaches the Expression Unit (R53, R72). -/
def takeRoleLevel (f : TrackFunction) (h : Half) (level : Bool) (p : Part) : Part :=
  let x := p.expression.halves.get h
  p.setHalf h (x.withLevels (x.levels.setRole f level))

/-- The onset that a note-on brings the Strike Planner (R52, R82, R91): its half is from SplitKey, its accent is the
level of the half's ACCENT role after the row's update, and its shade is the half's as it stands. -/
def noteOnset (key : KeyNo) (recordedRow : Nat) (p : Part) : Onset :=
  let h := p.settings.halfOf key
  { key := key
    half := h
    origin := .roll
    onsetRow := some recordedRow
    shade := (p.expression.halves.get h).shade
    accent := targetLevel p.settings p.tracks.states .accent h
    holdTime := none }

/-- A track's event is handed to the block that owns its target (R52, R53, R54). -/
def handEvent (t : TrackNo) (event : TrackEvent) (p : Part) : Part :=
  let entry := p.settings.trackMap[t]
  match event with
  | .none => p
  | .onset recordedRow =>
    match entry.function with
    | .none => p
    | .key => takeOnset (noteOnset entry.key recordedRow p) p
    | .damperLift => takeLiftLevel true p
    | .damperFeather => takeFeatherLevel true p
    | .soft => takeSoftLevel true p
    | .step1 | .step2 | .step4 | .swell | .quick | .accent => takeRoleLevel entry.function entry.half true p
  | .offset =>
    match entry.function with
    | .none => p
    | .key => noteOff entry.key p
    | .damperLift => takeLiftLevel false p
    | .damperFeather => takeFeatherLevel false p
    | .soft => takeSoftLevel false p
    | .step1 | .step2 | .step4 | .swell | .quick | .accent => takeRoleLevel entry.function entry.half false p

/-- The events of a row, by track. -/
def rowEvents (row : StoredRow) (p : Part) : Vector TrackEvent 112 :=
  Vector.ofFn fun t => (rowMove row p t).event

/-- The handout stage: the events in ascending track order (R51). -/
def handOut (events : Vector TrackEvent 112) (p : Part) : Part :=
  allTracks.foldl (fun q t => handEvent t events[t] q) p

/-! ### The close stage (R51, R55) -/

/-- The decoded levels of all 112 tracks, as a set of the open ones (R55). -/
def openTracks (states : Vector Debounce 112) : TrackSet :=
  BitVec.ofBoolListLE (states.toList.map Debounce.level) |>.setWidth 112

/-- The Track Decoder's take of a row: update, handout and close (R51). The Feed Clock has the report last. -/
def decodeRow (row : StoredRow) (p : Part) : Part :=
  let events := rowEvents row p
  let handed := handOut events (updateTracks row p)
  reportTake row.number (matchCues (openTracks handed.tracks.states) handed)

/-- A row is taken from the head of the ring: the lead decoder has examined it before (R51), the ring gives it up
(R14), the Track Decoder takes it whole, and the lead decoder looks ahead after it (R159). It does so too where the row
has left the transport PAUSED or ENDED and the damper dropped: R34 has the pedals stay as that action left them, R160 has
a lead onset lift the damper, and the model lets the lead onset lift it (DESIGN CHOICE, log entry 34). -/
def takeRow (row : StoredRow) (p : Part) : Part :=
  examineAfterTake (decodeRow row (takeHead (examineBeforeTake row p)))

/-- A row falls due (R19): it is taken if the ring holds it, and the transport starves if not. -/
def rowDue (p : Part) : Part :=
  match p.ring.rows with
  | [] => enterStarve p
  | row :: _ => takeRow row p

/-! ### Ticks, RUN and arrivals -/

/-- The feed tick in RUNNING: the increment is added to the fraction, and a carry makes the next row due (R20). -/
def advanceFeed (p : Part) : Part :=
  let sum := p.feed.fraction + p.feed.q
  if sum < 65536 then p.setFeed { p.feed with fraction := sum }
  else rowDue (p.setFeed { p.feed with fraction := sum - 65536, row := p.feed.row + 1, taken := false })

/-- RUN from LOADED or PAUSED (R27): the player is cancelled, the pedals re-synced, the lead decoder looks ahead
(R159), and an untaken row falls due. -/
def startRunning (p : Part) : Part :=
  let running := examineAhead (resyncPedals (cancelPlayer (p.setFeed { p.feed with transport := .running })))
  if running.feed.taken then running else rowDue running

/-- An arrival while STARVED returns the transport to RUNNING, has the due row taken, and asks for a re-sync if the
row has left the transport RUNNING (R34). -/
def resumeStarved (p : Part) : Part :=
  let taken := rowDue (p.setFeed { p.feed with transport := .running, starve := none })
  if taken.feed.transport = .running then resyncPedals taken else taken

/-- The arrival of rows is handed to the Feed Clock and then to the lead decoder, which looks ahead if the transport
was in play at the arrival (R13, R34, R159; log entry 19), whatever state the row taken has left it in (DESIGN CHOICE, log
entry 34). -/
def rowsArrive (p : Part) : Part :=
  if p.feed.transport = .starved then examineAhead (resumeStarved p)
  else if p.feed.transport = .running then examineAhead p
  else p

end Sys2Proof.Machine
end

