-- ==== Sys2Proof/Machine/Settings.lean ====
section
/-! DEFINITION. The settings: what each owning block makes of a write of its items, in the order STATE, RANGE, CONFLICT,
and the values that READ SETTING returns (section 11.3, R172). -/

namespace Sys2Proof.Machine

/-- What a write answers: its result, and the part after it. -/
abbrev Written : Type := Result × Part

/-- The part with its working settings changed. -/
def Part.withSettings (p : Part) (f : Settings → Settings) : Part :=
  { p with settings := f p.settings }

/-- Does a value lie within a range, both ends included? -/
def within (low high v : Nat) : Bool :=
  decide (low ≤ v ∧ v ≤ high)

/-- A write with a RANGE check alone, which changes nothing but the setting (R30, R32, R81, R83, R87, R99, R100, R110,
R134, R161, R167). -/
def writeChecked (inRange : Bool) (f : Settings → Settings) (p : Part) : Written :=
  if inRange then (.ok, p.withSettings f) else (.range, p)

/-- A write with a RANGE check and then a CONFLICT check, which changes nothing but the setting (R74, R85). -/
def writeAgainst (inRange conflict : Bool) (f : Settings → Settings) (p : Part) : Written :=
  if !inRange then (.range, p) else if conflict then (.conflict, p) else (.ok, p.withSettings f)

/-! ### The Row Ring and the Feed Clock -/

/-- RingLow (R17): the low-water state is set from it at once, and no notice is raised. -/
def writeRingLowValue (v : Nat) (p : Part) : Written :=
  if within 16 2000 v then
    (.ok, { p.withSettings (fun t => { t with ringLow := v }) with ring := p.ring.marked v })
  else (.range, p)

/-- TrimLow (R30). -/
def writeTrimLowValue (v : Nat) : Part → Written :=
  writeChecked (within 500 1000 v) fun t => { t with trimLow := v }

/-- TrimHigh (R30). -/
def writeTrimHighValue (v : Nat) : Part → Written :=
  writeChecked (within 1000 2000 v) fun t => { t with trimHigh := v }

/-- StarveHold (R32). -/
def writeStarveHoldValue (v : Nat) : Part → Written :=
  writeChecked (within 0 5000 v) fun t => { t with starveHold := v }

/-! ### The Track Decoder -/

/-- Does an entry other than `t` address the target of `e` (R38, R40)? -/
def mapConflict (map : Vector TrackEntry 112) (t : TrackNo) (e : TrackEntry) : Bool :=
  allTracks.any fun u => u != t && map[u].sameTarget e

/-- An admitted TrackMap write (R40): the entry is replaced, its track returns to CLOSED, the lead decoder is reset,
and a level refresh is made. -/
def replaceEntry (t : TrackNo) (e : TrackEntry) (p : Part) : Part :=
  let mapped := p.withSettings fun s => { s with trackMap := s.trackMap.set t e }
  levelRefresh (resetLead { mapped with tracks := { mapped.tracks with states := mapped.tracks.states.set t .closed } })

/-- TrackMap (R40). -/
def writeTrackMapValue (index : Nat) (value : List Byte) (p : Part) : Written :=
  if p.inPlay then (.state, p)
  else
    match below 112 index, TrackEntry.read value with
    | some t, some e =>
      if mapConflict p.settings.trackMap t e then (.conflict, p) else (.ok, replaceEntry t e p)
    | _, _ => (.range, p)

/-- SplitKey (R44). -/
def writeSplitKeyValue (v : Nat) (p : Part) : Written :=
  if p.inPlay then (.state, p) else writeChecked (within 20 67 v) (fun t => { t with splitKey := v }) p

/-- The debounce states of the Track Decoder and of the lead decoder changed alike (R50, R159). -/
def mapDebounce (f : Debounce → Debounce) (p : Part) : Part :=
  { p with
    tracks := { p.tracks with states := p.tracks.states.map f }
    pedals := { p.pedals with
      lead := { p.pedals.lead with lift := f p.pedals.lead.lift, feather := f p.pedals.lead.feather } } }

/-- OnRows (R50): every track and lead track in OPENING returns to CLOSED. -/
def writeOnRowsValue (v : Nat) (p : Part) : Written :=
  if p.inPlay then (.state, p)
  else if within 1 8 v then
    (.ok, mapDebounce Debounce.dropOpening (p.withSettings fun t => { t with onRows := v }))
  else (.range, p)

/-- OffRows (R50): every track and lead track in CLOSING returns to OPEN. -/
def writeOffRowsValue (v : Nat) (p : Part) : Written :=
  if p.inPlay then (.state, p)
  else if within 1 8 v then
    (.ok, mapDebounce Debounce.dropClosing (p.withSettings fun t => { t with offRows := v }))
  else (.range, p)

/-! ### The Cue Matcher -/

/-- An admitted CueSlot write (R60): the slot is replaced, its count is 0 and its spent flag clear, and cue-valid is
cleared, with CUES_DISARMED if it was set. -/
def replaceSlot (i : Fin 4) (c : CueSlot) (p : Part) : Part :=
  let stored := p.withSettings fun t => { t with cueSlots := t.cueSlots.set i c }
  disarmCues { stored with cues := { stored.cues with runs := stored.cues.runs.set i { count := 0, spent := false } } }

/-- CueSlot (R59): the RANGE checks, and CONFLICT for a pattern that names a track outside the mask. -/
def writeCueSlotValue (index : Nat) (value : List Byte) (p : Part) : Written :=
  match below 4 index, CueSlot.read value with
  | some i, some c => if (c.pattern &&& ~~~c.mask) = 0 then (.ok, replaceSlot i c p) else (.conflict, p)
  | _, _ => (.range, p)

/-! ### The Expression Unit -/

/-- Does a step table value descend against its neighbours (R74)? -/
def stepConflict (table : Vector Nat 8) (i : Fin 8) (v : Nat) : Bool :=
  (decide (0 < i.val) && decide (v < table.toList.getD (i.val - 1) 0))
    || (decide (i.val < 7) && decide (table.toList.getD (i.val + 1) 0 < v))

/-- StepTable (R74). -/
def writeStepTableValue (index v : Nat) (p : Part) : Written :=
  match below 8 index with
  | some i =>
    writeAgainst (within 0 1023 v) (stepConflict p.settings.stepTable i v)
      (fun t => { t with stepTable := t.stepTable.set i v }) p
  | none => (.range, p)

/-- StepRate (R81). -/
def writeStepRateValue (v : Nat) : Part → Written :=
  writeChecked (within 1 255 v) fun t => { t with stepRate := v }

/-- SlowRate (R81). -/
def writeSlowRateValue (v : Nat) : Part → Written :=
  writeChecked (within 1 255 v) fun t => { t with slowRate := v }

/-- QuickRate (R81). -/
def writeQuickRateValue (v : Nat) : Part → Written :=
  writeChecked (within 1 255 v) fun t => { t with quickRate := v }

/-- SwellCeiling (R81). -/
def writeSwellCeilingValue (v : Nat) : Part → Written :=
  writeChecked (within 0 1023 v) fun t => { t with swellCeiling := v }

/-- AccentLift (R83). -/
def writeAccentLiftValue (v : Nat) : Part → Written :=
  writeChecked (within 0 512 v) fun t => { t with accentLift := v }

/-- RailOn (R85). -/
def writeRailOnValue (v : Nat) (p : Part) : Written :=
  writeAgainst (within 0 1022 v) (decide (p.settings.railOff ≤ v)) (fun t => { t with railOn := v }) p

/-- RailOff (R85). -/
def writeRailOffValue (v : Nat) (p : Part) : Written :=
  writeAgainst (within 1 1023 v) (decide (v ≤ p.settings.railOn)) (fun t => { t with railOff := v }) p

/-- RailMode (R84): the mode is replaced and handed to the Pedal Unit with its request. -/
def writeRailModeValue (index v : Nat) (p : Part) : Written :=
  match Half.ofCode index, RailMode.ofCode v with
  | some h, some m =>
    (.ok, handRailMode h (p.withSettings fun t => { t with railMode := t.railMode.set h m }))
  | _, _ => (.range, p)

/-- RailScale (R87). -/
def writeRailScaleValue (index v : Nat) (p : Part) : Written :=
  match Half.ofCode index with
  | some h => writeChecked (within 500 2000 v) (fun t => { t with railScale := t.railScale.set h v }) p
  | none => (.range, p)

/-! ### The Strike Planner -/

/-- Voicing (R99). -/
def writeVoicingValue (index : Nat) (value : List Byte) (p : Part) : Written :=
  match below 88 index, Voicing.read value with
  | some k, some v => (.ok, p.withSettings fun t => { t with voicing := t.voicing.set k v })
  | _, _ => (.range, p)

/-- KickMin (R100). -/
def writeKickMinValue (v : Nat) : Part → Written :=
  writeChecked (within 2 100 v) fun t => { t with kickMin := v }

/-- KickMax (R100). -/
def writeKickMaxValue (v : Nat) : Part → Written :=
  writeChecked (within 100 1000 v) fun t => { t with kickMax := v }

/-! ### The Kick Arbiter -/

/-- Every pedal, in line order. -/
def allPedals : List Pedal :=
  [.damper, .bassRail, .trebleRail]

/-- Is any line in KICK or LIFTING, or does the wait list hold any entry (R109, R174)? -/
def Part.kicking (p : Part) : Bool :=
  allKeys.any (fun k => (p.key k).state == .kick) || allPedals.any (fun d => (p.pedal d).state == .lifting)
    || p.arbiter.wait != []

/-- A budget setting (R109): STATE while a kick, a lift or an entry stands, then RANGE, then CONFLICT. -/
def writeBudget (inRange conflict : Bool) (f : Settings → Settings) (p : Part) : Written :=
  if p.kicking then (.state, p) else writeAgainst inRange conflict f p

/-- BudgetUnits (R109). -/
def writeBudgetUnitsValue (v : Nat) (p : Part) : Written :=
  writeBudget (within 4 96 v) (decide (v < max p.settings.damperCost p.settings.railCost))
    (fun t => { t with budgetUnits := v }) p

/-- DamperCost (R109). -/
def writeDamperCostValue (v : Nat) (p : Part) : Written :=
  writeBudget (within 1 16 v) (decide (p.settings.budgetUnits < v)) (fun t => { t with damperCost := v }) p

/-- RailCost (R109). -/
def writeRailCostValue (v : Nat) (p : Part) : Written :=
  writeBudget (within 1 16 v) (decide (p.settings.budgetUnits < v)) (fun t => { t with railCost := v }) p

/-- WaitLimit (R110). -/
def writeWaitLimitValue (v : Nat) : Part → Written :=
  writeChecked (within 1 100 v) fun t => { t with waitLimit := v }

/-! ### The Drive Sequencer -/

/-- HoldLimit (R134). -/
def writeHoldLimitValue (v : Nat) : Part → Written :=
  writeChecked (within 1 120 v) fun t => { t with holdLimit := v }

/-- RepeatGuard (R135): it applies at once, and every guard at or beyond the new value ends. -/
def writeRepeatGuardValue (v : Nat) (p : Part) : Written :=
  if within 5 100 v then (.ok, endElapsedGuards (p.withSettings fun t => { t with repeatGuard := v }))
  else (.range, p)

/-- A key line whose drive begins a new period (R128). -/
def KeyLine.rebased (now : Time) (l : KeyLine) : KeyLine :=
  { l with drive := l.drive.rebase now }

/-- A pedal whose drive begins a new period (R128). -/
def PedalRecord.rebased (now : Time) (r : PedalRecord) : PedalRecord :=
  { r with drive := r.drive.rebase now }

/-- Every line that is driving begins a new period (R128). -/
def rebaseDrives (p : Part) : Part :=
  { p with
    drives := { p.drives with keys := p.drives.keys.map (KeyLine.rebased p.now) }
    pedals := { p.pedals with
      damper := p.pedals.damper.rebased p.now
      bassRail := p.pedals.bassRail.rebased p.now
      trebleRail := p.pedals.trebleRail.rebased p.now } }

/-- PwmBase (R128). -/
def writePwmBaseValue (v : Nat) (p : Part) : Written :=
  if p.inPlay then (.state, p)
  else if v = 16 ∨ v = 24 ∨ v = 32 then (.ok, rebaseDrives (p.withSettings fun t => { t with pwmBase := v }))
  else (.range, p)

/-- HeatSoft (R143): every resting flag is brought up to date. -/
def writeHeatSoftValue (v : Nat) (p : Part) : Written :=
  if !within 1000 60000 v then (.range, p)
  else if p.settings.heatHard < v + 1000 then (.conflict, p)
  else (.ok, updateAllResting (p.withSettings fun t => { t with heatSoft := v }))

/-- HeatHard (R143): every resting flag is brought up to date. -/
def writeHeatHardValue (v : Nat) (p : Part) : Written :=
  if !within 2000 65000 v then (.range, p)
  else if v < p.settings.heatSoft + 1000 then (.conflict, p)
  else (.ok, updateAllResting (p.withSettings fun t => { t with heatHard := v }))

/-! ### The Pedal Unit (R161) -/

/-- DamperKick. -/
def writeDamperKickValue (v : Nat) : Part → Written :=
  writeChecked (within 10 200 v) fun t => { t with damperKick := v }

/-- DamperKickDuty. -/
def writeDamperKickDutyValue (v : Nat) : Part → Written :=
  writeChecked (within 1 32 v) fun t => { t with damperKickDuty := v }

/-- DamperHoldFull takes effect at once on a damper RAISED at FULL. -/
def writeDamperHoldFullValue (v : Nat) (p : Part) : Written :=
  if !within 1 32 v then (.range, p)
  else if v < p.settings.damperHoldPart then (.conflict, p)
  else (.ok, applyHoldFull (p.withSettings fun t => { t with damperHoldFull := v }))

/-- DamperHoldPart takes effect at once on a damper RAISED at PART or waiting in a deepen. -/
def writeDamperHoldPartValue (v : Nat) (p : Part) : Written :=
  if !within 1 32 v then (.range, p)
  else if p.settings.damperHoldFull < v then (.conflict, p)
  else (.ok, applyHoldPart (p.withSettings fun t => { t with damperHoldPart := v }))

/-- DamperSettle. -/
def writeDamperSettleValue (v : Nat) : Part → Written :=
  writeChecked (within 5 200 v) fun t => { t with damperSettle := v }

/-- RailKick. -/
def writeRailKickValue (v : Nat) : Part → Written :=
  writeChecked (within 10 200 v) fun t => { t with railKick := v }

/-- RailKickDuty. -/
def writeRailKickDutyValue (v : Nat) : Part → Written :=
  writeChecked (within 1 32 v) fun t => { t with railKickDuty := v }

/-- RailHold takes effect at once on a RAISED rail. -/
def writeRailHoldValue (v : Nat) (p : Part) : Written :=
  if within 1 32 v then (.ok, applyRailHold (p.withSettings fun t => { t with railHold := v })) else (.range, p)

/-- RailSettle. -/
def writeRailSettleValue (v : Nat) : Part → Written :=
  writeChecked (within 5 200 v) fun t => { t with railSettle := v }

/-- PedalLead resets the lead decoder. -/
def writePedalLeadValue (v : Nat) (p : Part) : Written :=
  if p.inPlay then (.state, p)
  else if within 0 64 v then (.ok, resetLead (p.withSettings fun t => { t with pedalLead := v }))
  else (.range, p)

/-! ### The Link Port -/

/-- LinkSilence: 0 for off, or 50 to 5000 (R167). -/
def writeLinkSilenceValue (v : Nat) : Part → Written :=
  writeChecked (v == 0 || within 50 5000 v) fun t => { t with linkSilence := v }

/-! ### The masks (R169) -/

/-- NoticeMask: its value has bits 0 to 12. -/
def writeNoticeMaskValue (v : Nat) (p : Part) : Written :=
  if v < 8192 then (.ok, updateNotices (fun n => { n with mask := BitVec.ofNat 13 v }) p) else (.range, p)

/-- A set with one of its members put in or taken out. -/
def setMember {w : Nat} (s : BitVec w) (i : Nat) (on : Bool) : BitVec w :=
  if on then s ||| (1#w <<< i) else s &&& ~~~(1#w <<< i)

/-- LineFaultMask: 1 enables a line and 0 disables it. -/
def writeLineFaultMaskValue (index v : Nat) (p : Part) : Written :=
  if index < 91 ∧ v ≤ 1 then
    (.ok, updateNotices (fun n => { n with faultMask := setMember n.faultMask index (v == 1) }) p)
  else (.range, p)

/-- LineRestingMask: 1 enables a line and 0 disables it. -/
def writeLineRestingMaskValue (index v : Nat) (p : Part) : Written :=
  if index < 88 ∧ v ≤ 1 then
    (.ok, updateNotices (fun n => { n with restingMask := setMember n.restingMask index (v == 1) }) p)
  else (.range, p)

/-! ### WRITE SETTING of an item -/

/-- The write of an item by its owner, its index and value as sent (R172). -/
def writeItem (item : Item) (index : Nat) (value : List Byte) (p : Part) : Written :=
  let v := fieldAt value 0 2
  match item with
  | .ringLow => writeRingLowValue v p
  | .trimLow => writeTrimLowValue v p
  | .trimHigh => writeTrimHighValue v p
  | .starveHold => writeStarveHoldValue v p
  | .trackMap => writeTrackMapValue index value p
  | .splitKey => writeSplitKeyValue v p
  | .onRows => writeOnRowsValue v p
  | .offRows => writeOffRowsValue v p
  | .cueSlot => writeCueSlotValue index value p
  | .stepTable => writeStepTableValue index v p
  | .stepRate => writeStepRateValue v p
  | .slowRate => writeSlowRateValue v p
  | .quickRate => writeQuickRateValue v p
  | .swellCeiling => writeSwellCeilingValue v p
  | .accentLift => writeAccentLiftValue v p
  | .railOn => writeRailOnValue v p
  | .railOff => writeRailOffValue v p
  | .railMode => writeRailModeValue index v p
  | .railScale => writeRailScaleValue index v p
  | .voicing => writeVoicingValue index value p
  | .kickMin => writeKickMinValue v p
  | .kickMax => writeKickMaxValue v p
  | .budgetUnits => writeBudgetUnitsValue v p
  | .damperCost => writeDamperCostValue v p
  | .railCost => writeRailCostValue v p
  | .waitLimit => writeWaitLimitValue v p
  | .holdLimit => writeHoldLimitValue v p
  | .repeatGuard => writeRepeatGuardValue v p
  | .pwmBase => writePwmBaseValue v p
  | .heatSoft => writeHeatSoftValue v p
  | .heatHard => writeHeatHardValue v p
  | .damperKick => writeDamperKickValue v p
  | .damperKickDuty => writeDamperKickDutyValue v p
  | .damperHoldFull => writeDamperHoldFullValue v p
  | .damperHoldPart => writeDamperHoldPartValue v p
  | .damperSettle => writeDamperSettleValue v p
  | .railKick => writeRailKickValue v p
  | .railKickDuty => writeRailKickDutyValue v p
  | .railHold => writeRailHoldValue v p
  | .railSettle => writeRailSettleValue v p
  | .pedalLead => writePedalLeadValue v p
  | .linkSilence => writeLinkSilenceValue v p
  | .noticeMask => writeNoticeMaskValue v p
  | .lineFaultMask => writeLineFaultMaskValue index v p
  | .lineRestingMask => writeLineRestingMaskValue index v p

/-- The item that a WRITE SETTING or READ SETTING payload names, if its code is in the table. -/
def itemOf (payload : List Byte) : Option Item :=
  Item.ofCode (byteAt payload 0)

/-- WRITE SETTING (R172): the unit's own checks, and then the owner's write. -/
def writeSettingItem (payload : List Byte) (p : Part) : Written :=
  if payload.length < 2 then (.length, p)
  else
    match itemOf payload with
    | none => (.unknownItem, p)
    | some item =>
      if payload.length = 2 + item.size then writeItem item (byteAt payload 1) (payload.drop 2) p else (.length, p)

/-! ### READ SETTING -/

/-- A scalar value: 2 bytes (section 11.3). -/
def scalarBytes (v : Nat) : List Byte :=
  littleEndian 2 v

/-- The scalar value of an item that carries no index (section 11.3). The indexed items are read by `readItem`. -/
def scalarValue (item : Item) (p : Part) : Nat :=
  let t := p.settings
  match item with
  | .ringLow => t.ringLow
  | .trimLow => t.trimLow
  | .trimHigh => t.trimHigh
  | .starveHold => t.starveHold
  | .splitKey => t.splitKey
  | .onRows => t.onRows
  | .offRows => t.offRows
  | .stepRate => t.stepRate
  | .slowRate => t.slowRate
  | .quickRate => t.quickRate
  | .swellCeiling => t.swellCeiling
  | .accentLift => t.accentLift
  | .railOn => t.railOn
  | .railOff => t.railOff
  | .kickMin => t.kickMin
  | .kickMax => t.kickMax
  | .budgetUnits => t.budgetUnits
  | .damperCost => t.damperCost
  | .railCost => t.railCost
  | .waitLimit => t.waitLimit
  | .holdLimit => t.holdLimit
  | .repeatGuard => t.repeatGuard
  | .pwmBase => t.pwmBase
  | .heatSoft => t.heatSoft
  | .heatHard => t.heatHard
  | .damperKick => t.damperKick
  | .damperKickDuty => t.damperKickDuty
  | .damperHoldFull => t.damperHoldFull
  | .damperHoldPart => t.damperHoldPart
  | .damperSettle => t.damperSettle
  | .railKick => t.railKick
  | .railKickDuty => t.railKickDuty
  | .railHold => t.railHold
  | .railSettle => t.railSettle
  | .pedalLead => t.pedalLead
  | .linkSilence => t.linkSilence
  | .noticeMask => p.notices.mask.toNat
  | .trackMap | .cueSlot | .stepTable | .railMode | .railScale | .voicing | .lineFaultMask | .lineRestingMask => 0

/-- The value of a cue slot as READ SETTING returns it: the stored fields, then the match count, the spent flag and
cue-valid (R61). -/
def cueSlotReading (i : Fin 4) (p : Part) : List Byte :=
  p.settings.cueSlots[i].bytes
    ++ [BitVec.ofNat 8 p.cues.runs[i].count, flagByte p.cues.runs[i].spent, flagByte p.cues.valid]

/-- The value bytes of an item at an index; `none` for an index beyond an indexed item's range (R172). -/
def readItem (item : Item) (index : Nat) (p : Part) : Option (List Byte) :=
  match item with
  | .trackMap => (below 112 index).map fun t => p.settings.trackMap[t].bytes
  | .cueSlot => (below 4 index).map fun i => cueSlotReading i p
  | .stepTable => (below 8 index).map fun i => scalarBytes p.settings.stepTable[i]
  | .railMode => (Half.ofCode index).map fun h => scalarBytes (p.settings.railMode.get h).code
  | .railScale => (Half.ofCode index).map fun h => scalarBytes (p.settings.railScale.get h)
  | .voicing => (below 88 index).map fun k => p.settings.voicing[k].bytes
  | .lineFaultMask => (below 91 index).map fun m => scalarBytes (p.notices.faultMask.getLsbD m.val).toNat
  | .lineRestingMask => (below 88 index).map fun m => scalarBytes (p.notices.restingMask.getLsbD m.val).toNat
  | item => some (scalarBytes (scalarValue item p))

/-- The reply payload of READ SETTING (R172): OK, the code, the index as it was sent, and the value; a refusal is the
result alone (log entry 23). -/
def readSettingReply (payload : List Byte) (p : Part) : List Byte :=
  if payload.length < 2 then Result.length.bytes
  else
    match itemOf payload with
    | none => Result.unknownItem.bytes
    | some item =>
      if payload.length ≠ 2 then Result.length.bytes
      else
        match readItem item (byteAt payload 1) p with
        | none => Result.range.bytes
        | some value => Result.ok.bytes ++ payload ++ value

end Sys2Proof.Machine
end

