-- ==== Sys2Proof/Machine/Requests.lean ====
section
/-! DEFINITION. How a command is taken: only while the part runs, and a request only by the command whose row it is
(R165). -/

namespace Sys2Proof.Machine

/-- The command that takes a WRITE SETTING (R172): that of the item's own row where the item has one, and else
WRITE_SETTING, which also answers the refusals that name no item. -/
def writeRow (payload : List Byte) : Instr :=
  if payload.length < 2 then .writeSetting
  else
    match itemOf payload with
    | some item => item.writer
    | none => .writeSetting

/-- The command that takes a waiting request, by the catalogue of section 10.5. -/
def rowOf (f : Frame) : Instr :=
  match f.kind.toNat with
  | 0x01 => .identify
  | 0x02 => .readStatus
  | 0x03 => .takeNotices
  | 0x04 => .readHistory
  | 0x10 => .loadRoll
  | 0x11 => .feedRows
  | 0x12 => .run
  | 0x13 => .pause
  | 0x14 => .stop
  | 0x15 => .setTempo
  | 0x20 => writeRow f.payload
  | 0x21 => .readSetting
  | 0x22 => .armCues
  | 0x23 => .saveSettings
  | 0x24 => .recallSettings
  | 0x30 => .strikeKey
  | 0x31 => .playPattern
  | 0x32 => .cancelPattern
  | 0x33 => .restoreLine
  | 0x3F => .resetPart
  | _ => .unknownKind

/-- The step of a command that only a running part takes; nothing happens while nRESET is low or there is no supply
(R162, R175; log entry 6). -/
def whileOn (act : Part → Part) (s : State) : Host.Outcome State Fault Refusal :=
  .next (if s.part.power = .on then { s with part := act s.part } else s)

/-- The step of a command that names a key line; a line the part does not have stops it (log entry 10). -/
def onKeyLine (line : Nat) (act : KeyNo → Part → Part) (s : State) : Host.Outcome State Fault Refusal :=
  match below 88 line with
  | some k => whileOn (act k) s
  | none => .fault .noSuchLine

/-- The step of a command that names a line; a line the part does not have stops it (log entry 10). -/
def onLine (line : Nat) (act : LineNo → Part → Part) (s : State) : Host.Outcome State Fault Refusal :=
  match below 91 line with
  | some m => whileOn (act m) s
  | none => .fault .noSuchLine

/-- The request that a command takes: the first one waiting, if it is this command's and may be taken (R165). -/
def Part.requestFor (p : Part) (row : Instr) : Option Frame :=
  if p.readyForRequest then p.request.filter fun f => rowOf f = row else none

/-- The step of a request's command: `take` carries the request out and places its reply. Where no such request may
be taken there is nothing to take, and the state stays (log entry 4). -/
def takeRequest (row : Instr) (take : Frame → Part → Part) (s : State) : Host.Outcome State Fault Refusal :=
  whileOn (fun p => match p.requestFor row with | some f => take f p | none => p) s

/-- A request is answered: its reply's payload is placed, and it leaves the buffer (R165). -/
def answer (act : List Byte → Part → List Byte × Part) (f : Frame) (p : Part) : Part :=
  finishRequest (f.reply (act f.payload p).1) (act f.payload p).2

/-- A request of a kind with a fixed length: any other length receives LENGTH (R165). -/
def fixedLength (n : Nat) (act : List Byte → Part → List Byte × Part) (payload : List Byte) (p : Part) :
    List Byte × Part :=
  if payload.length = n then act payload p else (Result.length.bytes, p)

/-- What a write answers, with the reply's payload "the result alone". -/
def Written.alone (w : Written) : List Byte × Part :=
  (w.1.bytes, w.2)

/-- A WRITE SETTING of an item of this size: a value that is not the item's size is refused with LENGTH, and then the
owner's write decides from the index and the value (R172). -/
def itemWrite (item : Item) (write : Nat → List Byte → Part → Written) (payload : List Byte) (p : Part) :
    List Byte × Part :=
  if payload.length = 2 + item.size then (write (byteAt payload 1) (payload.drop 2) p).alone
  else (Result.length.bytes, p)

/-- A WRITE SETTING of a scalar item, its index ignored (section 11.3). -/
def scalarWrite (item : Item) (write : Nat → Part → Written) : List Byte → Part → List Byte × Part :=
  itemWrite item fun _ value => write (fieldAt value 0 2)

/-- A WRITE SETTING of an indexed item with a scalar value. -/
def indexedWrite (item : Item) (write : Nat → Nat → Part → Written) : List Byte → Part → List Byte × Part :=
  itemWrite item fun index value => write index (fieldAt value 0 2)

end Sys2Proof.Machine
end

