-- ==== Sys2Proof/Machine/Clock.lean ====
section
/-! DEFINITION. The part's clock: which event of the part's own is due, and the passing of time when none is (log entries
2 to 6). Bytes on RXD, chain reads, the end of a save, the resets and the supply come from outside alone. -/

namespace Sys2Proof.Machine

/-- Has a time passed since another? -/
def elapsed (since length now : Time) : Bool :=
  decide (length ≤ now - since)

/-! ### The Link Port -/

/-- The queue has a frame to send and TXD is free (R166). -/
def dueFrame (p : Part) : Option Instr :=
  if p.link.queue ≠ [] ∧ p.link.unsent p.now = 0 then some .sendFrame else none

/-- A notice frame is to be placed (R166). -/
def dueNotice (p : Part) : Option Instr :=
  if p.noticePlaceable then some .noticeFramePlace else none

/-- A request may be taken (R165). -/
def dueRequest (p : Part) : Option Instr :=
  if p.readyForRequest then p.request.map rowOf else none

/-- The gap timer of a candidate stands at 2 ms (R163). -/
def dueGap (p : Part) : Option Instr :=
  if p.link.candidate ≠ [] ∧ elapsed p.link.gapStarted (msTime 2) p.now then some .gapTimerExpiry else none

/-- The silence timer stands at LinkSilence, or beyond a LinkSilence that has been written or recalled late: the expiry
is then due at once (R167; DESIGN CHOICE, log entry 33). -/
def dueSilence (p : Part) : Option Instr :=
  if p.settings.linkSilence ≠ 0 ∧ p.link.silenceRunning
      ∧ elapsed p.link.silenceStarted (msTime p.settings.linkSilence) p.now
  then some .hostSilenceExpiry else none

/-! ### Key lines -/

/-- The event of a key line that is due: its kick runs out (R132), a millisecond of its hold has passed (R141), its
hold deadline has come (R134), or its guard has ended (R135). -/
def dueOnKey (p : Part) (k : KeyNo) : Option Instr :=
  let l := p.key k
  match l.state, l.plan with
  | .kick, some plan => if elapsed l.kickStarted plan.kick p.now then some (.kickEnd k.val) else none
  | .hold, some _ =>
    if elapsed l.holdStarted (msTime (l.holdGains + 1)) p.now then some (.holdHeatGain k.val)
    else
      match l.holdDeadline with
      | some deadline => if deadline ≤ p.now then some (.holdDeadline k.val) else none
      | none => none
  | .release, _ =>
    if l.guarding && elapsed l.guardStarted (msTime p.settings.repeatGuard) p.now then some (.guardEnd k.val)
    else none
  | _, _ => none

/-- The first event of the key lines that is due. -/
def dueOnKeys (p : Part) : Option Instr :=
  allKeys.findSome? (dueOnKey p)

/-- The deadline of an entry has come (R119). -/
def dueDeadline (p : Part) : Option Instr :=
  (p.arbiter.wait.find? fun e => decide (e.deadline ≤ p.now)).map fun e => .waitDeadline e.line.val

/-! ### Pedals -/

/-- Does a running timer stand at its length? -/
def timerDone (t : Option LengthTimer) (now : Time) : Bool :=
  match t with
  | some timer => elapsed timer.started (msTime timer.length) now
  | none => false

/-- A pedal's kick or settle has ended (R151, R152). -/
def dueOnPedal (p : Part) (d : Pedal) : Option Instr :=
  let r := p.pedal d
  if r.state = .lifting ∧ timerDone r.kickTimer p.now then some (.pedalKickEnd d)
  else if r.state = .dropping ∧ timerDone r.settleTimer p.now then some (.settleEnd d)
  else none

/-- The first event of the pedals that is due. -/
def dueOnPedals (p : Part) : Option Instr :=
  allPedals.findSome? (dueOnPedal p)

/-! ### The player, the starve timer and the ticks -/

/-- The step timer stands at the step time (R105). -/
def duePattern (p : Part) : Option Instr :=
  match p.player with
  | some a =>
    if elapsed a.timerStarted (msTime a.stepTime) p.now then
      some (if a.current.isSome then .patternStep else .patternEnd)
    else none
  | none => none

/-- The starve timer stands at its StarveHold (R33). -/
def dueStarve (p : Part) : Option Instr :=
  match p.feed.starve with
  | some timer =>
    if p.feed.transport = .starved ∧ elapsed timer.started (msTime timer.hold) p.now then some .starveHoldExpiry
    else none
  | none => none

/-- A periodic tick is due (section "Conventions", Time). -/
def dueTick (p : Part) : Option Instr :=
  if p.drives.nextHeatTick ≤ p.now then some .heatTick
  else if p.expression.nextTick ≤ p.now then some .expressionTick
  else if p.feed.nextTick ≤ p.now then some .feedTick
  else none

/-- The event of the part's own that comes next, if one is due: the part leaves the order of events that fall together
open, and this is one order it allows (DESIGN CHOICE, log entry 6). -/
def dueEvent (p : Part) : Option Instr :=
  if p.power = .on then
    [dueNotice, dueFrame, dueRequest, dueGap, dueSilence, dueOnKeys, dueDeadline, dueOnPedals, duePattern, dueStarve,
      dueTick].findSome? fun due => due p
  else none

/-- One kick step of 50 µs passes. -/
def passTime (p : Part) : Part :=
  { p with now := p.now + 1 }

end Sys2Proof.Machine
end

