-- ==== Sys2Proof/Machine/Status.lean ====
section
/-! DEFINITION. What the host reads of the part: its identity, the status snapshot, the strike history and the notices
(R171, R126, R170). -/

namespace Sys2Proof.Machine

/-- One bit of a flags byte. -/
def bitIf (flag : Bool) (bit : Nat) : Nat :=
  if flag then 2 ^ bit else 0

/-- The reply payload of IDENTIFY (R171): the part code, the revision and the capacities. -/
def identity : List Byte :=
  Result.ok.bytes ++ littleEndian 2 0x4B88 ++ littleEndian 1 1 ++ littleEndian 1 112 ++ littleEndian 1 91
    ++ littleEndian 2 Config.ringRows ++ littleEndian 1 Config.waitEntries ++ littleEndian 1 Config.historyRecords
    ++ littleEndian 1 4

/-! ### READ STATUS (R171) -/

/-- Transport, head row, fraction, Q, T, S and d. -/
def transportStatus (f : FeedClock) : List Byte :=
  littleEndian 1 f.transport.code ++ littleEndian 4 f.headRow ++ littleEndian 2 f.fraction ++ littleEndian 2 f.q
    ++ littleEndian 2 f.tempo ++ littleEndian 2 f.trim ++ littleEndian 4 (saturate f.rowsTaken)

/-- Ring occupancy and next-expected, then L. -/
def ringStatus (p : Part) : List Byte :=
  littleEndian 2 p.ring.rows.length ++ littleEndian 4 p.ring.nextExpected ++ littleEndian 4 p.pedals.lead.next

/-- The input levels and the auto demand of a half in one byte. -/
def levelBits (x : HalfExpression) : Nat :=
  bitIf x.levels.step1 0 + bitIf x.levels.step2 1 + bitIf x.levels.step4 2 + bitIf x.levels.swell 3
    + bitIf x.levels.quick 4 + bitIf x.levels.accent 5 + bitIf x.autoUp 6

/-- A half: shade, swelled flag, rail mode, input levels and auto demand. -/
def halfStatus (h : Half) (p : Part) : List Byte :=
  let x := p.expression.halves.get h
  littleEndian 2 x.shade ++ [flagByte x.swelled] ++ littleEndian 1 (p.settings.railMode.get h).code
    ++ littleEndian 1 (levelBits x)

/-- A pedal: its state and its marks, the faulted mark in bit 7 and, for the damper, depth PART in bit 6. -/
def pedalStatus (d : Pedal) (p : Part) : List Byte :=
  let r := p.pedal d
  littleEndian 1 r.state.code
    ++ littleEndian 1 (bitIf r.faulted 7 + bitIf (d == .damper && r.depth == .part) 6)

/-- A wait list entry: line, priority, cost and age in ms, saturating at 255. -/
def entryStatus (now : Time) (e : WaitEntry) : List Byte :=
  littleEndian 1 e.line.val ++ littleEndian 1 e.priority ++ littleEndian 1 e.cost
    ++ littleEndian 1 (min (wholeMs e.entered now) 255)

/-- The units in use and the wait list, head first. -/
def arbiterStatus (p : Part) : List Byte :=
  littleEndian 1 p.arbiter.unitsInUse ++ littleEndian 1 p.arbiter.wait.length
    ++ p.arbiter.wait.flatMap (entryStatus p.now)

/-- The fault kind of a key line, reported when its state is FAULTED (R127). -/
def KeyLine.faultCode (l : KeyLine) : Nat :=
  if l.state = .faulted then l.fault.code else 0

/-- A key line: state, fault kind and H. -/
def keyStatus (l : KeyLine) : List Byte :=
  littleEndian 1 l.state.code ++ littleEndian 1 l.faultCode ++ littleEndian 2 l.heat

/-- The counters, in their order. -/
def counterStatus (p : Part) : List Byte :=
  ([p.tracks.specks, p.tracks.patches, p.link.discarded, p.link.overruns] ++ p.arbiter.outcomes.toList
    ++ [p.arbiter.latePedals, p.arbiter.withdrawals, p.drives.holdCuts, p.feed.starveReleases]).flatMap
    (littleEndian 4)

/-- The reply payload of READ STATUS, a snapshot taken as one event. -/
def statusSnapshot (p : Part) : List Byte :=
  Result.ok.bytes ++ transportStatus p.feed ++ ringStatus p ++ halfStatus .bass p ++ halfStatus .treble p
    ++ pedalStatus .damper p ++ pedalStatus .bassRail p ++ pedalStatus .trebleRail p ++ arbiterStatus p
    ++ p.drives.keys.toList.flatMap keyStatus ++ counterStatus p

/-! ### READ HISTORY (R126) -/

/-- The flags byte of a record: accent, clamped, derated, short and row-present as bits 0 to 4 (R125). -/
def HistoryRecord.flagBits (r : HistoryRecord) : Nat :=
  bitIf r.flags.accent 0 + bitIf r.flags.clamped 1 + bitIf r.flags.derated 2 + bitIf r.flags.short 3
    + bitIf r.rowPresent 4

/-- A record as it is carried, 15 bytes (section 10.6, R125). -/
def HistoryRecord.bytes (r : HistoryRecord) : List Byte :=
  littleEndian 2 r.sequence ++ littleEndian 1 r.line.val ++ littleEndian 1 r.origin.code ++ littleEndian 4 r.onsetRow
    ++ littleEndian 1 r.outcome.code.val ++ littleEndian 2 r.shade ++ littleEndian 2 r.kick
    ++ littleEndian 1 r.waited ++ littleEndian 1 r.flagBits

/-- The reply payload of an admitted READ HISTORY: the number of records, the next sequence number, the records. -/
def historyReply (a : KickArbiter) : List Byte :=
  Result.ok.bytes ++ littleEndian 1 a.history.length ++ littleEndian 2 a.nextSequence
    ++ a.history.flatMap HistoryRecord.bytes

/-- READ HISTORY (R126): the reply, and the ring emptied if the clear flag is 1. -/
def takeHistory (payload : List Byte) (p : Part) : List Byte × Part :=
  if payload.length ≠ 1 then (Result.length.bytes, p)
  else if 1 < byteAt payload 0 then (Result.range.bytes, p)
  else
    (historyReply p.arbiter,
      if byteAt payload 0 = 1 then { p with arbiter := { p.arbiter with history := [] } } else p)

/-! ### TAKE NOTICES (R170) -/

/-- What a TAKE NOTICES payload names: sources, slots and lines. Bits beyond the last of each set are ignored. -/
structure NoticeNames where
  sources : BitVec 13
  slots : BitVec 4
  faults : LineSet
  restings : KeySet
  deriving DecidableEq, Repr

/-- Reads a TAKE NOTICES payload, laid out as the notice payload (section 10.6). -/
def NoticeNames.read (bs : List Byte) : NoticeNames :=
  { sources := BitVec.ofNat 13 (fieldAt bs 0 2)
    slots := BitVec.ofNat 4 (fieldAt bs 2 1)
    faults := BitVec.ofNat 91 (fieldAt bs 3 12)
    restings := BitVec.ofNat 88 (fieldAt bs 15 11) }

/-- Does a set of sources name this one? -/
def namesSource (sources : BitVec 13) (n : NoticeSource) : Bool :=
  sources.getLsbD n.bit

/-- What is left of a set after a clear: nothing if its source is named, and else the members not named (R170). -/
def leftOf {w : Nat} (whole : Bool) (named s : BitVec w) : BitVec w :=
  if whole then 0 else s &&& ~~~named

/-- The notices after the clear (R170, steps 2 and 3). -/
def Notices.cleared (n : Notices) (names : NoticeNames) : Notices :=
  { n with
    plain := n.plain &&& ~~~names.sources
    cueSet := leftOf (namesSource names.sources .cueFired) names.slots n.cueSet
    faultSet := leftOf (namesSource names.sources .lineFault) names.faults n.faultSet
    restingSet := leftOf (namesSource names.sources .lineResting) names.restings n.restingSet }

/-- A notice frame is asked for if the summary is not empty (R170, step 4). -/
def askIfPending (p : Part) : Part :=
  if p.notices.summary = 0 then p else { p with link := p.link.askNotice }

/-- TAKE NOTICES (R170): the reply shows the flags and sets as they stood, then what is named is cleared, and a notice
frame is asked for if the summary is not empty after that. -/
def takeNoticeNames (payload : List Byte) (p : Part) : List Byte × Part :=
  if payload.length ≠ 26 then (Result.length.bytes, p)
  else
    (Result.ok.bytes ++ p.notices.payload,
      askIfPending { p with notices := p.notices.cleared (NoticeNames.read payload) })

end Sys2Proof.Machine
end

