-- ==== Sys2Proof/Machine/InfoCommands.lean ====
section
/-! DEFINITION. The requests that read the part: IDENTIFY, READ STATUS, TAKE NOTICES, READ HISTORY and READ SETTING
(R171, R170, R126, R172). -/

namespace Sys2Proof.Machine

/-- IDENTIFY (R171). -/
def execIdentify (s : State) : Host.Outcome State Fault Refusal :=
  takeRequest .identify (answer (fixedLength 0 fun _ p => (identity, p))) s

/-- READ_STATUS (R171). -/
def execReadStatus (s : State) : Host.Outcome State Fault Refusal :=
  takeRequest .readStatus (answer (fixedLength 0 fun _ p => (statusSnapshot p, p))) s

/-- TAKE_NOTICES (R170). -/
def execTakeNotices (s : State) : Host.Outcome State Fault Refusal :=
  takeRequest .takeNotices (answer takeNoticeNames) s

/-- READ_HISTORY (R126). -/
def execReadHistory (s : State) : Host.Outcome State Fault Refusal :=
  takeRequest .readHistory (answer takeHistory) s

/-- READ_SETTING (R172). -/
def execReadSetting (s : State) : Host.Outcome State Fault Refusal :=
  takeRequest .readSetting (answer fun payload p => (readSettingReply payload p, p)) s

end Sys2Proof.Machine
end

