-- ==== Sys2Proof/Machine/LineCommands.lean ====
section
/-! DEFINITION. The commands of the lines: the timers of key lines, pedals and entries, the status chain, and RESTORE LINE
(chapters 7 to 9). -/

namespace Sys2Proof.Machine

/-! ### Key lines and entries: a timer's command says that the timer has reached its length, and does nothing where the
state has no such timer (log entry 9) -/

/-- KICK_END (R132). -/
def execKickEnd (line : Nat) (s : State) : Host.Outcome State Fault Refusal :=
  onKeyLine line kickRunsOut s

/-- HOLD_HEAT_GAIN (R141). -/
def execHoldHeatGain (line : Nat) (s : State) : Host.Outcome State Fault Refusal :=
  onKeyLine line holdGains s

/-- HOLD_DEADLINE (R134). -/
def execHoldDeadline (line : Nat) (s : State) : Host.Outcome State Fault Refusal :=
  onKeyLine line holdEnds s

/-- GUARD_END (R136). -/
def execGuardEnd (line : Nat) (s : State) : Host.Outcome State Fault Refusal :=
  onKeyLine line guardEnds s

/-- The deadline of a line's entry passes, if it has one (R119). -/
def lineDeadline (line : LineNo) (p : Part) : Part :=
  match p.entryOf line with
  | some e => expireEntry e p
  | none => p

/-- WAIT_DEADLINE (R119). -/
def execWaitDeadline (line : Nat) (s : State) : Host.Outcome State Fault Refusal :=
  onLine line lineDeadline s

/-! ### Pedals -/

/-- PEDAL_KICK_END (R151). -/
def execPedalKickEnd (pedal : Pedal) (s : State) : Host.Outcome State Fault Refusal :=
  whileOn (liftEnds pedal) s

/-- SETTLE_END (R152). -/
def execSettleEnd (pedal : Pedal) (s : State) : Host.Outcome State Fault Refusal :=
  whileOn (settleEnds pedal) s

/-! ### The status chain (R144) -/

/-- Every line, in ascending order. -/
def allLines : List LineNo :=
  List.finRange 91

/-- The kind that the bits of a read report for a line (R144). -/
def reportedKind (bits : BitVec 182) (line : LineNo) : FaultKind :=
  FaultKind.ofCode (chainPair bits line.val)

/-- A fault report is handed to a line (R145, R146). -/
def reportFault (line : LineNo) (kind : FaultKind) (p : Part) : Part :=
  match lineKey line with
  | .inl k => faultKey k kind p
  | .inr d => faultPedal d kind p

/-- A read of the chain (R144): the latest kinds are replaced, and each line reported faulty is handed its report, in
any order (log entry 1). -/
def readChain (bits : BitVec 182) (p : Part) : Part :=
  inAnyOrder (allLines.filter fun m => reportedKind bits m != .none) (fun m => reportFault m (reportedKind bits m))
    { p with drives := { p.drives with reported := Vector.ofFn (reportedKind bits) } }

/-- STATUS_CHAIN_READ (R144). -/
def execStatusChainRead (bits : BitVec 182) (s : State) : Host.Outcome State Fault Refusal :=
  whileOn (readChain bits) s

/-! ### RESTORE LINE (R147) -/

/-- Is the line faulted: a key line in FAULTED, a pedal line whose fault kind is set (R147)? -/
def Part.lineFaulted (p : Part) (line : LineNo) : Bool :=
  match lineKey line with
  | .inl k => (p.key k).state == .faulted
  | .inr d => (p.pedal d).fault != .none

/-- An admitted restore. -/
def restoreNow (line : LineNo) (p : Part) : Part :=
  match lineKey line with
  | .inl k => restoreKey k p
  | .inr d => restorePedal d p

/-- RESTORE LINE: LENGTH, RANGE, STATE and FAULT in that order (R147). -/
def restoreLine (payload : List Byte) (p : Part) : List Byte × Part :=
  if payload.length ≠ 1 then (Result.length.bytes, p)
  else
    match below 91 (byteAt payload 0) with
    | none => (Result.range.bytes, p)
    | some line =>
      if p.lineFaulted line then
        if p.drives.reported[line] = .none then (Result.ok.bytes, restoreNow line p) else (Result.fault.bytes, p)
      else (Result.state.bytes, p)

/-- RESTORE_LINE (R147). -/
def execRestoreLine (s : State) : Host.Outcome State Fault Refusal :=
  takeRequest .restoreLine (answer restoreLine) s

end Sys2Proof.Machine
end

