-- ==== Sys2Proof/Machine/LinkCommands.lean ====
section
/-! DEFINITION. The commands of the Link Port: what RXD and its timers bring, what TXD takes, and the request of an unknown
kind (chapter 10). -/

namespace Sys2Proof.Machine

/-- RECEIVE_BYTE (R163): a byte with its stop bit reaches the receiver; one without is dropped (R162). -/
def execReceiveByte (byte : Byte) (stop : Bool) (s : State) : Host.Outcome State Fault Refusal :=
  whileOn (fun p => if stop then acceptByte byte p else p) s

/-- GAP_TIMER_EXPIRY (R163): in HUNT no gap timer runs, and nothing expires. -/
def execGapTimerExpiry (s : State) : Host.Outcome State Fault Refusal :=
  whileOn expireGap s

/-- The silence timer reaches LinkSilence (R167): it stops, and in RUNNING or STARVED the Feed Clock takes a PAUSE and
raises LINK_SILENCE (R36). With LinkSilence 0, or with the timer stopped, no expiry comes. -/
def expireSilence (p : Part) : Part :=
  if p.settings.linkSilence = 0 ∨ p.link.silenceRunning = false then p
  else
    let stopped := { p with link := { p.link with silenceRunning := false } }
    if p.inPlay then raise .linkSilence (pauseTransport stopped) else stopped

/-- HOST_SILENCE_EXPIRY (R167). -/
def execHostSilenceExpiry (s : State) : Host.Outcome State Fault Refusal :=
  whileOn expireSilence s

/-- Has the frame on TXD been sent whole (R166)? -/
def Part.lineFree (p : Part) : Bool :=
  p.link.unsent p.now == 0

/-- SEND_FRAME (R166): a frame is never interrupted, so the next begins only when the one before it has been sent. -/
def execSendFrame (s : State) : Host.Outcome State Fault Refusal :=
  whileOn (fun p => if p.lineFree then sendNext p else p) s

/-- NOTICE_FRAME_PLACE (R166). -/
def execNoticeFramePlace (s : State) : Host.Outcome State Fault Refusal :=
  whileOn placeNotice s

/-- The reply to a request of an unknown kind: kind 0xFF and the result alone (R165). -/
def unknownKindReply (f : Frame) : Frame :=
  { kind := 0xFF, tag := f.tag, payload := Result.unknownKind.bytes }

/-- UNKNOWN_KIND (R165). -/
def execUnknownKind (s : State) : Host.Outcome State Fault Refusal :=
  takeRequest .unknownKind (fun f p => finishRequest (unknownKindReply f) p) s

end Sys2Proof.Machine
end

