-- ==== Sys2Proof/Machine/RollCommands.lean ====
section
/-! DEFINITION. The requests of the Row Ring and of the Feed Clock: LOAD ROLL, FEED ROWS, RUN, PAUSE, STOP and SET TEMPO
(chapters 1 and 2). -/

namespace Sys2Proof.Machine

/-! ### LOAD ROLL -/

/-- The reply payload of LOAD ROLL, whatever the result: the result and Q (R24, section 10.6). -/
def loadReply (r : Result) (p : Part) : List Byte :=
  r.bytes ++ littleEndian 2 p.feed.q

/-- LOAD ROLL (R24, R25): LENGTH, STATE and RANGE in that order, and then the load. -/
def loadRoll (payload : List Byte) (p : Part) : List Byte × Part :=
  let r := LoadRequest.read payload
  if payload.length ≠ 14 then (loadReply .length p, p)
  else if p.inPlay then (loadReply .state p, p)
  else if !r.legal then (loadReply .range p, p)
  else
    let loaded := loadTransport r.startRow r.endRow r.pitch r.tempo r.buildUp p
    (loadReply .ok loaded, loaded)

/-- LOAD_ROLL (R25). -/
def execLoadRoll (s : State) : Host.Outcome State Fault Refusal :=
  takeRequest .loadRoll (answer loadRoll) s

/-! ### FEED ROWS -/

/-- The reply payload of FEED ROWS: the result, the accepted, skipped and beyond-end counts, the free space and
next-expected (R12, section 10.6). -/
def feedReply (r : Result) (accepted skipped beyond : Nat) (ring : RowRing) : List Byte :=
  r.bytes ++ littleEndian 2 accepted ++ littleEndian 2 skipped ++ littleEndian 2 beyond ++ littleEndian 2 ring.free
    ++ littleEndian 4 ring.nextExpected

/-- The stages of FEED ROWS after expansion (R8 to R11): skip, gap, beyond the end, store; and the arrival of what was
stored (R13). -/
def storeBatch (batch : List StoredRow) (p : Part) : List Byte × Part :=
  let remaining := p.ring.unskipped batch
  if p.ring.gap remaining then (feedReply .gap 0 0 0 p.ring, p)
  else
    let kept := withinRoll p.feed.endRow remaining
    let accepted := min kept.length p.ring.free
    let skipped := batch.length - remaining.length
    let beyond := remaining.length - kept.length
    let result := if accepted < kept.length then Result.partially else Result.ok
    if accepted = 0 then (feedReply result 0 skipped beyond p.ring, p)
    else
      let ring := (p.ring.store kept).marked p.settings.ringLow
      (feedReply result accepted skipped beyond ring, rowsArrive { p with ring := ring })

/-- FEED ROWS (R5 to R13). -/
def feedRows (payload : List Byte) (p : Part) : List Byte × Part :=
  let r := FeedRequest.read payload
  if payload.length < 8 then (feedReply .length 0 0 0 p.ring, p)
  else if p.feed.transport = .unloaded ∨ p.feed.transport = .ended then (feedReply .state 0 0 0 p.ring, p)
  else if !r.legal then (feedReply .range 0 0 0 p.ring, p)
  else
    match expandRecords r.records.length p.ring.reference r.count r.records with
    | none => (feedReply .length 0 0 0 p.ring, p)
    | some holes => storeBatch (numberRows r.firstRow holes) p

/-- FEED_ROWS (R11). -/
def execFeedRows (s : State) : Host.Outcome State Fault Refusal :=
  takeRequest .feedRows (answer feedRows) s

/-! ### RUN, PAUSE and STOP -/

/-- RUN, by the transport state (R27). -/
def runRequest (p : Part) : List Byte × Part :=
  match p.feed.transport with
  | .loaded | .paused => (Result.ok.bytes, startRunning p)
  | .running | .starved => (Result.ok.bytes, p)
  | .unloaded | .ended => (Result.state.bytes, p)

/-- RUN (R27). -/
def execRun (s : State) : Host.Outcome State Fault Refusal :=
  takeRequest .run (answer (fixedLength 0 fun _ => runRequest)) s

/-- PAUSE, by the transport state (R28). -/
def pauseRequest (p : Part) : List Byte × Part :=
  match p.feed.transport with
  | .running | .starved => (Result.ok.bytes, pauseTransport p)
  | .paused => (Result.ok.bytes, p)
  | .unloaded | .loaded | .ended => (Result.state.bytes, p)

/-- PAUSE (R28). -/
def execPause (s : State) : Host.Outcome State Fault Refusal :=
  takeRequest .pause (answer (fixedLength 0 fun _ => pauseRequest)) s

/-- STOP, by the transport state (R29). -/
def stopRequest (p : Part) : List Byte × Part :=
  match p.feed.transport with
  | .unloaded => (Result.ok.bytes, p)
  | .loaded | .running | .paused | .starved | .ended => (Result.ok.bytes, stopTransport p)

/-- STOP (R29). -/
def execStop (s : State) : Host.Outcome State Fault Refusal :=
  takeRequest .stop (answer (fixedLength 0 fun _ => stopRequest)) s

/-! ### SET TEMPO -/

/-- The reply payload of SET TEMPO: the result, T, S and Q (R30, section 10.6). -/
def tempoReply (r : Result) (f : FeedClock) : List Byte :=
  r.bytes ++ littleEndian 2 f.tempo ++ littleEndian 2 f.trim ++ littleEndian 2 f.q

/-- The Feed Clock with this tempo and trim; Q_base and Q are recomputed if either has changed (R23, R30). -/
def FeedClock.withTempo (f : FeedClock) (tempo trim : Nat) : FeedClock :=
  if tempo = f.tempo ∧ trim = f.trim then f else { f with tempo := tempo, trim := trim }.recompute

/-- Is a present value outside a range? -/
def outside (low high : Nat) : Option Nat → Bool
  | none => false
  | some v => decide (v < low ∨ high < v)

/-- SET TEMPO (R30). -/
def setTempo (payload : List Byte) (p : Part) : List Byte × Part :=
  let r := TempoRequest.read payload
  if p.feed.transport = .unloaded then (tempoReply .state p.feed, p)
  else if outside 10 200 r.tempo then (tempoReply .range p.feed, p)
  else
    let trim := (r.trim.map p.settings.clampTrim).getD p.feed.trim
    let feed := p.feed.withTempo (r.tempo.getD p.feed.tempo) trim
    let clamped := r.trim.isSome && r.trim != some trim
    (tempoReply (if clamped then .clamped else .ok) feed, p.setFeed feed)

/-- SET_TEMPO (R30). -/
def execSetTempo (s : State) : Host.Outcome State Fault Refusal :=
  takeRequest .setTempo (answer (fixedLength 5 setTempo)) s

end Sys2Proof.Machine
end

