-- ==== Sys2Proof/Machine/SettingCommands.lean ====
section
/-! DEFINITION. The commands that write the settings, one for each row of the table, and ARM CUES (R172, R63). Each hands
the value to its item's owner. -/

namespace Sys2Proof.Machine

/-- WRITE_SETTING (R172): the items without a row of their own, and the refusals that name no item. -/
def execWriteSetting (s : State) : Host.Outcome State Fault Refusal :=
  takeRequest .writeSetting (answer fun payload p => (writeSettingItem payload p).alone) s

/-- WRITE_RING_LOW (R17). -/
def execWriteRingLow (s : State) : Host.Outcome State Fault Refusal :=
  takeRequest .writeRingLow (answer (scalarWrite .ringLow writeRingLowValue)) s

/-- WRITE_TRACK_MAP (R40). -/
def execWriteTrackMap (s : State) : Host.Outcome State Fault Refusal :=
  takeRequest .writeTrackMap (answer (itemWrite .trackMap writeTrackMapValue)) s

/-- WRITE_ON_ROWS (R50). -/
def execWriteOnRows (s : State) : Host.Outcome State Fault Refusal :=
  takeRequest .writeOnRows (answer (scalarWrite .onRows writeOnRowsValue)) s

/-- WRITE_OFF_ROWS (R50). -/
def execWriteOffRows (s : State) : Host.Outcome State Fault Refusal :=
  takeRequest .writeOffRows (answer (scalarWrite .offRows writeOffRowsValue)) s

/-- WRITE_CUE_SLOT (R60). -/
def execWriteCueSlot (s : State) : Host.Outcome State Fault Refusal :=
  takeRequest .writeCueSlot (answer (itemWrite .cueSlot writeCueSlotValue)) s

/-- WRITE_RAIL_MODE (R84). -/
def execWriteRailMode (s : State) : Host.Outcome State Fault Refusal :=
  takeRequest .writeRailMode (answer (indexedWrite .railMode writeRailModeValue)) s

/-- WRITE_REPEAT_GUARD (R135). -/
def execWriteRepeatGuard (s : State) : Host.Outcome State Fault Refusal :=
  takeRequest .writeRepeatGuard (answer (scalarWrite .repeatGuard writeRepeatGuardValue)) s

/-- WRITE_PWM_BASE (R128). -/
def execWritePwmBase (s : State) : Host.Outcome State Fault Refusal :=
  takeRequest .writePwmBase (answer (scalarWrite .pwmBase writePwmBaseValue)) s

/-- WRITE_HEAT_SOFT (R143). -/
def execWriteHeatSoft (s : State) : Host.Outcome State Fault Refusal :=
  takeRequest .writeHeatSoft (answer (scalarWrite .heatSoft writeHeatSoftValue)) s

/-- WRITE_HEAT_HARD (R143). -/
def execWriteHeatHard (s : State) : Host.Outcome State Fault Refusal :=
  takeRequest .writeHeatHard (answer (scalarWrite .heatHard writeHeatHardValue)) s

/-- WRITE_DAMPER_HOLD_FULL (R161). -/
def execWriteDamperHoldFull (s : State) : Host.Outcome State Fault Refusal :=
  takeRequest .writeDamperHoldFull (answer (scalarWrite .damperHoldFull writeDamperHoldFullValue)) s

/-- WRITE_DAMPER_HOLD_PART (R161). -/
def execWriteDamperHoldPart (s : State) : Host.Outcome State Fault Refusal :=
  takeRequest .writeDamperHoldPart (answer (scalarWrite .damperHoldPart writeDamperHoldPartValue)) s

/-- WRITE_RAIL_HOLD (R161). -/
def execWriteRailHold (s : State) : Host.Outcome State Fault Refusal :=
  takeRequest .writeRailHold (answer (scalarWrite .railHold writeRailHoldValue)) s

/-- WRITE_PEDAL_LEAD (R161). -/
def execWritePedalLead (s : State) : Host.Outcome State Fault Refusal :=
  takeRequest .writePedalLead (answer (scalarWrite .pedalLead writePedalLeadValue)) s

/-- WRITE_NOTICE_MASK (R169). -/
def execWriteNoticeMask (s : State) : Host.Outcome State Fault Refusal :=
  takeRequest .writeNoticeMask (answer (scalarWrite .noticeMask writeNoticeMaskValue)) s

/-- WRITE_LINE_FAULT_MASK (R169). -/
def execWriteLineFaultMask (s : State) : Host.Outcome State Fault Refusal :=
  takeRequest .writeLineFaultMask (answer (indexedWrite .lineFaultMask writeLineFaultMaskValue)) s

/-- WRITE_LINE_RESTING_MASK (R169). -/
def execWriteLineRestingMask (s : State) : Host.Outcome State Fault Refusal :=
  takeRequest .writeLineRestingMask (answer (indexedWrite .lineRestingMask writeLineRestingMaskValue)) s

/-- ARM_CUES (R63). -/
def execArmCues (s : State) : Host.Outcome State Fault Refusal :=
  takeRequest .armCues (answer (fixedLength 0 fun _ p => (Result.ok.bytes, armAllCues p))) s

end Sys2Proof.Machine
end

