-- ==== Sys2Proof/Machine/StoreCommands.lean ====
section
/-! DEFINITION. The settings store, the resets and the supply: SAVE SETTINGS, RECALL SETTINGS, RESET PART, the pin reset
and the loss of power (R173 to R176). -/

namespace Sys2Proof.Machine

/-! ### Saving (R173) -/

/-- SAVE SETTINGS is taken: it is refused at once, or the save of the settings as they stand begins, its reply to come
when the save ends. -/
def beginSave (f : Frame) (p : Part) : Part :=
  if f.payload.length ≠ 0 then finishRequest (f.reply Result.length.bytes) p
  else if p.inPlay then finishRequest (f.reply Result.state.bytes) p
  else { p with saving := some p.settings }

/-- SAVE_SETTINGS (R173). -/
def execSaveSettings (s : State) : Host.Outcome State Fault Refusal :=
  takeRequest .saveSettings beginSave s

/-- The image that a save leaves: a whole one, or one that fails its check. -/
def savedImage (good : Bool) (t : Settings) : StoreImage :=
  if good then StoreImage.of t else StoreImage.spoilt t

/-- A save ends (R173): the image stands in the store, and the reply says whether it passed its check. When it ends, and
how, comes from outside (log entry 21). -/
def endSave (good : Bool) (p : Part) : Part :=
  match p.saving, p.request with
  | some t, some f =>
    finishRequest (f.reply (if good then Result.ok else Result.storeError).bytes)
      { p with saving := none, store := savedImage good t }
  | _, _ => p

/-- SAVE_SETTINGS_DONE (R173). -/
def execSaveSettingsDone (good : Bool) (s : State) : Host.Outcome State Fault Refusal :=
  whileOn (endSave good) s

/-- A save under way is cut short: the image it leaves fails its check (R173; log entry 26). -/
def cutSave (p : Part) : Part :=
  match p.saving with
  | some t => { p with saving := none, store := StoreImage.spoilt t }
  | none => p

/-! ### Recalling (R174) -/

/-- A successful recall: every working setting is replaced, and each owner takes its recalled values (log entry 14). -/
def recallAll (t : Settings) (p : Part) : Part :=
  let loaded := rebaseDrives (p.withSettings fun _ => t)
  let marked := { loaded with ring := loaded.ring.marked t.ringLow }
  let decoded := resetLead (levelRefresh (closeTracks marked))
  let railed := handRailMode .treble (handRailMode .bass (disarmCues (clearCueRuns decoded)))
  applyRailHold (applyHoldPart (applyHoldFull (endElapsedGuards (updateAllResting railed))))

/-- RECALL SETTINGS (R174). -/
def recallSettings (p : Part) : List Byte × Part :=
  if p.inPlay || p.kicking then (Result.state.bytes, p)
  else if p.store.passes then (Result.ok.bytes, recallAll p.store.settings p)
  else (Result.storeError.bytes, p)

/-- RECALL_SETTINGS (R174). -/
def execRecallSettings (s : State) : Host.Outcome State Fault Refusal :=
  takeRequest .recallSettings (answer (fixedLength 0 fun _ => recallSettings)) s

/-! ### Resets and the supply -/

/-- The soft reset (R176), its parts in the order of the rule's list (log entry 16). -/
def softReset (p : Part) : Part :=
  let released := dropAllPedals (restoreAllPedals (releaseKeyLines true p))
  let unloaded := unloadRoll (released.setFeed released.feed.unload)
  raise .started { unloaded with cues := { unloaded.cues with valid := false } }

/-- RESET PART is taken: its reply is placed first, and the soft reset follows (R165, R176). -/
def resetPart (f : Frame) (p : Part) : Part :=
  if f.payload.length ≠ 0 then finishRequest (f.reply Result.length.bytes) p
  else softReset (finishRequest (f.reply Result.ok.bytes) p)

/-- RESET_PART (R176). -/
def execResetPart (s : State) : Host.Outcome State Fault Refusal :=
  takeRequest .resetPart resetPart s

/-- RESET_ASSERTED (R175): nRESET falls and is held low; a save under way is cut short (R173). -/
def execResetAsserted (s : State) : Host.Outcome State Fault Refusal :=
  whileOn (fun p => { cutSave p with power := .held }) s

/-- The pin reset (R175), which also ends a save that was under way. -/
def pinResetPart (rate1 rate0 : Bool) (p : Part) : Part :=
  Part.afterPinReset (cutSave p).store rate1 rate0 p.now p.choices

/-- PIN_RESET (R175), at power-up or when nRESET rises; the model's clock runs on (log entry 29). -/
def execPinReset (rate1 rate0 : Bool) (s : State) : Host.Outcome State Fault Refusal :=
  .next { s with part := pinResetPart rate1 rate0 s.part }

/-- POWER_FAIL (R173): all activity ends, and a save under way leaves an image that fails its check. -/
def execPowerFail (s : State) : Host.Outcome State Fault Refusal :=
  .next { s with part := { cutSave s.part with power := .off } }

end Sys2Proof.Machine
end

