-- ==== Sys2Proof/Machine/StrikeCommands.lean ====
section
/-! DEFINITION. The host's strikes and the pattern player: STRIKE KEY, PLAY PATTERN, CANCEL PATTERN and the player's step
timer (sections 6.8 and 6.9). -/

namespace Sys2Proof.Machine

/-! ### STRIKE KEY -/

/-- The limit of a direct hold in ms: HoldLimit times 1000 (R101). -/
def Settings.holdCap (t : Settings) : Nat :=
  1000 * t.holdLimit

/-- The disposition code of a strike: 0 PLANNED, or the code of the drop outcome (section 10.6). -/
def dispositionCode : Option StrikeOutcome → Nat
  | none => 0
  | some outcome => outcome.code.val

/-- The reply payload of an admitted STRIKE KEY (R102, section 10.6). -/
def strikeReply (r : Result) (holdTime : Nat) (dropped : Option StrikeOutcome) (plan : Plan) : List Byte :=
  r.bytes ++ littleEndian 2 holdTime ++ littleEndian 1 (dispositionCode dropped) ++ littleEndian 2 plan.shade
    ++ littleEndian 2 plan.kick
    ++ [BitVec.ofNat 8 ((if plan.flags.clamped then 2 else 0) + (if plan.flags.derated then 4 else 0))]

/-- An admitted STRIKE KEY: the hold time is clamped, the onset is taken, and the reply tells what was planned
(R101, R102). -/
def strikeNow (key : KeyNo) (shade holdTime : Nat) (p : Part) : List Byte × Part :=
  let hold := min holdTime p.settings.holdCap
  let onset := directOnset key .direct shade hold p
  (strikeReply (if hold < holdTime then .clamped else .ok) hold (dropOutcome key p) (onsetPlan onset p),
    takeOnset onset p)

/-- STRIKE KEY: LENGTH, STATE and RANGE in that order (R101). -/
def strikeKey (payload : List Byte) (p : Part) : List Byte × Part :=
  let r := StrikeRequest.read payload
  if payload.length ≠ 5 then (Result.length.bytes, p)
  else if p.inPlay then (Result.state.bytes, p)
  else
    match below 88 r.key with
    | some key => if r.shade ≤ 1023 then strikeNow key r.shade r.holdTime p else (Result.range.bytes, p)
    | none => (Result.range.bytes, p)

/-- STRIKE_KEY (R101). -/
def execStrikeKey (s : State) : Host.Outcome State Fault Refusal :=
  takeRequest .strikeKey (answer strikeKey) s

/-! ### The pattern player -/

/-- The pattern that an admitted PLAY PATTERN starts (R104). -/
def newPattern (key : KeyNo) (r : PatternRequest) (now : Time) : Pattern :=
  { key := key
    stepTime := r.stepTime
    steps := r.steps.map stepOf
    repeatCount := r.repeatCount
    current := some 0
    repeats := 0
    stepsTaken := 0
    timerStarted := now }

/-- PLAY PATTERN: LENGTH, STATE and RANGE in that order; then the pattern replaces any in progress, and step 0 is taken
at once (R104). -/
def playPattern (payload : List Byte) (p : Part) : List Byte × Part :=
  let r := PatternRequest.read payload
  if !r.fits payload then (Result.length.bytes, p)
  else if p.inPlay then (Result.state.bytes, p)
  else
    match below 88 r.key with
    | some key =>
      if r.legal then
        (Result.ok.bytes ++ [flagByte p.player.isSome],
          takePatternStep { cancelPlayer p with player := some (newPattern key r p.now) })
      else (Result.range.bytes, p)
    | none => (Result.range.bytes, p)

/-- PLAY_PATTERN (R104). -/
def execPlayPattern (s : State) : Host.Outcome State Fault Refusal :=
  takeRequest .playPattern (answer playPattern) s

/-- The steps taken by a pattern in progress, 0 if there is none. -/
def stepsTakenBy : Option Pattern → Nat
  | none => 0
  | some a => a.stepsTaken

/-- CANCEL PATTERN (R107). -/
def cancelPattern (payload : List Byte) (p : Part) : List Byte × Part :=
  if payload.length ≠ 0 then (Result.length.bytes, p)
  else
    (Result.ok.bytes ++ [flagByte p.player.isSome] ++ littleEndian 2 (stepsTakenBy p.player), cancelPlayer p)

/-- CANCEL_PATTERN (R107). -/
def execCancelPattern (s : State) : Host.Outcome State Fault Refusal :=
  takeRequest .cancelPattern (answer cancelPattern) s

/-- PATTERN_STEP (R105): the step timer reaches the step time, and the current step is taken. -/
def execPatternStep (s : State) : Host.Outcome State Fault Refusal :=
  whileOn takePatternStep s

/-- The player ends once the timer reaches the step time with no current step (R105). -/
def endPattern (p : Part) : Part :=
  match p.player with
  | some a => if a.current = none then cancelPlayer p else p
  | none => p

/-- PATTERN_END (R105). -/
def execPatternEnd (s : State) : Host.Outcome State Fault Refusal :=
  whileOn endPattern s

end Sys2Proof.Machine
end

