-- ==== Sys2Proof/Machine/TickCommands.lean ====
section
/-! DEFINITION. The periodic ticks and the starve timer (R20, R75, R142, R33). A tick also sets when the next one of its
kind is due (log entry 3). -/

namespace Sys2Proof.Machine

/-- The feed tick: it moves the paper in RUNNING alone (R20), and the next comes 100 µs later. -/
def feedTick (p : Part) : Part :=
  let ticked := p.setFeed { p.feed with nextTick := p.now + 2 }
  if p.feed.transport = .running then advanceFeed ticked else ticked

/-- FEED_TICK (R20). -/
def execFeedTick (s : State) : Host.Outcome State Fault Refusal :=
  whileOn feedTick s

/-- The starve timer reaches its StarveHold (R33). Outside STARVED, or with the timer stopped, no expiry comes. -/
def starveExpires (p : Part) : Part :=
  if p.feed.transport = .starved ∧ p.feed.starve.isSome then expireStarve p else p

/-- STARVE_HOLD_EXPIRY (R33). -/
def execStarveHoldExpiry (s : State) : Host.Outcome State Fault Refusal :=
  whileOn starveExpires s

/-- The expression tick: it acts in RUNNING alone (R75), and the next comes 1 ms later. -/
def expressionTick (p : Part) : Part :=
  let ticked := { p with expression := { p.expression with nextTick := p.now + 20 } }
  if p.feed.transport = .running then expressionTicks ticked else ticked

/-- EXPRESSION_TICK (R75). -/
def execExpressionTick (s : State) : Host.Outcome State Fault Refusal :=
  whileOn expressionTick s

/-- The heat tick: it acts in every state (R142), and the next comes 10 ms later. -/
def heatTick (p : Part) : Part :=
  heatTicks { p with drives := { p.drives with nextHeatTick := p.now + 200 } }

/-- HEAT_TICK (R142). -/
def execHeatTick (s : State) : Host.Outcome State Fault Refusal :=
  whileOn heatTick s

end Sys2Proof.Machine
end

