-- ==== Sys2Proof/Machine/Dispatch.lean ====
section
/-! DEFINITION. The dispatch of a command to its meaning, one arm for each row of the table. -/

namespace Sys2Proof.Machine

/-- The effect of a command on everything but the queue. -/
def exec (i : Instr) (s : State) : Host.Outcome State Fault Refusal :=
  match i with
  | .receiveByte byte stop => Sys2Proof.Machine.execReceiveByte byte stop s
  | .gapTimerExpiry => Sys2Proof.Machine.execGapTimerExpiry s
  | .hostSilenceExpiry => Sys2Proof.Machine.execHostSilenceExpiry s
  | .sendFrame => Sys2Proof.Machine.execSendFrame s
  | .noticeFramePlace => Sys2Proof.Machine.execNoticeFramePlace s
  | .unknownKind => Sys2Proof.Machine.execUnknownKind s
  | .identify => Sys2Proof.Machine.execIdentify s
  | .readStatus => Sys2Proof.Machine.execReadStatus s
  | .takeNotices => Sys2Proof.Machine.execTakeNotices s
  | .readHistory => Sys2Proof.Machine.execReadHistory s
  | .loadRoll => Sys2Proof.Machine.execLoadRoll s
  | .feedRows => Sys2Proof.Machine.execFeedRows s
  | .run => Sys2Proof.Machine.execRun s
  | .pause => Sys2Proof.Machine.execPause s
  | .stop => Sys2Proof.Machine.execStop s
  | .setTempo => Sys2Proof.Machine.execSetTempo s
  | .writeSetting => Sys2Proof.Machine.execWriteSetting s
  | .writeRingLow => Sys2Proof.Machine.execWriteRingLow s
  | .writeTrackMap => Sys2Proof.Machine.execWriteTrackMap s
  | .writeOnRows => Sys2Proof.Machine.execWriteOnRows s
  | .writeOffRows => Sys2Proof.Machine.execWriteOffRows s
  | .writeCueSlot => Sys2Proof.Machine.execWriteCueSlot s
  | .writeRailMode => Sys2Proof.Machine.execWriteRailMode s
  | .writeRepeatGuard => Sys2Proof.Machine.execWriteRepeatGuard s
  | .writePwmBase => Sys2Proof.Machine.execWritePwmBase s
  | .writeHeatSoft => Sys2Proof.Machine.execWriteHeatSoft s
  | .writeHeatHard => Sys2Proof.Machine.execWriteHeatHard s
  | .writeDamperHoldFull => Sys2Proof.Machine.execWriteDamperHoldFull s
  | .writeDamperHoldPart => Sys2Proof.Machine.execWriteDamperHoldPart s
  | .writeRailHold => Sys2Proof.Machine.execWriteRailHold s
  | .writePedalLead => Sys2Proof.Machine.execWritePedalLead s
  | .writeNoticeMask => Sys2Proof.Machine.execWriteNoticeMask s
  | .writeLineFaultMask => Sys2Proof.Machine.execWriteLineFaultMask s
  | .writeLineRestingMask => Sys2Proof.Machine.execWriteLineRestingMask s
  | .readSetting => Sys2Proof.Machine.execReadSetting s
  | .armCues => Sys2Proof.Machine.execArmCues s
  | .saveSettings => Sys2Proof.Machine.execSaveSettings s
  | .saveSettingsDone good => Sys2Proof.Machine.execSaveSettingsDone good s
  | .recallSettings => Sys2Proof.Machine.execRecallSettings s
  | .strikeKey => Sys2Proof.Machine.execStrikeKey s
  | .playPattern => Sys2Proof.Machine.execPlayPattern s
  | .cancelPattern => Sys2Proof.Machine.execCancelPattern s
  | .restoreLine => Sys2Proof.Machine.execRestoreLine s
  | .resetPart => Sys2Proof.Machine.execResetPart s
  | .resetAsserted => Sys2Proof.Machine.execResetAsserted s
  | .pinReset rate1 rate0 => Sys2Proof.Machine.execPinReset rate1 rate0 s
  | .feedTick => Sys2Proof.Machine.execFeedTick s
  | .starveHoldExpiry => Sys2Proof.Machine.execStarveHoldExpiry s
  | .expressionTick => Sys2Proof.Machine.execExpressionTick s
  | .heatTick => Sys2Proof.Machine.execHeatTick s
  | .statusChainRead bits => Sys2Proof.Machine.execStatusChainRead bits s
  | .kickEnd line => Sys2Proof.Machine.execKickEnd line s
  | .holdHeatGain line => Sys2Proof.Machine.execHoldHeatGain line s
  | .holdDeadline line => Sys2Proof.Machine.execHoldDeadline line s
  | .guardEnd line => Sys2Proof.Machine.execGuardEnd line s
  | .waitDeadline line => Sys2Proof.Machine.execWaitDeadline line s
  | .pedalKickEnd pedal => Sys2Proof.Machine.execPedalKickEnd pedal s
  | .settleEnd pedal => Sys2Proof.Machine.execSettleEnd pedal s
  | .patternStep => Sys2Proof.Machine.execPatternStep s
  | .patternEnd => Sys2Proof.Machine.execPatternEnd s
  | .powerFail => Sys2Proof.Machine.execPowerFail s

end Sys2Proof.Machine
end

