-- ==== Sys2Proof/Machine/Step.lean ====
section
/-! DEFINITION. One step: the command at the front of the queue, or, with none waiting, the part's own next event or the
passing of time. -/

namespace Sys2Proof.Machine

/-- The step of a part that no command waits for: its own next event if one is due, and else one kick step of time
(log entry 2). -/
def idleStep (s : State) : Host.Outcome State Fault Refusal :=
  match dueEvent s.part with
  | some c => exec c s
  | none => .next { s with part := passTime s.part }

/-- One step of the machine. -/
def step (s : State) : Host.Outcome State Fault Refusal :=
  match s.pending with
  | c :: rest => exec c { s with pending := rest }
  | [] => idleStep s

/-- The state with the command that a word spells put at the front of its queue; no word spells one (log entry 25). -/
def State.withFetchWord (s : State) (nbits w : Nat) : State :=
  match decodeTableWord nbits w with
  | some c => { s with pending := c :: s.pending }
  | none => s

end Sys2Proof.Machine
end

