-- ==== Sys2Proof/WellFormed.lean ====
section
/-! DEFINITION. The check of a command's operands: a line named must be one the part has. -/

namespace Sys2Proof

/-- A key line is 0 to 87, and a line that may wait is 0 to 90 (section "Conventions", Line). Every other
operand is legal at every value of its type. -/
def Instr.wellFormed : Instr → Bool
  | .kickEnd line | .holdHeatGain line | .holdDeadline line | .guardEnd line => decide (line < 88)
  | .waitDeadline line => decide (line < 91)
  | .receiveByte .. | .gapTimerExpiry | .hostSilenceExpiry | .sendFrame | .noticeFramePlace | .unknownKind
  | .identify | .readStatus | .takeNotices | .readHistory | .loadRoll | .feedRows | .run | .pause | .stop
  | .setTempo | .writeSetting | .writeRingLow | .writeTrackMap | .writeOnRows | .writeOffRows | .writeCueSlot
  | .writeRailMode | .writeRepeatGuard | .writePwmBase | .writeHeatSoft | .writeHeatHard | .writeDamperHoldFull
  | .writeDamperHoldPart | .writeRailHold | .writePedalLead | .writeNoticeMask | .writeLineFaultMask
  | .writeLineRestingMask | .readSetting | .armCues | .saveSettings | .saveSettingsDone _ | .recallSettings
  | .strikeKey | .playPattern | .cancelPattern | .restoreLine | .resetPart | .resetAsserted | .pinReset ..
  | .feedTick | .starveHoldExpiry | .expressionTick | .heatTick | .statusChainRead _ | .pedalKickEnd _
  | .settleEnd _ | .patternStep | .patternEnd | .powerFail => true

/-- The same check as a proposition. -/
abbrev Instr.WellFormed (i : Instr) : Prop := i.wellFormed = true

end Sys2Proof
end

