-- ==== Sys2Proof/Safety.lean ====
section
/-! DEFINITION. What a sound state of the part is: the ranges, orders and agreements that spec/ says always hold, block by
block. A statement that every step keeps one of them is made in Certificates/Slice0/Obligations.lean. -/

namespace Sys2Proof.Machine

/-! ### Settings -/

/-- Is every entry of a step table at most 1023 and at least the one before it (R74)? -/
def stepTableLegal (table : Vector Nat 8) : Prop :=
  (∀ i : Fin 8, table[i] ≤ 1023) ∧ ∀ i j : Fin 8, i.val ≤ j.val → table[i] ≤ table[j]

/-- A field that the entry's function does not use is held as 0: a key of 0 and a half of BASS (R37). -/
def TrackEntry.legal (e : TrackEntry) : Prop :=
  (e.function ≠ .key → e.key = 0) ∧ (e.function.isExpression = false → e.half = .bass)

/-- No two entries of the map address the same target (R38), and each holds its unused fields as 0 (R37). -/
def mapLegal (map : Vector TrackEntry 112) : Prop :=
  (∀ t u : TrackNo, t ≠ u → map[t].sameTarget map[u] = false) ∧ ∀ t : TrackNo, map[t].legal

/-- A slot's fields are within their ranges, and its pattern lies within its mask (R58, R59). -/
def CueSlot.legal (c : CueSlot) : Prop :=
  (1 ≤ c.holdRows ∧ c.holdRows ≤ 16) ∧ c.pattern &&& ~~~c.mask = 0 ∧ c.parameter ≤ 65535
    ∧ (c.action = .tempo → 10 ≤ c.parameter ∧ c.parameter ≤ 200)

/-- A voicing entry's fields are within their ranges (R99). -/
def Voicing.legal (v : Voicing) : Prop :=
  (4 ≤ v.floor ∧ v.floor ≤ 400) ∧ v.span ≤ 600 ∧ v.bend ≤ 3 ∧ (-64 ≤ v.trim ∧ v.trim ≤ 63)
    ∧ (1 ≤ v.kickDuty ∧ v.kickDuty ≤ 32) ∧ (1 ≤ v.holdDuty ∧ v.holdDuty ≤ 32)

/-- The roll's settings: the ring, the trim limits, the starve hold, the split key and the debounce counts (R17, R30,
R32, R44, R50). -/
def Settings.rollLegal (t : Settings) : Prop :=
  (16 ≤ t.ringLow ∧ t.ringLow ≤ 2000) ∧ (500 ≤ t.trimLow ∧ t.trimLow ≤ 1000)
    ∧ (1000 ≤ t.trimHigh ∧ t.trimHigh ≤ 2000) ∧ t.starveHold ≤ 5000 ∧ (20 ≤ t.splitKey ∧ t.splitKey ≤ 67)
    ∧ (1 ≤ t.onRows ∧ t.onRows ≤ 8) ∧ (1 ≤ t.offRows ∧ t.offRows ≤ 8) ∧ mapLegal t.trackMap
    ∧ ∀ i : Fin 4, t.cueSlots[i].legal

/-- The expression settings (R74, R81, R83, R85, R87). -/
def Settings.expressionLegal (t : Settings) : Prop :=
  stepTableLegal t.stepTable ∧ (1 ≤ t.stepRate ∧ t.stepRate ≤ 255) ∧ (1 ≤ t.slowRate ∧ t.slowRate ≤ 255)
    ∧ (1 ≤ t.quickRate ∧ t.quickRate ≤ 255) ∧ t.swellCeiling ≤ 1023 ∧ t.accentLift ≤ 512 ∧ t.railOff ≤ 1023
    ∧ t.railOn < t.railOff ∧ ∀ h : Half, 500 ≤ t.railScale.get h ∧ t.railScale.get h ≤ 2000

/-- The strike and budget settings (R99, R100, R109, R110). -/
def Settings.strikeLegal (t : Settings) : Prop :=
  (∀ k : KeyNo, t.voicing[k].legal) ∧ (2 ≤ t.kickMin ∧ t.kickMin ≤ 100) ∧ (100 ≤ t.kickMax ∧ t.kickMax ≤ 1000)
    ∧ (4 ≤ t.budgetUnits ∧ t.budgetUnits ≤ 96) ∧ (1 ≤ t.damperCost ∧ t.damperCost ≤ 16)
    ∧ (1 ≤ t.railCost ∧ t.railCost ≤ 16) ∧ t.damperCost ≤ t.budgetUnits ∧ t.railCost ≤ t.budgetUnits
    ∧ (1 ≤ t.waitLimit ∧ t.waitLimit ≤ 100)

/-- The settings of the lines, the pedals and the link (R128, R134, R135, R143, R161, R167). -/
def Settings.lineLegal (t : Settings) : Prop :=
  (1 ≤ t.holdLimit ∧ t.holdLimit ≤ 120) ∧ (5 ≤ t.repeatGuard ∧ t.repeatGuard ≤ 100)
    ∧ (t.pwmBase = 16 ∨ t.pwmBase = 24 ∨ t.pwmBase = 32) ∧ (1000 ≤ t.heatSoft ∧ t.heatSoft ≤ 60000)
    ∧ (2000 ≤ t.heatHard ∧ t.heatHard ≤ 65000) ∧ t.heatSoft + 1000 ≤ t.heatHard
    ∧ (10 ≤ t.damperKick ∧ t.damperKick ≤ 200) ∧ (1 ≤ t.damperKickDuty ∧ t.damperKickDuty ≤ 32)
    ∧ (1 ≤ t.damperHoldPart ∧ t.damperHoldPart ≤ t.damperHoldFull ∧ t.damperHoldFull ≤ 32)
    ∧ (5 ≤ t.damperSettle ∧ t.damperSettle ≤ 200) ∧ (10 ≤ t.railKick ∧ t.railKick ≤ 200)
    ∧ (1 ≤ t.railKickDuty ∧ t.railKickDuty ≤ 32) ∧ (1 ≤ t.railHold ∧ t.railHold ≤ 32)
    ∧ (5 ≤ t.railSettle ∧ t.railSettle ≤ 200) ∧ t.pedalLead ≤ 64
    ∧ (t.linkSilence = 0 ∨ (50 ≤ t.linkSilence ∧ t.linkSilence ≤ 5000))

/-- Every setting is one that its writes admit (section 11.3). -/
def Settings.legal (t : Settings) : Prop :=
  t.rollLegal ∧ t.expressionLegal ∧ t.strikeLegal ∧ t.lineLegal

/-- The working settings, those in the store, and those a save is writing are all legal. -/
def SettingsSound (p : Part) : Prop :=
  p.settings.legal ∧ p.store.settings.legal ∧ ∀ t, p.saving = some t → t.legal

/-! ### The Row Ring and the Feed Clock -/

/-- The ring's numbers: the rows held are consecutive and end just below next-expected, at most 2048 of them, and
next-expected is at most one past the last row number (R1, R2). -/
def RowRing.sound (r : RowRing) : Prop :=
  r.rows.map StoredRow.number = List.range' (r.nextExpected - r.rows.length) r.rows.length
    ∧ r.rows.length ≤ r.nextExpected ∧ r.rows.length ≤ 2048 ∧ r.nextExpected ≤ 2147483648

/-- The ring is sound, and its low-water state agrees with its occupancy (R1, R2, R4). -/
def RingSound (p : Part) : Prop :=
  p.ring.sound ∧ (p.ring.above = true ↔ p.settings.ringLow ≤ p.ring.rows.length)

/-- The feed position agrees with the ring: the rows held are those from the head row up to next-expected (R1, R2,
R19), a RUNNING transport has taken its row, a STARVED one waits at a row that the empty ring does not hold (R32),
and in UNLOADED position and next-expected are 0 (R2, R18). -/
def FeedSound (p : Part) : Prop :=
  p.feed.headRow + p.ring.rows.length = p.ring.nextExpected
    ∧ (p.feed.transport = .running → p.feed.taken = true)
    ∧ (p.feed.transport = .starved → p.feed.taken = false ∧ p.ring.rows = [])
    ∧ (p.feed.transport = .unloaded → p.feed.row = 0 ∧ p.feed.taken = false ∧ p.ring.rows = [])
    ∧ p.feed.fraction ≤ 65535 ∧ p.feed.q ≤ 65535

/-- The lead decoder's next row is never less than the feed head row (R159), nor above next-expected, since it examines
held rows alone. -/
def LeadSound (p : Part) : Prop :=
  p.feed.headRow ≤ p.pedals.lead.next ∧ p.pedals.lead.next ≤ p.ring.nextExpected

/-! ### Expression -/

/-- Each shade stays within 0 to 1023 (R71, R79). -/
def ShadesSound (p : Part) : Prop :=
  ∀ h : Half, (p.expression.halves.get h).shade ≤ 1023

/-! ### The strike history -/

/-- At most 64 records, numbered one after the other up to just below the next sequence number (R125). -/
def KickArbiter.historySound (a : KickArbiter) : Prop :=
  a.history.length ≤ 64 ∧ a.nextSequence < 65536
    ∧ a.history.map HistoryRecord.sequence
      = (List.range a.history.length).map fun i => (a.nextSequence + 65536 - a.history.length + i) % 65536

/-! ### Units, the wait list and the lines -/

/-- Does the list hold an entry of the line? -/
def Part.hasEntry (p : Part) (line : LineNo) : Prop :=
  ∃ e, e ∈ p.arbiter.wait ∧ e.line = line

/-- A key line agrees with the arbiter (R108, R111, R127): its place is filled exactly in KICK, it has an entry exactly
when QUEUED, a plan in hand exactly in KICK and HOLD, a pending plan only in KICK and RELEASE, each plan is its own,
a pending plan has a key's priority (R97), and a QUEUED line does not rest (R143). -/
def KeySound (p : Part) (k : KeyNo) : Prop :=
  let l := p.key k
  ((l.state = .kick) ↔ p.arbiter.grants[keyLineNo k] ≠ none)
    ∧ ((l.state = .queued) ↔ p.hasEntry (keyLineNo k))
    ∧ ((l.state = .kick ∨ l.state = .hold) ↔ l.plan ≠ none)
    ∧ (l.pending ≠ none → l.state = .kick ∨ l.state = .release)
    ∧ (∀ plan, l.plan = some plan → plan.line = k)
    ∧ (∀ plan, l.pending = some plan → plan.line = k ∧ 1 ≤ plan.priority)
    ∧ (l.state = .queued → l.resting = false)

/-- A pedal agrees with the arbiter (R108, R111, R148): its place is filled exactly when LIFTING, it has an entry exactly
when WAITING, and it has a waiting origin exactly then. -/
def PedalSound (p : Part) (d : Pedal) : Prop :=
  let r := p.pedal d
  ((r.state = .lifting) ↔ p.arbiter.grants[pedalLineNo d] ≠ none)
    ∧ ((r.state = .waiting) ↔ p.hasEntry (pedalLineNo d))
    ∧ ((r.state = .waiting) ↔ r.origin ≠ none)

/-- An entry asks for the line it stands under: a key plan for the plan's line, a lift for a pedal line at priority 0
(R111). -/
def WaitEntry.sound (e : WaitEntry) : Prop :=
  match e.request with
  | .strike plan => e.line = keyLineNo plan.line ∧ 1 ≤ e.priority
  | .lift _ => 88 ≤ e.line.val ∧ e.priority = 0

/-- The wait list holds at most 32 entries, one a line, in the order of priority (R111), and its head does not fit in
the free units (R114). -/
def WaitSound (p : Part) : Prop :=
  p.arbiter.wait.length ≤ 32 ∧ (p.arbiter.wait.map WaitEntry.line).Nodup
    ∧ p.arbiter.wait.Pairwise (fun a b => a.priority ≤ b.priority)
    ∧ (∀ e ∈ p.arbiter.wait, e.sound)
    ∧ ∀ e, p.arbiter.wait.head? = some e → p.settings.budgetUnits < e.cost + p.arbiter.unitsInUse

/-- The budget is kept: the units in use do not exceed BudgetUnits (R108), and the lines, the pedals, the grant table
and the wait list agree (R111, R114, R127, R148). -/
def BudgetSound (p : Part) : Prop :=
  p.arbiter.unitsInUse ≤ p.settings.budgetUnits ∧ WaitSound p ∧ (∀ k, KeySound p k) ∧ ∀ d, PedalSound p d

/-- A key coil is driven in KICK at the kick duty and in HOLD at the hold duty of the plan in hand, and in no other
state (section 8.1, R130, R132). -/
def DriveSound (p : Part) : Prop :=
  ∀ k : KeyNo,
    ((p.key k).state ≠ .kick → (p.key k).state ≠ .hold → (p.key k).drive.duty = none)
      ∧ ∀ plan, (p.key k).plan = some plan →
          ((p.key k).state = .kick → (p.key k).drive.duty = some plan.kickDuty)
            ∧ ((p.key k).state = .hold → (p.key k).drive.duty = some plan.holdDuty)

/-- H stays within 0 to 65535, and every key line whose H stands at or above HeatHard rests (R127, R143). -/
def HeatSound (p : Part) : Prop :=
  ∀ k : KeyNo, (p.key k).heat ≤ 65535 ∧ (p.settings.heatHard ≤ (p.key k).heat → (p.key k).resting = true)

/-! ### The Link Port -/

/-- The receiver is in HUNT, or holds a sync and bytes that need more (R163); the buffer holds at most 4096 bytes (R164),
and no waiting request is longer than a frame may be (R163). -/
def LinkSound (p : Part) : Prop :=
  (p.link.candidate = [] ∨
      ∃ bs state, p.link.candidate = syncByte :: bs ∧ readCandidate bs = .growing state)
    ∧ p.link.buffered ≤ 4096 ∧ ∀ f ∈ p.link.waiting, f.payload.length ≤ 1024

/-! ### Requests and their replies -/

/-- The part may take the request `f`: the part runs, no save is under way, 1064 bytes of the queue are free, and the
request waits first (R165). -/
def Part.MayTake (p : Part) (f : Frame) : Prop :=
  p.power = .on ∧ p.saving = none ∧ 1064 ≤ p.link.room p.now ∧ p.link.waiting.head? = some f

/-- The part may take this WRITE SETTING or READ SETTING request, whose payload names the item. -/
def Part.MayTakeItem (p : Part) (f : Frame) (kind : Byte) (item : Item) : Prop :=
  p.MayTake f ∧ f.kind = kind ∧ f.payload.length = 2 + item.size ∧ byteAt f.payload 0 = item.code

/-- The part with the request `f` answered: its reply, of kind plus 0x80 and with its tag, stands behind all that is
queued, and the request alone has left the buffer (R164, R165). -/
def Part.replied (p : Part) (f : Frame) (payload : List Byte) : Part :=
  { p with
    link := { p.link with
      queue := p.link.queue ++ [.reply ({ kind := f.kind + 0x80, tag := f.tag, payload := payload } : Frame).bytes]
      waiting := p.link.waiting.tail } }

/-- The state with its part replaced. -/
def State.withPart (s : State) (p : Part) : State :=
  { s with part := p }

/-- The command completes with the part `q` and a reply of this payload. -/
def Completes (c : Instr) (s : State) (f : Frame) (q : Part) (payload : List Byte) : Prop :=
  exec c s = .next (s.withPart (q.replied f payload))

/-- The request is refused with a result code alone, and nothing else changes. -/
def Refuses (c : Instr) (s : State) (f : Frame) (code : Byte) : Prop :=
  exec c s = .next (s.withPart (s.part.replied f [code]))

/-- Is this the command of a request, one that waits in the receive buffer until it is taken (R165)? -/
def takesRequest : Instr → Bool
  | .unknownKind | .identify | .readStatus | .takeNotices | .readHistory | .loadRoll | .feedRows | .run | .pause
  | .stop | .setTempo | .writeSetting | .writeRingLow | .writeTrackMap | .writeOnRows | .writeOffRows
  | .writeCueSlot | .writeRailMode | .writeRepeatGuard | .writePwmBase | .writeHeatSoft | .writeHeatHard
  | .writeDamperHoldFull | .writeDamperHoldPart | .writeRailHold | .writePedalLead | .writeNoticeMask
  | .writeLineFaultMask | .writeLineRestingMask | .readSetting | .armCues | .saveSettings | .recallSettings
  | .strikeKey | .playPattern | .cancelPattern | .restoreLine | .resetPart => true
  | .receiveByte .. | .gapTimerExpiry | .hostSilenceExpiry | .sendFrame | .noticeFramePlace | .saveSettingsDone _
  | .resetAsserted | .pinReset .. | .feedTick | .starveHoldExpiry | .expressionTick | .heatTick
  | .statusChainRead _ | .kickEnd _ | .holdHeatGain _ | .holdDeadline _ | .guardEnd _ | .waitDeadline _
  | .pedalKickEnd _ | .settleEnd _ | .patternStep | .patternEnd | .powerFail => false

/-- The kinds of the catalogue of section 10.5. -/
def catalogue : List Byte :=
  [0x01, 0x02, 0x03, 0x04, 0x10, 0x11, 0x12, 0x13, 0x14, 0x15, 0x20, 0x21, 0x22, 0x23, 0x24, 0x30, 0x31, 0x32, 0x33,
    0x3F]

/-- The commands taken one after the other, each from the state the one before it leaves. -/
def execAll : List Instr → State → Host.Outcome State Fault Refusal
  | [], s => .next s
  | c :: rest, s =>
    match exec c s with
    | .next t => execAll rest t
    | .fault r => .fault r
    | .refused r => .refused r

/-! ### Candidates (R163) -/

/-- The bytes after a candidate's sync are not yet a whole frame. -/
def NeedsMore (bs : List Byte) : Prop :=
  bs.length < 4 ∨ (fieldAt bs 2 2 ≤ 1024 ∧ bs.length < fieldAt bs 2 2 + 6)

/-- The bytes after a candidate's sync make it one to discard: a length above 1024, or a check that fails. -/
def Condemned (bs : List Byte) : Prop :=
  4 ≤ bs.length ∧ (1024 < fieldAt bs 2 2
    ∨ (bs.length = fieldAt bs 2 2 + 6
      ∧ (crc16 (bs.take (fieldAt bs 2 2 + 4))).toNat ≠ fieldAt bs (fieldAt bs 2 2 + 4) 2))

/-- What a hunt through received bytes finds (R163): the good frames in their order, the candidate left under reception
(with its sync; empty in HUNT), and how many candidates were discarded. After a discard the hunt goes on from the byte
after the discarded candidate's sync, and after a good frame from the byte behind it. -/
inductive Hunted : List Byte → List Frame → List Byte → Nat → Prop where
  | nothing : Hunted [] [] [] 0
  | dropped {b : Byte} {bs left : List Byte} {frames : List Frame} {lost : Nat} :
      b ≠ 0x7E → Hunted bs frames left lost → Hunted (b :: bs) frames left lost
  | growing {bs : List Byte} : NeedsMore bs → Hunted (0x7E :: bs) [] (0x7E :: bs) 0
  | condemned {bs rest left : List Byte} {frames : List Frame} {lost : Nat} :
      Condemned bs → Hunted (bs ++ rest) frames left lost → Hunted (0x7E :: (bs ++ rest)) frames left (lost + 1)
  | whole {f : Frame} {rest left : List Byte} {frames : List Frame} {lost : Nat} :
      f.payload.length ≤ 1024 → Hunted rest frames left lost → Hunted (f.bytes ++ rest) (f :: frames) left lost

/-- The Link Port at time `now` with the outcome of a hunt: the frames wait, one of them restarts the silence timer, and
the gap timer of a candidate starts now (R163, R167). -/
def LinkPort.hunted (l : LinkPort) (frames : List Frame) (left : List Byte) (now : Time) : LinkPort :=
  { l with
    candidate := left
    gapStarted := if left = [] then l.gapStarted else now
    waiting := l.waiting ++ frames
    silenceStarted := if frames = [] then l.silenceStarted else now
    silenceRunning := l.silenceRunning || decide (frames ≠ []) }

/-- The part with candidates counted as discarded and FRAME_ERRORS raised, if there are any (R163, R164). -/
def Part.discarding (p : Part) (lost : Nat) : Part :=
  if lost = 0 then p
  else raise .frameErrors
    { p with link := { p.link with discarded := min (p.link.discarded + lost) 4294967295 } }

/-! ### Records of a FEED ROWS payload (section 1.2) -/

/-- A record: a mask record of a hole set, or a run record of a length. -/
inductive RowRecord where
  | mask (holes : TrackSet)
  | run (length : Nat)
  deriving DecidableEq, Repr

/-- The byte of a group of eight tracks. -/
def groupByte (holes : TrackSet) (g : Nat) : Byte :=
  holes.extractLsb' (8 * g) 8

/-- The groups in which a row has a hole. -/
def presentGroups (holes : TrackSet) : List Nat :=
  allGroups.filter fun g => groupByte holes g != 0

/-- A record's bytes: a header of 2 bytes, with bit 15 and the length for a run, or with a bit for each group that has a
hole, and then those groups' bytes. -/
def RowRecord.bytes : RowRecord → List Byte
  | .mask holes =>
    littleEndian 2 ((presentGroups holes).map fun g => 2 ^ g).sum ++ (presentGroups holes).map (groupByte holes)
  | .run length => littleEndian 2 (32768 + length)

/-- The rows that records stand for; a run repeats the row before it. -/
def rowsOf (before : TrackSet) : List RowRecord → List TrackSet
  | [] => []
  | .mask holes :: rest => holes :: rowsOf holes rest
  | .run length :: rest => List.replicate length before ++ rowsOf before rest

/-! ### Released lines and lowered pedals -/

/-- The heat of a key line after a gain, and its resting flag (R141, R143). -/
def KeyLine.warmed (l : KeyLine) (t : Settings) (gain : Nat) : KeyLine :=
  { l with
    heat := min (l.heat + gain) 65535
    resting := l.resting || decide (t.heatHard ≤ min (l.heat + gain) 65535) }

/-- A key line that has entered RELEASE now: its drive off, its guard timer at 0, no plan in hand (R132). -/
def KeyLine.letGo (l : KeyLine) (now : Time) : KeyLine :=
  { l with
    state := .release
    plan := none
    short := false
    holdDeadline := none
    guardStarted := now
    guardDone := false
    drive := { l.drive with duty := none } }

/-- A key line after the release of the key lines (R138). `restore` takes a FAULTED line too (R140). -/
def KeyLine.released (l : KeyLine) (restore : Bool) (t : Settings) (now : Time) : KeyLine :=
  match l.state with
  | .idle => l
  | .queued => { l with state := .idle, queuedOrigin := none }
  | .kick =>
    match l.plan with
    | some plan =>
      { (l.warmed t (min plan.kick (now - l.kickStarted) * plan.kickDuty / 2)).letGo now with pending := none }
    | none => l
  | .hold => l.letGo now
  | .release =>
    if l.pending = none then l
    else if l.guardDone then { l with state := .idle, guardDone := false, pending := none }
    else { l with pending := none }
  | .faulted => if restore then { l.letGo now with fault := .none } else l

/-- A pedal that is down, settling, or on its way down once its kick ends (R152). -/
def PedalRecord.Down (r : PedalRecord) : Prop :=
  r.state = .lowered ∨ r.state = .dropping ∨ (r.state = .lifting ∧ r.dropMark = true)

/-- A pedal that has entered DROPPING now: drive off, settle timer at 0 (R152). -/
def PedalRecord.fallen (r : PedalRecord) (now : Time) (settle : Nat) : PedalRecord :=
  { r with
    state := .dropping
    dropMark := false
    settleTimer := some { started := now, length := settle }
    drive := { r.drive with duty := none } }

/-- The damper has been dropped: it is down, and one that was RAISED has entered DROPPING now. -/
def DamperDropped (p q : Part) : Prop :=
  q.pedals.damper.Down
    ∧ (p.pedals.damper.state = .raised →
        q.pedals.damper = p.pedals.damper.fallen p.now p.settings.damperSettle)

/-- A rail has been dropped, as the damper is. -/
def RailDropped (h : Half) (p q : Part) : Prop :=
  (q.pedal (railOf h)).Down
    ∧ ((p.pedal (railOf h)).state = .raised →
        q.pedal (railOf h) = (p.pedal (railOf h)).fallen p.now p.settings.railSettle)

/-- A rail has been left as it was, unless it waits for a grant, which may have come. -/
def RailKept (h : Half) (p q : Part) : Prop :=
  (p.pedal (railOf h)).state ≠ .waiting → q.pedal (railOf h) = p.pedal (railOf h)

/-- What PAUSE and the end of the roll ask of a rail: AUTO and ROLL are dropped, UP and DOWN are kept (R28, R156). -/
def RailPaused (h : Half) (p q : Part) : Prop :=
  if p.settings.railMode.get h = .auto ∨ p.settings.railMode.get h = .roll then RailDropped h p q else RailKept h p q

/-- What PAUSE and the end of the roll do to the lines and the pedals (R28, R31): every key line is released and draws
no units, no key entry waits, and the damper and the AUTO and ROLL rails are dropped. -/
def PlayReleased (p q : Part) : Prop :=
  (∀ k, q.key k = (p.key k).released false p.settings p.now)
    ∧ (∀ k, q.arbiter.grants[keyLineNo k] = none) ∧ (∀ e ∈ q.arbiter.wait, e.isKey = false)
    ∧ DamperDropped p q ∧ ∀ h, RailPaused h p q

/-- The roll's own state, the settings and the player are as they were. -/
def RollKept (p q : Part) : Prop :=
  q.settings = p.settings ∧ q.store = p.store ∧ q.ring = p.ring ∧ q.tracks = p.tracks ∧ q.cues = p.cues
    ∧ q.expression = p.expression ∧ q.player = p.player

/-- The lead decoder reset with its next row at `row` (R159). -/
def LeadReset (q : Part) (row : Nat) : Prop :=
  q.pedals.lead = { next := row, lift := .closed, feather := .closed }

/-- Every track is CLOSED and every level handed over is closed (R56, R57). -/
def TracksClosed (q : Part) : Prop :=
  (∀ t : TrackNo, q.tracks.states[t] = .closed) ∧ (∀ h, (q.expression.halves.get h).levels = closedLevels)
    ∧ q.pedals.liftLevel = false ∧ q.pedals.featherLevel = false ∧ q.pedals.softLevel = false

/-- Every match count is 0 and every spent flag clear (R58). -/
def CuesFresh (q : Part) : Prop :=
  ∀ i : Fin 4, q.cues.runs[i] = { count := 0, spent := false }

/-- The ring is empty, its reference row all closed, its state BELOW (R16). -/
def RingCleared (q : Part) (next : Nat) : Prop :=
  q.ring = { rows := [], nextExpected := next, reference := 0, above := false }

/-- Every half keeps its shade and its swelled flag (R71). -/
def ShadesHeld (p q : Part) : Prop :=
  ∀ h, (q.expression.halves.get h).shade = (p.expression.halves.get h).shade
    ∧ (q.expression.halves.get h).swelled = (p.expression.halves.get h).swelled

/-! ### The ends of plans (R123 to R125) -/

/-- The part with a plan's end counted and filed, and STRIKES_DROPPED raised unless the outcome is PLAYED or MERGED. -/
def Part.filed (p : Part) (plan : Plan) (outcome : StrikeOutcome) (waited : Nat) : Part :=
  let record : HistoryRecord :=
    { sequence := p.arbiter.nextSequence
      line := plan.line
      origin := plan.origin
      onsetRow := plan.onsetRow.getD 0
      outcome := outcome
      shade := plan.shade
      kick := if outcome = .played then plan.kick else 0
      waited := min waited 255
      flags := plan.flags
      rowPresent := plan.origin == .roll }
  let counted : Part :=
    { p with arbiter := { p.arbiter with
        outcomes := p.arbiter.outcomes.set outcome.code (min (p.arbiter.outcomes[outcome.code] + 1) 4294967295)
        history := p.arbiter.history.drop (p.arbiter.history.length - 63) ++ [record]
        nextSequence := (p.arbiter.nextSequence + 1) % 65536 } }
  if outcome = .played ∨ outcome = .merged then counted else raise .strikesDropped counted

/-- The plan of an entry, with the short flag as it stands in the entry (R118). -/
def WaitEntry.standing (e : WaitEntry) (plan : Plan) : Plan :=
  { plan with flags := { plan.flags with short := e.short } }

/-! ### Requests to the Kick Arbiter (R112, R113, R115) -/

/-- The request's place is the head: every entry has a numerically higher priority (R112). -/
def Part.headFor (p : Part) (priority : Nat) : Prop :=
  ∀ e ∈ p.arbiter.wait, priority < e.priority

/-- The part with an entry in the list, behind every entry of a priority numerically lower than or equal to its own and
ahead of every other (R112). -/
def Part.joined (p : Part) (e : WaitEntry) : Part :=
  { p with arbiter := { p.arbiter with
      wait := p.arbiter.wait.filter (fun x => decide (x.priority ≤ e.priority))
        ++ e :: p.arbiter.wait.filter fun x => decide (e.priority < x.priority) } }

/-- The part with the last entry of the list, a key's, removed EVICTED and its line IDLE (R113, R131). -/
def Part.evicting (p : Part) (last : WaitEntry) (victim : Plan) : Part :=
  (({ p with arbiter := { p.arbiter with wait := p.arbiter.wait.dropLast } } : Part).setKey victim.line
    { p.key victim.line with state := .idle, queuedOrigin := none }).filed
      (last.standing victim) .evicted ((p.now - last.entered) / 20)

/-- What a key plan's request leaves, made by a line that has nothing else in hand (R112, R113, R115, R129, R130): a
kick, PLAYED at once, if its place is the head and it fits; else an entry, in the room of the last entry where the list
is full and that entry's priority is numerically higher; else LIST_FULL with the line IDLE. -/
def StrikeRequested (plan : Plan) (p q : Part) : Prop :=
  let k := plan.line
  let l := p.key k
  let now := p.headFor plan.priority ∧ plan.cost + p.arbiter.unitsInUse ≤ p.settings.budgetUnits
  let entry : WaitEntry :=
    { line := keyLineNo k
      priority := plan.priority
      cost := plan.cost
      request := .strike plan
      entered := p.now
      deadline := p.now + 20 * p.settings.waitLimit
      short := plan.flags.short }
  let queued : KeyLine := { l with state := .queued, queuedOrigin := some plan.origin }
  (now →
      q = ({ p.filed plan .played 0 with arbiter := { (p.filed plan .played 0).arbiter with
              grants := p.arbiter.grants.set (keyLineNo k) (some plan.cost) } } : Part).setKey k
            { l with
              state := .kick
              queuedOrigin := none
              plan := some plan
              kickStarted := p.now
              short := plan.flags.short
              drive := l.drive.setDuty p.settings.pwmBase p.now (some plan.kickDuty) })
    ∧ (¬ now → p.arbiter.wait.length < 32 → q = (p.joined entry).setKey k queued)
    ∧ ∀ last victim, ¬ now → p.arbiter.wait.length = 32 → p.arbiter.wait.getLast? = some last →
        last.request = .strike victim →
          (plan.priority < last.priority → q = ((p.evicting last victim).joined entry).setKey k queued)
            ∧ (last.priority ≤ plan.priority →
                q = (p.setKey k { l with state := .idle, queuedOrigin := none }).filed plan .listFull 0)

/-! ### Onsets and note-offs -/

/-- The plan of an onset (R93 to R97). -/
def Part.planned (p : Part) (o : Onset) : Plan :=
  let t := p.settings
  let v := t.voicing[o.key]
  let heat := (p.key o.key).heat
  let rail := p.pedal (match o.half with | .bass => .bassRail | .treble => .trebleRail)
  let e := if o.accent then min (o.shade + t.accentLift) 1023 else o.shade
  let x := (max 0 (min 1023 ((e : Int) + v.trim))).toNat
  let bent := ((4 - v.bend) * x * 1023 + v.bend * x * x) / 4092
  let spread := v.floor + v.span * bent / 1023
  let railed := if rail.state = .raised ∨ rail.state = .dropping then spread * t.railScale.get o.half / 1000
    else spread
  let factor := if heat ≤ t.heatSoft then 1000
    else 1000 - 500 * (heat - t.heatSoft) / (t.heatHard - t.heatSoft)
  let shaped := railed * factor / 1000
  let kick := if shaped < t.kickMin then t.kickMin else if t.kickMax < shaped then t.kickMax else shaped
  { line := o.key
    origin := o.origin
    onsetRow := o.onsetRow
    shade := e
    kick := kick
    kickDuty := v.kickDuty
    holdDuty := v.holdDuty
    cost := (v.kickDuty + 7) / 8
    priority := if o.origin = .roll then (if o.accent then 1 else 2) else 3
    holdTime := o.holdTime
    flags :=
      { accent := o.accent
        clamped := kick != shaped
        derated := decide (factor < 1000)
        short := decide (o.holdTime = some 0) } }

/-- What an onset's plan does at its line (R117, R129, R137), or the drop of an onset whose line is FAULTED or rests
(R92). -/
def OnsetTaken (o : Onset) (p q : Part) : Prop :=
  let k := o.key
  let l := p.key k
  let plan := p.planned o
  let dropped : Plan :=
    { line := k
      origin := o.origin
      onsetRow := o.onsetRow
      shade := plan.shade
      kick := 0
      kickDuty := 0
      holdDuty := 0
      cost := 0
      priority := 0
      holdTime := none
      flags := { accent := o.accent, clamped := false, derated := false, short := false } }
  (l.state = .faulted → q = p.filed dropped .faulted 0)
    ∧ (l.state ≠ .faulted → l.resting = true → q = p.filed dropped .resting 0)
    ∧ (l.resting = false → l.state = .idle → StrikeRequested plan p q)
    ∧ (l.resting = false → l.state = .kick ∨ l.state = .release →
        (l.pending = none → q = p.setKey k { l with pending := some plan })
          ∧ ∀ old, l.pending = some old → q = (p.setKey k { l with pending := some plan }).filed old .merged 0)
    ∧ (l.resting = false → l.state = .hold → l.pending = none →
        q = p.setKey k { l.letGo p.now with pending := some plan })
    ∧ ∀ e ∈ p.arbiter.wait, ∀ old, l.resting = false → l.state = .queued → e.line = keyLineNo k →
        e.request = .strike old →
          let merged : Part :=
            { p with arbiter := { p.arbiter with
                wait := p.arbiter.wait.map fun x =>
                  if x.line = keyLineNo k then
                    { x with request := .strike plan, cost := plan.cost, short := plan.flags.short }
                  else x } }
          let ended := (merged.setKey k { l with queuedOrigin := some plan.origin }).filed (e.standing old) .merged
            ((p.now - e.entered) / 20)
          let grows := p.arbiter.wait.head? ≠ some e ∨ e.cost = plan.cost
            ∨ p.settings.budgetUnits < plan.cost + p.arbiter.unitsInUse
          (grows → q = ended)
            ∧ (¬ grows → (q.key k).state = .kick ∧ ¬ q.hasEntry (keyLineNo k)
                ∧ q.arbiter.grants[keyLineNo k] = some plan.cost
                ∧ q.arbiter.outcomes[7] = min (p.arbiter.outcomes[7] + 1) 4294967295)

/-- What a note-off does at its line (R118, R133): it acts on the newest ROLL plan of the line, or on none. -/
def NoteOffTaken (k : KeyNo) (p q : Part) : Prop :=
  let l := p.key k
  let shortened := fun plan : Plan => { plan with flags := { plan.flags with short := true } }
  let pendingRoll := ∃ plan, l.pending = some plan ∧ plan.origin = .roll
  let handRoll := ∃ plan, l.plan = some plan ∧ plan.origin = .roll
  (l.state = .idle ∨ l.state = .faulted → q = p)
    ∧ (l.state = .queued → l.queuedOrigin ≠ some .roll → q = p)
    ∧ (l.state = .queued → l.queuedOrigin = some .roll →
        q = { p with arbiter := { p.arbiter with
          wait := p.arbiter.wait.map fun x => if x.line = keyLineNo k then { x with short := true } else x } })
    ∧ (∀ plan, l.state = .kick ∨ l.state = .release → l.pending = some plan → plan.origin = .roll →
        q = p.setKey k { l with pending := some (shortened plan) })
    ∧ (l.state = .kick → ¬ pendingRoll → handRoll → q = p.setKey k { l with short := true })
    ∧ (l.state = .kick → ¬ pendingRoll → ¬ handRoll → q = p)
    ∧ (l.state = .hold → handRoll → q = p.setKey k (l.letGo p.now))
    ∧ (l.state = .hold → ¬ handRoll → q = p)
    ∧ (l.state = .release → ¬ pendingRoll → q = p)

/-! ### Lifts and drops -/

/-- The settings of a pedal: the cost of its lift, the length and the duty of its kick, and the length of its settle
(R109, R151, R152). -/
def Settings.ofPedal (t : Settings) (d : Pedal) : Nat × Nat × Nat × Nat :=
  match d with
  | .damper => (t.damperCost, t.damperKick, t.damperKickDuty, t.damperSettle)
  | .bassRail | .trebleRail => (t.railCost, t.railKick, t.railKickDuty, t.railSettle)

/-- What a pedal's request leaves (R112, R113, R150, R151): the pedal LIFTING if its place is the head and it fits, and
else WAITING with an entry of priority 0, in the room of the last entry where the list is full. -/
def LiftRequested (d : Pedal) (depth : Depth) (origin : WaitOrigin) (p q : Part) : Prop :=
  let r := p.pedal d
  let (cost, length, duty, _) := p.settings.ofPedal d
  let now := p.headFor 0 ∧ cost + p.arbiter.unitsInUse ≤ p.settings.budgetUnits
  let waits := { r with state := .waiting, origin := some origin, depth := depth, settleTimer := none }
  let entry : WaitEntry :=
    { line := pedalLineNo d
      priority := 0
      cost := cost
      request := .lift depth
      entered := p.now
      deadline := p.now + 20 * p.settings.waitLimit
      short := false }
  (now →
      q = ({ p with arbiter := { p.arbiter with
              grants := p.arbiter.grants.set (pedalLineNo d) (some cost) } } : Part).setPedal d
            { waits with
              state := .lifting
              origin := none
              kickTimer := some { started := p.now, length := length }
              drive := r.drive.setDuty p.settings.pwmBase p.now (some duty) })
    ∧ (¬ now → p.arbiter.wait.length < 32 → q = (p.joined entry).setPedal d waits)
    ∧ ∀ last victim, ¬ now → p.arbiter.wait.length = 32 → p.arbiter.wait.getLast? = some last →
        last.request = .strike victim → q = ((p.evicting last victim).joined entry).setPedal d waits

/-- What the withdrawal of a pedal's entry leaves, with the pedal's record as it is given (R120): the entry is gone and
counted; a granting pass follows, which moves nothing where the entry was not the head. -/
def LiftWithdrawn (d : Pedal) (back : PedalRecord) (p q : Part) : Prop :=
  q.pedal d = back ∧ ¬ q.hasEntry (pedalLineNo d)
    ∧ q.arbiter.withdrawals = min (p.arbiter.withdrawals + 1) 4294967295
    ∧ (∀ k, (p.key k).state ≠ .queued → q.key k = p.key k)
    ∧ (∀ other, other ≠ d → (p.pedal other).state ≠ .waiting → q.pedal other = p.pedal other)
    ∧ ((∀ e, p.arbiter.wait.head? = some e → e.line ≠ pedalLineNo d) →
        q = ({ p with arbiter := { p.arbiter with
              wait := p.arbiter.wait.filter fun e => decide (e.line ≠ pedalLineNo d)
              withdrawals := min (p.arbiter.withdrawals + 1) 4294967295 } } : Part).setPedal d back)

/-- What a lift does to a pedal (R150), and to the depth of the damper (R153). A rail has no depth to change. -/
def LiftTaken (d : Pedal) (depth : Depth) (p q : Part) : Prop :=
  let r := p.pedal d
  let want := if d = .damper then depth else r.depth
  match r.state with
  | .lowered =>
    if r.faulted then
      q = { p with arbiter := { p.arbiter with withdrawals := min (p.arbiter.withdrawals + 1) 4294967295 } }
    else LiftRequested d want .lowered p q
  | .dropping => LiftRequested d want .dropping p q
  | .waiting =>
    if want = r.depth then q = p
    else if r.origin = some .deepen then LiftWithdrawn d { r with state := .raised, origin := none, depth := .part } p q
    else q = p.setPedal d { r with depth := want }
  | .lifting => q = p.setPedal d { r with dropMark := false, depth := want }
  | .raised =>
    if want = r.depth then q = p
    else if want = .part then
      q = p.setPedal d
        { r with depth := .part, drive := r.drive.setDuty p.settings.pwmBase p.now (some p.settings.damperHoldPart) }
    else LiftRequested d .full .deepen p q

/-- What a drop does to a pedal (R152). A damper whose lift is withdrawn keeps the depth asked for where it goes back to
LOWERED or DROPPING (log entry 24). -/
def DropTaken (d : Pedal) (p q : Part) : Prop :=
  let r := p.pedal d
  let settle := (p.settings.ofPedal d).2.2.2
  match r.state with
  | .lowered | .dropping => q = p
  | .lifting => q = p.setPedal d { r with dropMark := true }
  | .raised => q = p.setPedal d (r.fallen p.now settle)
  | .waiting =>
    LiftWithdrawn d
      (match r.origin with
        | some .dropping =>
          { r with state := .dropping, origin := none, settleTimer := some { started := p.now, length := settle } }
        | some .deepen => { r with origin := none, depth := .part }.fallen p.now settle
        | _ => { r with state := .lowered, origin := none })
      p q

/-- The damper is handed the demand of the two recorded levels (R149). -/
def Part.damperDemanded (p : Part) : Part :=
  if p.pedals.liftLevel then liftPedal .damper .full p
  else if p.pedals.featherLevel then liftPedal .damper .part p
  else dropPedal .damper p

/-- A rail is handed a lift or a drop. -/
def Part.railAsked (p : Part) (h : Half) (up : Bool) : Part :=
  if up then liftPedal (railOf h) .full p else dropPedal (railOf h) p

/-- The part with a half's auto demand set (R86, R88). -/
def Part.demanding (p : Part) (h : Half) (up : Bool) : Part :=
  p.setHalf h { p.expression.halves.get h with autoUp := up }

/-- A rail in ROLL follows the SOFT level, and no other rail moves (R149). -/
def Part.softFollowed (p : Part) (h : Half) : Part :=
  if p.settings.railMode.get h = .roll then p.railAsked h p.pedals.softLevel else p

/-- The rail stage of an expression tick for one half (R86): an AUTO rail is lifted below RailOn and dropped above
RailOff, with the demand set; between the two, and in every other mode, nothing is asked. -/
def Part.railStaged (p : Part) (h : Half) : Part :=
  let shade := (p.expression.halves.get h).shade
  if p.settings.railMode.get h ≠ .auto then p
  else if shade < p.settings.railOn then (p.demanding h true).railAsked h true
  else if p.settings.railOff < shade then (p.demanding h false).railAsked h false
  else p

/-- The re-sync of one rail, by its mode (R88, R157). -/
def Part.railResynced (p : Part) (h : Half) : Part :=
  let x := p.expression.halves.get h
  let up := if x.shade < p.settings.railOn then true else if p.settings.railOff < x.shade then false else x.autoUp
  if (p.pedal (railOf h)).faulted then p
  else
    match p.settings.railMode.get h with
    | .auto => (p.demanding h up).railAsked h up
    | .roll => p.railAsked h p.pedals.softLevel
    | .up => p.railAsked h true
    | .down => p.railAsked h false

/-- The re-sync (R157): the damper, the bass rail and the treble rail in this order, each but one whose faulted mark is
set. -/
def Part.resynced (p : Part) : Part :=
  let damper := if p.pedals.damper.faulted then p else p.damperDemanded
  (damper.railResynced .bass).railResynced .treble

/-! ### The lead decoder (R159, R160) -/

/-- The lead decoder has examined a row: each lead track has moved on the raw hole of its entry's source, a role with no
entry stays CLOSED, and L is the row after. An onset lifts a damper that is LOWERED or DROPPING and not faulted, to FULL
if the lead DAMPER_LIFT level is open and to PART if not. -/
def LeadExamined (row : StoredRow) (p q : Part) : Prop :=
  let t := p.settings
  let seen := fun (f : TrackFunction) (d : Debounce) (m : TrackMove) =>
    (∀ u : TrackNo, t.trackMap[u].function = f →
        m = moveTrack t.onRows t.offRows row.number (row.holes.getLsbD t.trackMap[u].source.val) d)
      ∧ ((∀ u : TrackNo, t.trackMap[u].function ≠ f) → m.state = .closed ∧ m.event = .none)
  ∃ lift feather : TrackMove,
    seen .damperLift p.pedals.lead.lift lift ∧ seen .damperFeather p.pedals.lead.feather feather
      ∧ let moved : Part :=
          { p with pedals := { p.pedals with
              lead := { next := row.number + 1, lift := lift.state, feather := feather.state } } }
        let onset := (∃ r, lift.event = .onset r) ∨ ∃ r, feather.event = .onset r
        let lifts := onset ∧ p.pedals.damper.faulted = false
          ∧ (p.pedals.damper.state = .lowered ∨ p.pedals.damper.state = .dropping)
        (lifts → q = liftPedal .damper (if lift.state.level then .full else .part) moved) ∧ (¬ lifts → q = moved)

/-- The lead decoder has examined these rows, one after the other. -/
inductive LeadChain : List StoredRow → Part → Part → Prop where
  | done {p : Part} : LeadChain [] p p
  | next {row : StoredRow} {rest : List StoredRow} {p q r : Part} :
      LeadExamined row p q → LeadChain rest q r → LeadChain (row :: rest) p r

/-- The lead decoder has examined every held row from L up to the head row plus PedalLead; with PedalLead 0 it has
examined nothing (R159). -/
def LeadAhead (p q : Part) : Prop :=
  if p.settings.pedalLead = 0 then q = p
  else
    LeadChain
      (p.ring.rows.filter fun row =>
        decide (p.pedals.lead.next ≤ row.number ∧ row.number ≤ p.feed.headRow + p.settings.pedalLead)) p q

/-! ### The take of a row -/

/-- Q by R22, from Q_base, B and d. -/
def FeedClock.grown (f : FeedClock) : Nat :=
  max 1 (min 65535 (f.qBase + f.qBase * f.buildUp * (f.rowsTaken / 1000) / 1000000))

/-- What the Cue Matcher does with the levels of a row (R35, R64 to R67), the transport RUNNING. While cue-valid is
clear, nothing. Else each slot in use and not spent counts a match, or returns to 0; one whose count comes to hold rows
fires, joins the slot set, is spent if it fires once, and has its action taken; END clears cue-valid. Where two TEMPO or
two TRIM slots fire, either parameter may be the last. -/
def CuesMatched (p q : Part) : Prop :=
  let t := p.settings
  let matched := fun i : Fin 4 =>
    ∀ u : TrackNo, t.cueSlots[i].mask.getLsbD u.val = true →
      p.tracks.states[u].level = t.cueSlots[i].pattern.getLsbD u.val
  let compares := fun i : Fin 4 => t.cueSlots[i].mask ≠ 0 ∧ p.cues.runs[i].spent = false
  let fires := fun i : Fin 4 => compares i ∧ matched i ∧ p.cues.runs[i].count + 1 = t.cueSlots[i].holdRows
  let acts := fun a : CueAction => ∃ i, fires i ∧ t.cueSlots[i].action = a
  (p.cues.valid = false → q = p)
    ∧ (p.cues.valid = true →
      (∀ i : Fin 4,
        (¬ compares i → q.cues.runs[i] = p.cues.runs[i])
          ∧ (compares i → ¬ matched i → q.cues.runs[i] = { count := 0, spent := false })
          ∧ (compares i → matched i →
              q.cues.runs[i].count
                = (if p.cues.runs[i].count < t.cueSlots[i].holdRows then p.cues.runs[i].count + 1
                  else p.cues.runs[i].count)
              ∧ (q.cues.runs[i].spent = true ↔ t.cueSlots[i].once = true ∧ fires i))
          ∧ (q.notices.cueSet.getLsbD i.val = true ↔ p.notices.cueSet.getLsbD i.val = true ∨ fires i))
        ∧ (q.cues.valid = true ↔ ¬ acts .endRoll)
        ∧ (¬ acts .endRoll → ¬ acts .pause →
            q = { p with
              feed := q.feed
              cues := q.cues
              choices := q.choices
              notices := { p.notices with cueSet := q.notices.cueSet }
              link := { p.link with noticeAsked := q.link.noticeAsked } })
        ∧ (q.feed = { p.feed with
              transport := q.feed.transport, tempo := q.feed.tempo, trim := q.feed.trim, qBase := q.feed.qBase
              q := q.feed.q, starve := q.feed.starve })
        ∧ (¬ acts .tempo → q.feed.tempo = p.feed.tempo)
        ∧ (acts .tempo → ∃ i, fires i ∧ t.cueSlots[i].action = .tempo ∧ q.feed.tempo = t.cueSlots[i].parameter)
        ∧ (¬ acts .trim → q.feed.trim = p.feed.trim)
        ∧ (acts .trim → ∃ i, fires i ∧ t.cueSlots[i].action = .trim
            ∧ q.feed.trim = max t.trimLow (min t.trimHigh t.cueSlots[i].parameter))
        ∧ (¬ acts .tempo → ¬ acts .trim → q.feed.qBase = p.feed.qBase ∧ q.feed.q = p.feed.q)
        ∧ (acts .tempo ∨ acts .trim →
            q.feed.qBase = (q.feed.pitch * q.feed.tempo * q.feed.trim * 65536 + 250000000) / 500000000
              ∧ q.feed.q = q.feed.grown)
        ∧ (acts .endRoll → q.feed.transport = .ended ∧ q.notices.flag .rollEnded = true)
        ∧ (¬ acts .endRoll → acts .pause → q.feed.transport = .paused)
        ∧ (¬ acts .endRoll → ¬ acts .pause → q.feed.transport = .running)
        ∧ (acts .endRoll ∨ acts .pause → PlayReleased p q)
        ∧ q.settings = p.settings ∧ q.store = p.store ∧ q.ring = p.ring ∧ q.tracks = p.tracks
        ∧ q.expression = p.expression ∧ q.player = p.player ∧ q.pedals.lead = p.pedals.lead)

/-- What the report of a take does (R21, R31): the taken mark is set, d counts, Q is recomputed at each multiple of 1000,
and the end row, or the last row number there is, ends the roll. -/
def TakeReported (row : StoredRow) (p q : Part) : Prop :=
  let counted : FeedClock := { p.feed with taken := true, rowsTaken := p.feed.rowsTaken + 1 }
  let feed : FeedClock := if counted.rowsTaken % 1000 = 0 then { counted with q := counted.grown } else counted
  let ends := if p.feed.endRow = 0 then row.number = 2147483647 else row.number = p.feed.endRow
  (¬ ends ∨ p.feed.transport = .ended → q = { p with feed := feed })
    ∧ (ends → p.feed.transport = .running ∨ p.feed.transport = .paused →
        q.feed = { feed with transport := .ended } ∧ PlayReleased p q ∧ RollKept p q
          ∧ q.notices.flag .rollEnded = true)

/-- What the take of a row does, from the part in which the row is due and stands at the head of the ring (R4, R14, R46,
R47, R49, R51, R55, R159): the lead decoder examines the row if it has not; the ring gives it up, with RING_LOW raised
where the low-water state passes to BELOW in RUNNING; every track moves, with specks and patches counted; the events go
out in ascending track order; the cues are matched; the take is reported; and the lead decoder looks ahead, also where
the row has left the transport PAUSED or ENDED (log entry 34). -/
def RowTaken (row : StoredRow) (p q : Part) : Prop :=
  let t := p.settings
  let hole := fun u : TrackNo => row.holes.getLsbD t.trackMap[u].source.val
  let move := fun u : TrackNo => moveTrack t.onRows t.offRows row.number (hole u) p.tracks.states[u]
  let speck := fun u : TrackNo => !hole u && (match p.tracks.states[u] with | .opening _ _ => true | _ => false)
  let patch := fun u : TrackNo => hole u && (match p.tracks.states[u] with | .closing _ => true | _ => false)
  let above := decide (t.ringLow ≤ p.ring.rows.length - 1)
  let tracks : TrackDecoder :=
    { states := Vector.ofFn fun u => (move u).state
      specks := min (p.tracks.specks + ((List.finRange 112).filter speck).length) 4294967295
      patches := min (p.tracks.patches + ((List.finRange 112).filter patch).length) 4294967295 }
  ∃ led cued reported : Part,
    (t.pedalLead ≠ 0 → p.pedals.lead.next ≤ row.number → LeadExamined row p led)
      ∧ (t.pedalLead = 0 ∨ row.number < p.pedals.lead.next → led = p)
      ∧ (let given : Part := { led with ring := { p.ring with rows := p.ring.rows.tail, above := above } }
        let lowered := if p.ring.above = true ∧ above = false ∧ p.feed.transport = .running
          then raise .ringLow given else given
        CuesMatched
          ((List.finRange 112).foldl (fun r u => handEvent u (move u).event r) { lowered with tracks := tracks }) cued)
      ∧ TakeReported row cued reported
      ∧ (t.pedalLead = 0 →
          q = { reported with pedals := { reported.pedals with
            lead := { reported.pedals.lead with next := reported.feed.headRow } } })
      ∧ (t.pedalLead ≠ 0 → LeadAhead reported q)

/-! ### Settings of section 11.3 -/

/-- The range of a scalar item that is checked against its range alone, and in every transport state (section 11.3). -/
def Item.plainRange : Item → Option (Nat × Nat)
  | .trimLow => some (500, 1000)
  | .trimHigh => some (1000, 2000)
  | .starveHold => some (0, 5000)
  | .stepRate | .slowRate | .quickRate => some (1, 255)
  | .swellCeiling => some (0, 1023)
  | .accentLift => some (0, 512)
  | .kickMin => some (2, 100)
  | .kickMax => some (100, 1000)
  | .waitLimit => some (1, 100)
  | .holdLimit => some (1, 120)
  | .damperKick | .railKick => some (10, 200)
  | .damperKickDuty | .railKickDuty => some (1, 32)
  | .damperSettle | .railSettle => some (5, 200)
  | .ringLow | .trackMap | .splitKey | .onRows | .offRows | .cueSlot | .stepTable | .railOn | .railOff | .railMode
  | .railScale | .voicing | .budgetUnits | .damperCost | .railCost | .repeatGuard | .pwmBase | .heatSoft | .heatHard
  | .damperHoldFull | .damperHoldPart | .railHold | .pedalLead | .linkSilence | .noticeMask | .lineFaultMask
  | .lineRestingMask => none

/-- The low and the high byte of a scalar value in a WRITE SETTING payload (section 11.3). -/
def valueOf (f : Frame) : Nat :=
  byteAt f.payload 2 + 256 * byteAt f.payload 3

end Sys2Proof.Machine
end

