-- ==== Sys2Proof/Certificates/Slice0/Obligations.lean ====
section
/-! DEFINITION. The statements for the provers, each a proposition about the machine. -/

open Sys2Proof Sys2Proof.Machine

/-! ### The queue, the resets and the supply -/

/-- A step with a command in front takes that command on the rest of the queue. With none, it is the part's own next
event, or one kick step of time (log entry 2). -/
def Obligations.StepTakesFrontCommand : Prop :=
  (∀ c rest p, step { pending := c :: rest, part := p } = exec c { pending := rest, part := p })
    ∧ (∀ c p, dueEvent p = some c → step { pending := [], part := p } = exec c { pending := [], part := p })
    ∧ ∀ p, dueEvent p = none →
        step { pending := [], part := p } = .next { pending := [], part := { p with now := p.now + 1 } }

/-- A pin reset (R175) gives every block its pin-reset values, whatever state it finds; the image chooses between the
stored settings and the defaults, and State.reset is what it leaves with a failing image and low straps (log entry 7).
That a save under way leaves the settings it was writing, with a check that fails, and that the model's clock runs on,
are the model's choices (log entries 26 and 29). -/
def Obligations.PinResetValues : Prop :=
  (∀ s r1 r0, ∃ t,
    exec (.pinReset r1 r0) s = .next t ∧ t.pending = s.pending ∧ t.part.power = .on ∧ t.part.saving = none
      ∧ (s.part.saving = none → t.part.store = s.part.store)
      ∧ (∀ u, s.part.saving = some u → t.part.store.settings = u ∧ t.part.store.passes = false)
      ∧ (t.part.store.passes = true → t.part.settings = t.part.store.settings)
      ∧ (t.part.store.passes = false → t.part.settings = defaultSettings)
      ∧ t.part.feed.transport = .unloaded ∧ t.part.feed.row = 0 ∧ t.part.feed.fraction = 0
      ∧ t.part.feed.taken = false ∧ t.part.feed.tempo = 0 ∧ t.part.feed.trim = 1000 ∧ t.part.feed.pitch = 300
      ∧ t.part.feed.buildUp = 0 ∧ t.part.feed.endRow = 0 ∧ t.part.feed.rowsTaken = 0 ∧ t.part.feed.qBase = 0
      ∧ t.part.feed.q = 0 ∧ t.part.feed.starve = none ∧ t.part.feed.starveReleases = 0
      ∧ RingCleared t.part 0 ∧ TracksClosed t.part ∧ t.part.tracks.specks = 0 ∧ t.part.tracks.patches = 0
      ∧ CuesFresh t.part ∧ t.part.cues.valid = false ∧ t.part.player = none
      ∧ (∀ h, (t.part.expression.halves.get h).shade = t.part.settings.stepTable[0]
          ∧ (t.part.expression.halves.get h).swelled = false ∧ (t.part.expression.halves.get h).autoUp = false)
      ∧ (∀ m : LineNo, t.part.arbiter.grants[m] = none ∧ t.part.drives.reported[m] = .none)
      ∧ t.part.arbiter.wait = [] ∧ (∀ i : Fin 8, t.part.arbiter.outcomes[i] = 0)
      ∧ t.part.arbiter.latePedals = 0 ∧ t.part.arbiter.withdrawals = 0 ∧ t.part.arbiter.history = []
      ∧ t.part.arbiter.nextSequence = 0 ∧ t.part.drives.holdCuts = 0
      ∧ (∀ k, (t.part.key k).state = .idle ∧ (t.part.key k).heat = t.part.settings.heatSoft
          ∧ (t.part.key k).resting = false ∧ (t.part.key k).plan = none ∧ (t.part.key k).pending = none
          ∧ (t.part.key k).queuedOrigin = none ∧ (t.part.key k).short = false
          ∧ (t.part.key k).drive.duty = none ∧ (t.part.key k).fault = .none)
      ∧ (∀ d, (t.part.pedal d).state = .lowered ∧ (t.part.pedal d).depth = .full ∧ (t.part.pedal d).origin = none
          ∧ (t.part.pedal d).dropMark = false ∧ (t.part.pedal d).faulted = false ∧ (t.part.pedal d).fault = .none
          ∧ (t.part.pedal d).kickTimer = none ∧ (t.part.pedal d).settleTimer = none
          ∧ (t.part.pedal d).drive.duty = none)
      ∧ LeadReset t.part 0
      ∧ (∀ src : NoticeSource, t.part.notices.flag src = true ↔
          (src = .started ∨ (src = .settingsDefaulted ∧ t.part.store.passes = false)))
      ∧ t.part.notices.mask = BitVec.allOnes 13 ∧ t.part.notices.faultMask = BitVec.allOnes 91
      ∧ t.part.notices.restingMask = BitVec.allOnes 88 ∧ t.part.notices.cueSet = 0
      ∧ t.part.notices.faultSet = 0 ∧ t.part.notices.restingSet = 0
      ∧ t.part.link.baud = (if r1 = r0 then (if r1 then 921600 else 460800) else if r1 then 1843200 else 921600)
      ∧ t.part.link.candidate = [] ∧ t.part.link.waiting = [] ∧ t.part.link.queue = []
      ∧ t.part.link.sending = none ∧ t.part.link.discarded = 0 ∧ t.part.link.overruns = 0
      ∧ t.part.link.silenceRunning = true ∧ t.part.link.silenceStarted = s.part.now
      ∧ t.part.link.noticeAsked = true ∧ t.part.now = s.part.now)
    ∧ (StoreImage.spoilt defaultSettings).passes = false ∧ State.reset.pending = []
    ∧ State.reset.part = Part.afterPinReset (StoreImage.spoilt defaultSettings) false false 0 0

/-- nRESET low and the loss of the supply end all activity: every drive output is low, TXD idles, and a save under way
leaves an image that fails its check (R173, R175). That this image holds the settings being saved, that nothing else of
the state moves, and that TXD is high while every drive output is low are the model's choices (log entries 26, 6 and
20). -/
def Obligations.PowerAndResetEndActivity : Prop :=
  ∀ (s : State) (c : Instr), (c = Instr.powerFail ∨ (c = Instr.resetAsserted ∧ s.part.power = .on)) →
    ∃ t, exec c s = .next t
      ∧ t.part.power = (if c = Instr.powerFail then Power.off else Power.held)
      ∧ (∀ line ns, t.part.drv line ns = false) ∧ (∀ ns, t.part.txd ns = true)
      ∧ t.part.saving = none
      ∧ (∀ u, s.part.saving = some u → t.part.store.settings = u ∧ t.part.store.passes = false)
      ∧ (s.part.saving = none → t.part.store = s.part.store)
      ∧ t = s.withPart { s.part with
          power := t.part.power, saving := none, store := t.part.store }

/-- A command that names a line outside the part's 91 stops; while the part does not run every other command but
PIN_RESET and POWER_FAIL changes nothing; and the command of a request changes nothing unless the request that waits
first is its own and may be taken (R165, log entries 4 and 6). That such a line stops the command is the model's
choice (log entry 10). -/
def Obligations.CommandsNeedTheirMoment : Prop :=
  ∀ (s : State) (c : Instr),
    (¬ c.WellFormed → exec c s = .fault .noSuchLine)
      ∧ (c.WellFormed → s.part.power ≠ .on → c ≠ .powerFail → (∀ r1 r0, c ≠ .pinReset r1 r0) → exec c s = .next s)
      ∧ (takesRequest c = true → (∀ f, s.part.MayTake f → rowOf f ≠ c) → exec c s = .next s)

/-! ### The Link Port -/

/-- What a byte on RXD does, by the hunt state and the bytes held (R162, R163, R164): the cases in which no candidate is
completed by it. That a byte lost to a full buffer counts in HUNT too, and starts no gap timer again, is the model's
choice (log entry 32). -/
def Obligations.ByteReceived : Prop :=
  ∀ (s : State) (b : Byte), s.part.power = .on →
    exec (.receiveByte b false) s = .next s
      ∧ (4096 ≤ s.part.link.buffered →
          exec (.receiveByte b true) s
            = .next (s.withPart { s.part with
                link := { s.part.link with overruns := min (s.part.link.overruns + 1) 4294967295 } }))
      ∧ (s.part.link.buffered < 4096 → s.part.link.candidate = [] → b ≠ 0x7E →
          exec (.receiveByte b true) s = .next s)
      ∧ (s.part.link.buffered < 4096 → s.part.link.candidate = [] → b = 0x7E →
          exec (.receiveByte b true) s
            = .next (s.withPart { s.part with
                link := { s.part.link with candidate := [0x7E], gapStarted := s.part.now } }))
      ∧ ∀ bs, s.part.link.buffered < 4096 → s.part.link.candidate = 0x7E :: bs → NeedsMore (bs ++ [b]) →
          exec (.receiveByte b true) s
            = .next (s.withPart { s.part with
                link := { s.part.link with candidate := 0x7E :: (bs ++ [b]), gapStarted := s.part.now } })

/-- The bytes of a frame, received one after the other from HUNT with room for them, are read as that frame: it waits
behind every earlier one, the receiver is in HUNT again, and the silence timer has restarted (R163, R164, R167). -/
def Obligations.FrameReceivedWhole : Prop :=
  ∀ (s : State) (f : Frame), s.part.power = .on → s.part.link.candidate = [] → f.payload.length ≤ 1024 →
    s.part.link.buffered + (f.payload.length + 7) ≤ 4096 →
      execAll (f.bytes.map fun b => Instr.receiveByte b true) s
        = .next (s.withPart { s.part with
            link := { s.part.link with
              waiting := s.part.link.waiting ++ [f]
              gapStarted := s.part.now
              silenceStarted := s.part.now
              silenceRunning := true } })

/-- A candidate whose length is above 1024, whose check fails, or whose gap timer expires is discarded and counted, and
FRAME_ERRORS is raised (R163). The hunt that follows goes through the bytes behind its sync: the good frames it finds
wait, a candidate it finds is under reception with its gap timer started, and each candidate discarded in turn is
counted. What a byte does to a candidate is what the hunt through all its bytes finds, and every list of bytes has such a
hunt. In HUNT no gap timer runs. The command says that the gap timer has reached its length (log entry 9). -/
def Obligations.CandidateDiscarded : Prop :=
  ∀ s : State, s.part.power = .on →
    (s.part.link.candidate = [] → exec .gapTimerExpiry s = .next s)
      ∧ (∀ bs, s.part.link.candidate = 0x7E :: bs → (0x7E : Byte) ∉ bs →
          exec .gapTimerExpiry s
            = .next (s.withPart (raise .frameErrors { s.part with
                link := { s.part.link with
                  candidate := [], discarded := min (s.part.link.discarded + 1) 4294967295 } })))
      ∧ (∀ bs b, s.part.link.buffered < 4096 → s.part.link.candidate = 0x7E :: bs → (0x7E : Byte) ∉ bs ++ [b] →
          Condemned (bs ++ [b]) →
            exec (.receiveByte b true) s
              = .next (s.withPart (raise .frameErrors { s.part with
                  link := { s.part.link with
                    candidate := [], discarded := min (s.part.link.discarded + 1) 4294967295 } })))
      ∧ (∀ bs, ∃ frames left lost, Hunted bs frames left lost)
      ∧ (∀ bs frames left lost, s.part.link.candidate = 0x7E :: bs → Hunted bs frames left lost →
          exec .gapTimerExpiry s
            = .next (s.withPart (({ s.part with
                link := s.part.link.hunted frames left s.part.now } : Part).discarding (lost + 1))))
      ∧ ∀ b frames left lost, s.part.link.buffered < 4096 →
          Hunted (s.part.link.candidate ++ [b]) frames left lost →
            exec (.receiveByte b true) s
              = .next (s.withPart (({ s.part with
                  link := s.part.link.hunted frames left s.part.now } : Part).discarding lost))

/-- The expiry of the silence timer (R36, R167): in RUNNING and STARVED it is a PAUSE with LINK_SILENCE raised, in
every other state it stops the timer alone, and with LinkSilence 0 or the timer stopped none comes. The command says
that the timer has reached its length (log entry 9), and a line that waits in RELEASE with its guard complete is IDLE
once its plan is flushed (log entry 12). -/
def Obligations.HostSilencePauses : Prop :=
  ∀ s : State, s.part.power = .on →
    (s.part.settings.linkSilence = 0 ∨ s.part.link.silenceRunning = false →
        exec .hostSilenceExpiry s = .next s)
      ∧ (s.part.settings.linkSilence ≠ 0 → s.part.link.silenceRunning = true → s.part.inPlay = false →
          exec .hostSilenceExpiry s
            = .next (s.withPart { s.part with link := { s.part.link with silenceRunning := false } }))
      ∧ (s.part.settings.linkSilence ≠ 0 → s.part.link.silenceRunning = true → s.part.inPlay = true →
          BudgetSound s.part → ∃ t, exec .hostSilenceExpiry s = .next t
            ∧ t.part.feed = { s.part.feed with transport := .paused, starve := none }
            ∧ PlayReleased s.part t.part ∧ RollKept s.part t.part ∧ t.part.notices.flag .linkSilence = true
            ∧ t.part.link.silenceRunning = false ∧ t.pending = s.pending)

/-- The transmit queue (R166): a frame begins only when the one before it has been sent whole, in the order placed; a
notice frame takes its content then, and it is placed once 33 bytes are free for it. -/
def Obligations.TransmitQueueSends : Prop :=
  ∀ s : State, s.part.power = .on →
    (s.part.link.queue = [] ∨ s.part.link.unsent s.part.now ≠ 0 → exec .sendFrame s = .next s)
      ∧ (∀ bytes rest, s.part.link.queue = .reply bytes :: rest → s.part.link.unsent s.part.now = 0 →
          exec .sendFrame s
            = .next (s.withPart { s.part with
                link := { s.part.link with
                  queue := rest, sending := some { bytes := bytes, began := s.part.now } } }))
      ∧ (∀ rest, s.part.link.queue = .notice :: rest → s.part.link.unsent s.part.now = 0 →
          exec .sendFrame s
            = .next (s.withPart { s.part with
                link := { s.part.link with
                  queue := rest
                  sending := some
                    { bytes :=
                        ({ kind := 0xC0
                           tag := 0
                           payload := littleEndian 2 s.part.notices.flags.toNat
                             ++ littleEndian 1 s.part.notices.cueSet.toNat
                             ++ littleEndian 12 s.part.notices.faultSet.toNat
                             ++ littleEndian 11 s.part.notices.restingSet.toNat } : Frame).bytes
                      began := s.part.now } } }))
      ∧ (s.part.link.noticeAsked = true → 33 ≤ s.part.link.room s.part.now →
          exec .noticeFramePlace s
            = .next (s.withPart { s.part with
                link := { s.part.link with noticeAsked := false, queue := s.part.link.queue ++ [.notice] } }))
      ∧ (s.part.link.noticeAsked = false ∨ s.part.link.room s.part.now < 33 → exec .noticeFramePlace s = .next s)

/-- A raise (R168, R169) sets its own flag and no other, leaves every mask, and asks for a notice frame exactly when
the summary passes from empty to not empty with none waiting; a source with a set gains its slot or line there and
leaves the other sets. A line's flag follows its line mask. Nothing else changes. The asking stands as a mark of the Link
Port until the frame is placed (log entry 5). -/
def Obligations.RaiseSetsFlag : Prop :=
  let asked := fun (p q : Part) =>
    { p.link with
      noticeAsked := p.link.noticeAsked
        || (p.notices.summary == 0 && q.notices.summary != 0
          && !decide (TransmitItem.notice ∈ p.link.queue)) }
  (∀ p src, src ≠ NoticeSource.cueFired → src ≠ NoticeSource.lineFault → src ≠ NoticeSource.lineResting →
    let q := raise src p
    (∀ other, q.notices.flag other = (p.notices.flag other || other == src))
      ∧ q = { p with notices := { p.notices with plain := q.notices.plain }, link := asked p q })
    ∧ (∀ p (i : Fin 4),
      let q := raiseCueFired i p
      (∀ j : Fin 4, q.notices.cueSet.getLsbD j.val = (p.notices.cueSet.getLsbD j.val || j == i))
        ∧ (∀ other, q.notices.flag other = (p.notices.flag other || other == .cueFired))
        ∧ q = { p with notices := { p.notices with cueSet := q.notices.cueSet }, link := asked p q })
    ∧ (∀ p (m : LineNo),
      let q := raiseLineFault m p
      (∀ n : LineNo, q.notices.faultSet.getLsbD n.val = (p.notices.faultSet.getLsbD n.val || n == m))
        ∧ (∀ other, q.notices.flag other
            = (p.notices.flag other || (other == .lineFault && p.notices.faultMask.getLsbD m.val)))
        ∧ q = { p with notices := { p.notices with faultSet := q.notices.faultSet }, link := asked p q })
    ∧ ∀ p (k : KeyNo),
      let q := raiseLineResting k p
      (∀ n : KeyNo, q.notices.restingSet.getLsbD n.val = (p.notices.restingSet.getLsbD n.val || n == k))
        ∧ (∀ other, q.notices.flag other
            = (p.notices.flag other || (other == .lineResting && p.notices.restingMask.getLsbD k.val)))
        ∧ q = { p with notices := { p.notices with restingSet := q.notices.restingSet }, link := asked p q }

/-- A request of a kind outside the catalogue is answered with kind 0xFF, its own tag and UNKNOWN_KIND alone (R165). -/
def Obligations.UnknownKindAnswered : Prop :=
  ∀ (s : State) (f : Frame), s.part.MayTake f → f.kind ∉ catalogue →
    exec .unknownKind s
      = .next (s.withPart { s.part with
          link := { s.part.link with
            queue := s.part.link.queue
              ++ [.reply ({ kind := 0xFF, tag := f.tag, payload := [7] } : Frame).bytes]
            waiting := s.part.link.waiting.tail } })

/-! ### Reads of the part -/

/-- IDENTIFY and READ STATUS (R171): the fields of both replies, in their order and at their sizes, and nothing else of
the state changed. -/
def Obligations.IdentityAndStatusRead : Prop :=
  ∀ (s : State) (f : Frame), s.part.MayTake f →
    (f.kind = 0x01 → f.payload = [] →
        exec .identify s = .next (s.withPart (s.part.replied f [0, 0x88, 0x4B, 1, 112, 91, 0, 8, 32, 64, 4])))
      ∧ (f.kind = 0x01 → f.payload ≠ [] → Refuses .identify s f 9)
      ∧ (f.kind = 0x02 → f.payload ≠ [] → Refuses .readStatus s f 9)
      ∧ (f.kind = 0x02 → f.payload = [] →
        ∃ r : List Byte, exec .readStatus s = .next (s.withPart (s.part.replied f r))
          ∧ r.length = 462 + 4 * s.part.arbiter.wait.length
          ∧ (s.part.arbiter.wait.length = 32 → r.length = 590)
          ∧ fieldAt r 0 1 = 0 ∧ fieldAt r 1 1 = s.part.feed.transport.code
          ∧ fieldAt r 2 4 = s.part.feed.headRow % 2 ^ 32 ∧ fieldAt r 6 2 = s.part.feed.fraction % 2 ^ 16
          ∧ fieldAt r 8 2 = s.part.feed.q % 2 ^ 16 ∧ fieldAt r 10 2 = s.part.feed.tempo % 2 ^ 16
          ∧ fieldAt r 12 2 = s.part.feed.trim % 2 ^ 16 ∧ fieldAt r 14 4 = min s.part.feed.rowsTaken (2 ^ 32 - 1)
          ∧ fieldAt r 18 2 = s.part.ring.rows.length % 2 ^ 16
          ∧ fieldAt r 20 4 = s.part.ring.nextExpected % 2 ^ 32
          ∧ fieldAt r 24 4 = s.part.pedals.lead.next % 2 ^ 32
          ∧ (∀ h,
              let at_ := match h with | Half.bass => 28 | Half.treble => 33
              let x := s.part.expression.halves.get h
              fieldAt r at_ 2 = x.shade % 2 ^ 16 ∧ fieldAt r (at_ + 2) 1 = x.swelled.toNat
                ∧ fieldAt r (at_ + 3) 1 = (s.part.settings.railMode.get h).code
                ∧ fieldAt r (at_ + 4) 1
                  = x.levels.step1.toNat + 2 * x.levels.step2.toNat + 4 * x.levels.step4.toNat
                    + 8 * x.levels.swell.toNat + 16 * x.levels.quick.toNat + 32 * x.levels.accent.toNat
                    + 64 * x.autoUp.toNat)
          ∧ (∀ d,
              let at_ := match d with | Pedal.damper => 38 | Pedal.bassRail => 40 | Pedal.trebleRail => 42
              let x := s.part.pedal d
              fieldAt r at_ 1 = x.state.code
                ∧ fieldAt r (at_ + 1) 1
                  = 128 * x.faulted.toNat + 64 * (d == Pedal.damper && x.depth == Depth.part).toNat)
          ∧ fieldAt r 44 1 = s.part.arbiter.unitsInUse % 2 ^ 8
          ∧ fieldAt r 45 1 = s.part.arbiter.wait.length % 2 ^ 8
          ∧ (∀ i (h : i < s.part.arbiter.wait.length),
              let e := s.part.arbiter.wait[i]
              fieldAt r (46 + 4 * i) 1 = e.line.val ∧ fieldAt r (47 + 4 * i) 1 = e.priority % 2 ^ 8
                ∧ fieldAt r (48 + 4 * i) 1 = e.cost % 2 ^ 8
                ∧ fieldAt r (49 + 4 * i) 1 = min ((s.part.now - e.entered) / 20) 255)
          ∧ (∀ k : KeyNo,
              let at_ := 46 + 4 * s.part.arbiter.wait.length + 4 * k.val
              fieldAt r at_ 1 = (s.part.key k).state.code
                ∧ fieldAt r (at_ + 1) 1
                  = (if (s.part.key k).state = .faulted then (s.part.key k).fault.code else 0)
                ∧ fieldAt r (at_ + 2) 2 = (s.part.key k).heat % 2 ^ 16)
          ∧ let at_ := 398 + 4 * s.part.arbiter.wait.length
            fieldAt r at_ 4 = s.part.tracks.specks % 2 ^ 32
              ∧ fieldAt r (at_ + 4) 4 = s.part.tracks.patches % 2 ^ 32
              ∧ fieldAt r (at_ + 8) 4 = s.part.link.discarded % 2 ^ 32
              ∧ fieldAt r (at_ + 12) 4 = s.part.link.overruns % 2 ^ 32
              ∧ (∀ i : Fin 8, fieldAt r (at_ + 16 + 4 * i.val) 4 = s.part.arbiter.outcomes[i] % 2 ^ 32)
              ∧ fieldAt r (at_ + 48) 4 = s.part.arbiter.latePedals % 2 ^ 32
              ∧ fieldAt r (at_ + 52) 4 = s.part.arbiter.withdrawals % 2 ^ 32
              ∧ fieldAt r (at_ + 56) 4 = s.part.drives.holdCuts % 2 ^ 32
              ∧ fieldAt r (at_ + 60) 4 = s.part.feed.starveReleases % 2 ^ 32)

/-- TAKE NOTICES (R170): the reply shows the flags and sets as they stood; then each named source, slot and line is
cleared, and no other; and a notice frame is asked for while the summary is not empty. The frame asked for is placed
by a later command (log entry 5). -/
def Obligations.NoticesTaken : Prop :=
  ∀ (s : State) (f : Frame), s.part.MayTake f → f.kind = 0x03 →
    (f.payload.length ≠ 26 → Refuses .takeNotices s f 9)
      ∧ (f.payload.length = 26 →
        ∃ q : Part,
          exec .takeNotices s = .next (s.withPart (q.replied f
              ([0] ++ littleEndian 2 s.part.notices.flags.toNat ++ littleEndian 1 s.part.notices.cueSet.toNat
                ++ littleEndian 12 s.part.notices.faultSet.toNat ++ littleEndian 11 s.part.notices.restingSet.toNat)))
            ∧ q = { s.part with
                notices := { s.part.notices with
                  plain := q.notices.plain
                  cueSet := q.notices.cueSet
                  faultSet := q.notices.faultSet
                  restingSet := q.notices.restingSet }
                link := { s.part.link with
                  noticeAsked := s.part.link.noticeAsked
                    || (q.notices.summary != 0 && !decide (TransmitItem.notice ∈ s.part.link.queue)) } }
            ∧ (∀ src, src ≠ NoticeSource.cueFired → src ≠ NoticeSource.lineFault → src ≠ NoticeSource.lineResting →
                q.notices.flag src
                  = (s.part.notices.flag src && !(fieldAt f.payload 0 2).testBit src.bit))
            ∧ (∀ i : Fin 4, q.notices.cueSet.getLsbD i.val
                = (s.part.notices.cueSet.getLsbD i.val && !(fieldAt f.payload 0 2).testBit 6
                  && !(fieldAt f.payload 2 1).testBit i.val))
            ∧ (∀ m : LineNo, q.notices.faultSet.getLsbD m.val
                = (s.part.notices.faultSet.getLsbD m.val && !(fieldAt f.payload 0 2).testBit 10
                  && !(fieldAt f.payload 3 12).testBit m.val))
            ∧ ∀ k : KeyNo, q.notices.restingSet.getLsbD k.val
                = (s.part.notices.restingSet.getLsbD k.val && !(fieldAt f.payload 0 2).testBit 11
                  && !(fieldAt f.payload 15 11).testBit k.val))

/-- READ HISTORY (R126): the reply carries the number of records, the next sequence number and every record, oldest
first, 15 bytes each with the fields of R125; with the clear flag 1 the ring is then emptied, and nothing else changes. -/
def Obligations.HistoryRead : Prop :=
  ∀ (s : State) (f : Frame), s.part.MayTake f → f.kind = 0x04 →
    (f.payload.length ≠ 1 → Refuses .readHistory s f 9)
      ∧ (f.payload.length = 1 → 1 < byteAt f.payload 0 →
          Refuses .readHistory s f 4)
      ∧ (f.payload.length = 1 → byteAt f.payload 0 ≤ 1 →
        ∃ r : List Byte,
          exec .readHistory s
              = .next (s.withPart (({ s.part with
                  arbiter := { s.part.arbiter with
                    history := if byteAt f.payload 0 = 1 then [] else s.part.arbiter.history } } : Part).replied f r))
            ∧ r.length = 4 + 15 * s.part.arbiter.history.length ∧ fieldAt r 0 1 = 0
            ∧ fieldAt r 1 1 = s.part.arbiter.history.length % 2 ^ 8
            ∧ fieldAt r 2 2 = s.part.arbiter.nextSequence % 2 ^ 16
            ∧ ∀ i (h : i < s.part.arbiter.history.length),
                let x := s.part.arbiter.history[i]
                let at_ := 4 + 15 * i
                fieldAt r at_ 2 = x.sequence % 2 ^ 16 ∧ fieldAt r (at_ + 2) 1 = x.line.val
                  ∧ fieldAt r (at_ + 3) 1 = x.origin.code ∧ fieldAt r (at_ + 4) 4 = x.onsetRow % 2 ^ 32
                  ∧ fieldAt r (at_ + 8) 1 = x.outcome.code.val ∧ fieldAt r (at_ + 9) 2 = x.shade % 2 ^ 16
                  ∧ fieldAt r (at_ + 11) 2 = x.kick % 2 ^ 16 ∧ fieldAt r (at_ + 13) 1 = x.waited % 2 ^ 8
                  ∧ fieldAt r (at_ + 14) 1
                    = x.flags.accent.toNat + 2 * x.flags.clamped.toNat + 4 * x.flags.derated.toNat
                      + 8 * x.flags.short.toNat + 16 * x.rowPresent.toNat)

/-- READ SETTING of TrackMap (R41) and of CueSlot (R61): an entry's four fields, with unused fields as R37 gives them; a
slot's six stored fields and its match count, its spent flag and cue-valid; RANGE beyond the last index. It is taken in
every transport state and changes nothing. -/
def Obligations.MapAndCueSlotRead : Prop :=
  ∀ (s : State) (f : Frame), s.part.MayTake f → f.kind = 0x21 → f.payload.length = 2 →
    (∀ t : TrackNo, byteAt f.payload 0 = 0x10 → byteAt f.payload 1 = t.val →
      SettingsSound s.part →
        let e := s.part.settings.trackMap[t]
        (e.function ≠ .key → e.key = 0) ∧ (e.function.isExpression = false → e.half = .bass)
          ∧ exec .readSetting s
            = .next (s.withPart (s.part.replied f
                ([0, 0x10, BitVec.ofNat 8 t.val, BitVec.ofNat 8 e.function.code, BitVec.ofNat 8 e.key.val,
                  BitVec.ofNat 8 e.half.code, BitVec.ofNat 8 e.source.val]))))
      ∧ (byteAt f.payload 0 = 0x10 → 111 < byteAt f.payload 1 →
          Refuses .readSetting s f 4)
      ∧ (∀ i : Fin 4, byteAt f.payload 0 = 0x18 → byteAt f.payload 1 = i.val →
          let c := s.part.settings.cueSlots[i]
          exec .readSetting s
            = .next (s.withPart (s.part.replied f
                ([0, 0x18, BitVec.ofNat 8 i.val] ++ littleEndian 14 c.pattern.toNat ++ littleEndian 14 c.mask.toNat
                  ++ [BitVec.ofNat 8 c.holdRows, BitVec.ofNat 8 c.action.code] ++ littleEndian 2 c.parameter
                  ++ [if c.once then 1 else 0, BitVec.ofNat 8 s.part.cues.runs[i].count,
                    if s.part.cues.runs[i].spent then 1 else 0, if s.part.cues.valid then 1 else 0]))))
      ∧ (byteAt f.payload 0 = 0x18 → 3 < byteAt f.payload 1 →
          Refuses .readSetting s f 4)

/-- The checks that READ SETTING and WRITE SETTING make first (R172): LENGTH, UNKNOWN_ITEM, LENGTH; a refusal changes
nothing. A read that passes them answers OK with the item's value, or RANGE where it has none at the index. A refusal
is the result alone (log entry 23). -/
def Obligations.SettingRequestsChecked : Prop :=
  ∀ (s : State) (f : Frame), s.part.MayTake f →
    (f.kind = 0x21 → f.payload.length < 2 → Refuses .readSetting s f 9)
      ∧ (f.kind = 0x21 → 2 ≤ f.payload.length → Item.ofCode (byteAt f.payload 0) = none →
          Refuses .readSetting s f 8)
      ∧ (∀ item, f.kind = 0x21 → 2 < f.payload.length → byteAt f.payload 0 = Item.code item →
          Refuses .readSetting s f 9)
      ∧ (∀ item, f.kind = 0x21 → f.payload.length = 2 → byteAt f.payload 0 = Item.code item →
          exec .readSetting s
            = .next (s.withPart (s.part.replied f
                (match readItem item (byteAt f.payload 1) s.part with
                  | some value => [0] ++ f.payload ++ value
                  | none => [4]))))
      ∧ (f.kind = 0x20 → f.payload.length < 2 → Refuses .writeSetting s f 9)
      ∧ (f.kind = 0x20 → 2 ≤ f.payload.length → Item.ofCode (byteAt f.payload 0) = none →
          Refuses .writeSetting s f 8)
      ∧ ∀ item, f.kind = 0x20 → 2 ≤ f.payload.length → byteAt f.payload 0 = Item.code item →
          f.payload.length ≠ 2 + item.size → Refuses item.writer s f 9

/-! ### Writes of the settings -/

/-- A write of an item that has no row of its own and a range check alone (R30, R32, R81, R83, R100, R110, R134, R161):
within its range of section 11.3 the value is read back and no other item reads differently; outside it RANGE, and
nothing changes. -/
def Obligations.PlainSettingWritten : Prop :=
  ∀ (s : State) (f : Frame) (item : Item) (low high : Nat),
    s.part.MayTakeItem f 0x20 item → item.plainRange = some (low, high) →
      (valueOf f < low ∨ high < valueOf f → Refuses .writeSetting s f 4)
        ∧ (low ≤ valueOf f → valueOf f ≤ high →
          ∃ t : Settings,
            Completes .writeSetting s f { s.part with settings := t } [0]
              ∧ scalarValue item { s.part with settings := t } = valueOf f
              ∧ ∀ other index, other ≠ item →
                  readItem other index { s.part with settings := t } = readItem other index s.part)

/-- A write of an item that has no row of its own and more than one check: SplitKey (R44), StepTable (R74), RailOn and
RailOff (R85), RailScale (R87), Voicing (R99), the three budget settings (R109) and LinkSilence (R167). The first check
that fails gives the result and nothing changes; else the one setting is replaced, and nothing else. -/
def Obligations.CheckedSettingWritten : Prop :=
  ∀ (s : State) (f : Frame),
    (s.part.MayTakeItem f 0x20 .splitKey →
      (s.part.inPlay = true → Refuses .writeSetting s f 3)
        ∧ (s.part.inPlay = false → valueOf f < 20 ∨ 67 < valueOf f → Refuses .writeSetting s f 4)
        ∧ (s.part.inPlay = false → 20 ≤ valueOf f → valueOf f ≤ 67 →
            Completes .writeSetting s f
              { s.part with settings := { s.part.settings with splitKey := valueOf f } } [0]))
    ∧ (s.part.MayTakeItem f 0x20 .stepTable →
      (7 < byteAt f.payload 1 ∨ 1023 < valueOf f → Refuses .writeSetting s f 4)
        ∧ ∀ i : Fin 8, byteAt f.payload 1 = i.val → valueOf f ≤ 1023 →
            ((∃ j : Fin 8, j.val + 1 = i.val ∧ valueOf f < s.part.settings.stepTable[j]) →
                Refuses .writeSetting s f 5)
              ∧ ((∃ j : Fin 8, i.val + 1 = j.val ∧ s.part.settings.stepTable[j] < valueOf f) →
                Refuses .writeSetting s f 5)
              ∧ ((∀ j : Fin 8, j.val + 1 = i.val → s.part.settings.stepTable[j] ≤ valueOf f) →
                (∀ j : Fin 8, i.val + 1 = j.val → valueOf f ≤ s.part.settings.stepTable[j]) →
                  Completes .writeSetting s f
                    { s.part with settings := { s.part.settings with
                        stepTable := s.part.settings.stepTable.set i (valueOf f) } } [0]))
    ∧ (s.part.MayTakeItem f 0x20 .railOn →
      (1022 < valueOf f → Refuses .writeSetting s f 4)
        ∧ (valueOf f ≤ 1022 → s.part.settings.railOff ≤ valueOf f → Refuses .writeSetting s f 5)
        ∧ (valueOf f ≤ 1022 → valueOf f < s.part.settings.railOff →
            Completes .writeSetting s f
              { s.part with settings := { s.part.settings with railOn := valueOf f } } [0]))
    ∧ (s.part.MayTakeItem f 0x20 .railOff →
      (valueOf f < 1 ∨ 1023 < valueOf f → Refuses .writeSetting s f 4)
        ∧ (1 ≤ valueOf f → valueOf f ≤ 1023 → valueOf f ≤ s.part.settings.railOn → Refuses .writeSetting s f 5)
        ∧ (valueOf f ≤ 1023 → s.part.settings.railOn < valueOf f →
            Completes .writeSetting s f
              { s.part with settings := { s.part.settings with railOff := valueOf f } } [0]))
    ∧ (s.part.MayTakeItem f 0x20 .railScale →
      (1 < byteAt f.payload 1 ∨ valueOf f < 500 ∨ 2000 < valueOf f → Refuses .writeSetting s f 4)
        ∧ ∀ h : Half, byteAt f.payload 1 = h.code → 500 ≤ valueOf f → valueOf f ≤ 2000 →
            Completes .writeSetting s f
              { s.part with settings := { s.part.settings with
                  railScale := s.part.settings.railScale.set h (valueOf f) } } [0])
    ∧ (s.part.MayTakeItem f 0x20 .voicing →
      let v : Voicing :=
        { floor := byteAt f.payload 2 + 256 * byteAt f.payload 3
          span := byteAt f.payload 4 + 256 * byteAt f.payload 5
          bend := byteAt f.payload 6
          trim := if byteAt f.payload 7 < 128 then byteAt f.payload 7 else (byteAt f.payload 7 : Int) - 256
          kickDuty := byteAt f.payload 8
          holdDuty := byteAt f.payload 9 }
      (87 < byteAt f.payload 1 ∨ ¬ v.legal → Refuses .writeSetting s f 4)
        ∧ ∀ k : KeyNo, byteAt f.payload 1 = k.val → v.legal →
            Completes .writeSetting s f
              { s.part with settings := { s.part.settings with
                  voicing := s.part.settings.voicing.set k v } } [0])
    ∧ (∀ item, item = Item.budgetUnits ∨ item = .damperCost ∨ item = .railCost →
      s.part.MayTakeItem f 0x20 item →
        let t := s.part.settings
        let high := if item = .budgetUnits then 96 else 16
        let low := if item = .budgetUnits then 4 else 1
        let conflict :=
          if item = .budgetUnits then valueOf f < max t.damperCost t.railCost else t.budgetUnits < valueOf f
        let busy := (∃ k, (s.part.key k).state = .kick) ∨ (∃ d, (s.part.pedal d).state = .lifting)
          ∨ s.part.arbiter.wait ≠ []
        (busy → Refuses .writeSetting s f 3)
          ∧ (¬ busy → valueOf f < low ∨ high < valueOf f → Refuses .writeSetting s f 4)
          ∧ (¬ busy → low ≤ valueOf f → valueOf f ≤ high → conflict → Refuses .writeSetting s f 5)
          ∧ (¬ busy → low ≤ valueOf f → valueOf f ≤ high → ¬ conflict →
              Completes .writeSetting s f
                { s.part with settings :=
                    { t with
                      budgetUnits := if item = .budgetUnits then valueOf f else t.budgetUnits
                      damperCost := if item = .damperCost then valueOf f else t.damperCost
                      railCost := if item = .railCost then valueOf f else t.railCost } } [0]))
    ∧ (s.part.MayTakeItem f 0x20 .linkSilence →
      ((1 ≤ valueOf f ∧ valueOf f ≤ 49) ∨ 5000 < valueOf f → Refuses .writeSetting s f 4)
        ∧ (valueOf f = 0 ∨ (50 ≤ valueOf f ∧ valueOf f ≤ 5000) →
            Completes .writeSetting s f
              { s.part with settings := { s.part.settings with linkSilence := valueOf f } } [0]))

/-- A write of RingLow sets the low-water state from the new value and raises nothing (R17); a write of PedalLead resets
the lead decoder and is refused with STATE in RUNNING and STARVED (R161). -/
def Obligations.RingLowAndPedalLeadWritten : Prop :=
  ∀ (s : State) (f : Frame),
    (s.part.MayTakeItem f 0x20 .ringLow →
      (valueOf f < 16 ∨ 2000 < valueOf f → Refuses .writeRingLow s f 4)
        ∧ (16 ≤ valueOf f → valueOf f ≤ 2000 →
            Completes .writeRingLow s f
              { s.part with
                settings := { s.part.settings with ringLow := valueOf f }
                ring := { s.part.ring with above := decide (valueOf f ≤ s.part.ring.rows.length) } } [0]))
    ∧ (s.part.MayTakeItem f 0x20 .pedalLead →
      (s.part.inPlay = true → Refuses .writePedalLead s f 3)
        ∧ (s.part.inPlay = false → 64 < valueOf f → Refuses .writePedalLead s f 4)
        ∧ (s.part.inPlay = false → valueOf f ≤ 64 →
            Completes .writePedalLead s f
              { s.part with
                settings := { s.part.settings with pedalLead := valueOf f }
                pedals := { s.part.pedals with
                  lead := { next := s.part.feed.headRow, lift := .closed, feather := .closed } } } [0]))

/-- A write of the track map (R40): STATE in play, RANGE, then CONFLICT with another entry of the same target; an
admitted one replaces the entry, returns its track to CLOSED, resets the lead decoder and refreshes the levels (R57),
and changes nothing else. -/
def Obligations.TrackMapWritten : Prop :=
  ∀ (s : State) (f : Frame), s.part.MayTakeItem f 0x20 .trackMap →
    let function := TrackFunction.ofCode (byteAt f.payload 2)
    let inRange := byteAt f.payload 1 ≤ 111 ∧ byteAt f.payload 2 ≤ 10
      ∧ (function = some .key → byteAt f.payload 3 ≤ 87)
      ∧ ((2 ≤ byteAt f.payload 2 ∧ byteAt f.payload 2 ≤ 7) → byteAt f.payload 4 ≤ 1) ∧ byteAt f.payload 5 ≤ 111
    (s.part.inPlay = true → Refuses .writeTrackMap s f 3)
      ∧ (s.part.inPlay = false → ¬ inRange → Refuses .writeTrackMap s f 4)
      ∧ ∀ (t : TrackNo) (e : TrackEntry), s.part.inPlay = false → inRange → byteAt f.payload 1 = t.val →
          e.function.code = byteAt f.payload 2
          → e.key.val = (if e.function = .key then byteAt f.payload 3 else 0)
          → e.half.code = (if e.function.isExpression then byteAt f.payload 4 else 0)
          → e.source.val = byteAt f.payload 5 →
            ((∃ u : TrackNo, u ≠ t ∧ s.part.settings.trackMap[u].sameTarget e = true) →
                Refuses .writeTrackMap s f 5)
              ∧ ((∀ u : TrackNo, u ≠ t → s.part.settings.trackMap[u].sameTarget e = false) →
                let settings := { s.part.settings with trackMap := s.part.settings.trackMap.set t e }
                let states := s.part.tracks.states.set t .closed
                let refreshed := fun h : Half =>
                  { s.part.expression.halves.get h with levels :=
                      { step1 := targetLevel settings states .step1 h
                        step2 := targetLevel settings states .step2 h
                        step4 := targetLevel settings states .step4 h
                        swell := targetLevel settings states .swell h
                        quick := targetLevel settings states .quick h
                        accent := targetLevel settings states .accent h } }
                Completes .writeTrackMap s f
                  { s.part with
                    settings := settings
                    tracks := { s.part.tracks with states := states }
                    expression := { s.part.expression with
                      halves := { bass := refreshed .bass, treble := refreshed .treble } }
                    pedals := { s.part.pedals with
                      lead := { next := s.part.feed.headRow, lift := .closed, feather := .closed }
                      liftLevel := targetLevel settings states .damperLift .bass
                      featherLevel := targetLevel settings states .damperFeather .bass
                      softLevel := targetLevel settings states .soft .bass } } [0])

/-- Writes of OnRows and OffRows (R50, R159): STATE in play, RANGE outside 1 to 8; an admitted OnRows returns every track
and lead track in OPENING to CLOSED, an admitted OffRows every one in CLOSING to OPEN, with no event or count. -/
def Obligations.DebounceCountsWritten : Prop :=
  ∀ (s : State) (f : Frame) (item : Item), item = .onRows ∨ item = .offRows → s.part.MayTakeItem f 0x20 item →
    let dropped := fun d : Debounce =>
      match item, d with
      | .onRows, .opening _ _ => .closed
      | .offRows, .closing _ => .opened
      | _, d => d
    (s.part.inPlay = true → Refuses item.writer s f 3)
      ∧ (s.part.inPlay = false → valueOf f < 1 ∨ 8 < valueOf f → Refuses item.writer s f 4)
      ∧ (s.part.inPlay = false → 1 ≤ valueOf f → valueOf f ≤ 8 →
          Completes item.writer s f
            { s.part with
              settings := { s.part.settings with
                onRows := if item = .onRows then valueOf f else s.part.settings.onRows
                offRows := if item = .offRows then valueOf f else s.part.settings.offRows }
              tracks := { s.part.tracks with states := s.part.tracks.states.map dropped }
              pedals := { s.part.pedals with
                lead := { s.part.pedals.lead with
                  lift := dropped s.part.pedals.lead.lift, feather := dropped s.part.pedals.lead.feather } } }
            [0])

/-- A write of a cue slot (R59, R60): RANGE, then CONFLICT for a pattern outside the mask; an admitted one replaces the
slot with its count 0 and its spent flag clear and disarms the cues, with CUES_DISARMED if they were armed. ARM CUES
(R63) sets cue-valid and clears every count and spent flag. -/
def Obligations.CueSlotWrittenAndArmed : Prop :=
  ∀ (s : State) (f : Frame),
    (s.part.MayTakeItem f 0x20 .cueSlot →
      let inRange := byteAt f.payload 1 ≤ 3 ∧ (1 ≤ byteAt f.payload 30 ∧ byteAt f.payload 30 ≤ 16)
        ∧ byteAt f.payload 31 ≤ 4 ∧ byteAt f.payload 34 ≤ 1
        ∧ (byteAt f.payload 31 = 3 → 10 ≤ fieldAt f.payload 32 2 ∧ fieldAt f.payload 32 2 ≤ 200)
      let pattern : TrackSet := BitVec.ofNat 112 (fieldAt f.payload 2 14)
      let mask : TrackSet := BitVec.ofNat 112 (fieldAt f.payload 16 14)
      (¬ inRange → Refuses .writeCueSlot s f 4)
        ∧ (inRange → pattern &&& ~~~mask ≠ 0 → Refuses .writeCueSlot s f 5)
        ∧ ∀ (i : Fin 4) (action : CueAction), inRange → pattern &&& ~~~mask = 0 → byteAt f.payload 1 = i.val →
            action.code = byteAt f.payload 31 →
              let slot : CueSlot :=
                { pattern := pattern
                  mask := mask
                  holdRows := byteAt f.payload 30
                  action := action
                  parameter := if action = .tempo ∨ action = .trim then fieldAt f.payload 32 2 else 0
                  once := byteAt f.payload 34 == 1 }
              let stored : Part :=
                { s.part with
                  settings := { s.part.settings with cueSlots := s.part.settings.cueSlots.set i slot }
                  cues := { runs := s.part.cues.runs.set i { count := 0, spent := false }, valid := false } }
              Completes .writeCueSlot s f
                (if s.part.cues.valid then raise .cuesDisarmed stored else stored) [0])
    ∧ (s.part.MayTake f → f.kind = 0x22 →
      (f.payload ≠ [] → Refuses .armCues s f 9)
        ∧ (f.payload = [] →
            Completes .armCues s f
              { s.part with
                cues := { runs := Vector.replicate 4 { count := 0, spent := false }, valid := true } } [0]))

/-- A write of a rail mode (R84, R158): RANGE refused; an admitted one stores the mode and asks for the move its table
gives: a lift for UP, a drop for DOWN; for AUTO the rule of R86 in play, and a drop with the demand DOWN outside it; for
ROLL the SOFT level in play, and a drop outside it. The rail takes it by R150 or R152. -/
def Obligations.RailModeWritten : Prop :=
  ∀ (s : State) (f : Frame), s.part.MayTakeItem f 0x20 .railMode →
    (1 < byteAt f.payload 1 ∨ 3 < valueOf f → Refuses .writeRailMode s f 4)
      ∧ ∀ (h : Half) (m : RailMode), byteAt f.payload 1 = h.code → valueOf f = m.code →
          let p := s.part
          let x := p.expression.halves.get h
          let asked : Option Bool :=
            match m with
            | .up => some true
            | .down => some false
            | .roll => some (p.inPlay && p.pedals.softLevel)
            | .auto =>
              if p.inPlay = false then some false
              else if x.shade < p.settings.railOn then some true
              else if p.settings.railOff < x.shade then some false
              else none
          let autoUp := if m = .auto then asked.getD x.autoUp else x.autoUp
          let stored := (({ p with settings := { p.settings with railMode := p.settings.railMode.set h m } } : Part).setHalf
            h { x with autoUp := autoUp })
          let d := railOf h
          let r := p.pedal d
          (asked = none → Completes .writeRailMode s f stored [0])
            ∧ (asked = some false → r.state = .lowered ∨ r.state = .dropping → Completes .writeRailMode s f stored [0])
            ∧ (asked = some false → r.state = .raised →
                Completes .writeRailMode s f (stored.setPedal d (r.fallen p.now p.settings.railSettle)) [0])
            ∧ (asked = some false → r.state = .lifting →
                Completes .writeRailMode s f (stored.setPedal d { r with dropMark := true }) [0])
            ∧ (asked = some true → r.state = .raised ∨ r.state = .waiting → Completes .writeRailMode s f stored [0])
            ∧ (asked = some true → r.state = .lifting →
                Completes .writeRailMode s f (stored.setPedal d { r with dropMark := false }) [0])
            ∧ (asked = some true → r.state = .lowered → r.faulted = true →
                Completes .writeRailMode s f
                  { stored with arbiter := { p.arbiter with
                      withdrawals := min (p.arbiter.withdrawals + 1) 4294967295 } } [0])
            ∧ (asked = some true → (r.state = .lowered ∧ r.faulted = false) ∨ r.state = .dropping →
                p.arbiter.wait = [] → p.settings.railCost + p.arbiter.unitsInUse ≤ p.settings.budgetUnits →
                  Completes .writeRailMode s f
                    (({ stored with arbiter := { p.arbiter with
                        grants := p.arbiter.grants.set (pedalLineNo d) (some p.settings.railCost) } } : Part).setPedal d
                      { r with
                        state := .lifting
                        origin := none
                        settleTimer := none
                        kickTimer := some { started := p.now, length := p.settings.railKick }
                        drive := r.drive.setDuty p.settings.pwmBase p.now (some p.settings.railKickDuty) }) [0])
            ∧ (asked = some false → r.state = .waiting → BudgetSound p →
                ∃ q, Completes .writeRailMode s f q [0] ∧ q.settings = stored.settings
                  ∧ ((q.pedal d).state = .lowered ∨ (q.pedal d).state = .dropping)
                  ∧ (∀ e ∈ q.arbiter.wait, e.line ≠ pedalLineNo d)
                  ∧ q.arbiter.withdrawals = min (p.arbiter.withdrawals + 1) 4294967295)
            ∧ (asked = some true → (r.state = .lowered ∧ r.faulted = false) ∨ r.state = .dropping → BudgetSound p →
                ∃ q, Completes .writeRailMode s f q [0] ∧ q.settings = stored.settings
                  ∧ ((q.pedal d).state = .lifting
                    ∨ ((q.pedal d).state = .waiting ∧ ∃ e ∈ q.arbiter.wait,
                        e.line = pedalLineNo d ∧ e.priority = 0 ∧ e.cost = p.settings.railCost)))

/-- A write of RepeatGuard applies at once (R135): every guard at or beyond the new value ends, and its line is IDLE with
no plan pending, stays in RELEASE while it rests with one, and else hands the plan to the arbiter (R136), the lines in
any order (log entry 1); a shorter guard runs on. A write of PwmBase (R128) is refused with STATE in play
and with RANGE for a value other than 16, 24 and 32; an admitted one begins a new period on every line that is driving. -/
def Obligations.GuardAndPwmWritten : Prop :=
  ∀ (s : State) (f : Frame),
    (s.part.MayTakeItem f 0x20 .repeatGuard →
      (valueOf f < 5 ∨ 100 < valueOf f → Refuses .writeRepeatGuard s f 4)
        ∧ (5 ≤ valueOf f → valueOf f ≤ 100 → (∀ k, (s.part.key k).pending = none) →
            ∃ q : Part, Completes .writeRepeatGuard s f q [0]
              ∧ (∀ k, q.key k =
                  (if (s.part.key k).state = .release ∧ (s.part.key k).guardDone = false
                      ∧ 20 * valueOf f ≤ s.part.now - (s.part.key k).guardStarted
                    then { s.part.key k with state := .idle } else s.part.key k))
              ∧ q = { s.part with
                  settings := { s.part.settings with repeatGuard := valueOf f }
                  drives := { s.part.drives with keys := q.drives.keys }
                  choices := q.choices })
        ∧ (5 ≤ valueOf f → valueOf f ≤ 100 → BudgetSound s.part →
            let elapsed := fun k => (s.part.key k).state = .release ∧ (s.part.key k).guardDone = false
              ∧ 20 * valueOf f ≤ s.part.now - (s.part.key k).guardStarted
            let submits := fun k => elapsed k ∧ (s.part.key k).pending ≠ none ∧ (s.part.key k).resting = false
            ∃ q : Part, Completes .writeRepeatGuard s f q [0]
              ∧ (∀ k, elapsed k → (s.part.key k).pending = none → q.key k = { s.part.key k with state := .idle })
              ∧ (∀ k, elapsed k → (s.part.key k).pending ≠ none → (s.part.key k).resting = true →
                  q.key k = { s.part.key k with guardDone := true })
              ∧ (∀ k, submits k → (q.key k).pending = none
                  ∧ ((q.key k).state = .kick ∨ (q.key k).state = .queued ∨ (q.key k).state = .idle))
              ∧ (∀ k, ¬ elapsed k → (s.part.key k).state ≠ .queued → q.key k = s.part.key k)
              ∧ (∀ k plan, (∀ j, elapsed j ↔ j = k) → submits k → (s.part.key k).pending = some plan →
                  StrikeRequested plan
                    (({ s.part with settings := { s.part.settings with repeatGuard := valueOf f } } : Part).setKey k
                      { s.part.key k with state := .idle, pending := none }) q)
              ∧ q.settings = { s.part.settings with repeatGuard := valueOf f } ∧ q.feed = s.part.feed
              ∧ q.ring = s.part.ring ∧ q.tracks = s.part.tracks ∧ q.expression = s.part.expression
              ∧ q.player = s.part.player))
    ∧ (s.part.MayTakeItem f 0x20 .pwmBase →
      (s.part.inPlay = true → Refuses .writePwmBase s f 3)
        ∧ (s.part.inPlay = false → valueOf f ≠ 16 → valueOf f ≠ 24 → valueOf f ≠ 32 → Refuses .writePwmBase s f 4)
        ∧ (s.part.inPlay = false → valueOf f = 16 ∨ valueOf f = 24 ∨ valueOf f = 32 →
            let rebased := fun d : Drive =>
              match d.duty with
              | none => d
              | some duty => { duty := some duty, carried := duty, began := s.part.now, changed := s.part.now }
            ∃ q : Part, Completes .writePwmBase s f q [0]
              ∧ (∀ k, q.key k = { s.part.key k with drive := rebased (s.part.key k).drive })
              ∧ (∀ d, q.pedal d = { s.part.pedal d with drive := rebased (s.part.pedal d).drive })
              ∧ q = { s.part with
                  settings := { s.part.settings with pwmBase := valueOf f }
                  drives := { s.part.drives with keys := q.drives.keys }
                  pedals := { s.part.pedals with
                    damper := q.pedals.damper, bassRail := q.pedals.bassRail, trebleRail := q.pedals.trebleRail } }))

/-- Writes of HeatSoft and HeatHard (R143): RANGE, then CONFLICT unless HeatHard stays at least 1000 above HeatSoft;
an admitted one brings every resting flag up to date, leaves every H, takes the entries of the lines that now rest out
of the list, and has a line that waited in RELEASE with its guard complete, and no longer rests, hand its plan to the
arbiter (R136). One granting pass follows the removals (log entry 28). -/
def Obligations.HeatLimitsWritten : Prop :=
  ∀ (s : State) (f : Frame) (item : Item), item = .heatSoft ∨ item = .heatHard → s.part.MayTakeItem f 0x20 item →
    let v := valueOf f
    let soft := if item = .heatSoft then v else s.part.settings.heatSoft
    let hard := if item = .heatHard then v else s.part.settings.heatHard
    let inRange := if item = .heatSoft then 1000 ≤ v ∧ v ≤ 60000 else 2000 ≤ v ∧ v ≤ 65000
    (¬ inRange → Refuses item.writer s f 4)
      ∧ (inRange → hard < soft + 1000 → Refuses item.writer s f 5)
      ∧ (inRange → soft + 1000 ≤ hard → BudgetSound s.part →
          ∃ q : Part, Completes item.writer s f q [0]
            ∧ q.settings = { s.part.settings with heatSoft := soft, heatHard := hard }
            ∧ (∀ k, (q.key k).heat = (s.part.key k).heat
                ∧ (q.key k).resting =
                  (if hard ≤ (s.part.key k).heat then true
                    else if (s.part.key k).heat < soft then false else (s.part.key k).resting)
                ∧ ((s.part.key k).resting = false → (q.key k).resting = true →
                    q.notices.restingSet.getLsbD k.val = true)
                ∧ ((q.key k).resting = true → (q.key k).state ≠ .queued ∧ ¬ q.hasEntry (keyLineNo k)))
            ∧ (let resumes := fun k => (s.part.key k).state = .release ∧ (s.part.key k).guardDone = true
                ∧ (s.part.key k).pending ≠ none ∧ (q.key k).resting = false
              (∀ k, resumes k → (q.key k).pending = none
                  ∧ ((q.key k).state = .kick ∨ (q.key k).state = .queued ∨ (q.key k).state = .idle))
                ∧ ∀ k, ¬ resumes k → (s.part.key k).state ≠ .queued →
                    q.key k = { s.part.key k with resting := (q.key k).resting })
            ∧ q.feed = s.part.feed ∧ q.ring = s.part.ring ∧ q.tracks = s.part.tracks ∧ q.cues = s.part.cues
            ∧ q.expression = s.part.expression ∧ q.player = s.part.player ∧ q.store = s.part.store)

/-- Writes of the hold duties (R161): RANGE, then CONFLICT unless DamperHoldPart stays at most DamperHoldFull; an admitted
one takes effect at once on the damper RAISED at that depth, or waiting in a deepen for PART, or on each RAISED rail, and
changes nothing else. -/
def Obligations.PedalHoldsWritten : Prop :=
  ∀ (s : State) (f : Frame),
    let v := valueOf f
    let driven := fun (r : PedalRecord) (holds : Prop) [Decidable holds] =>
      if holds then { r with drive := r.drive.setDuty s.part.settings.pwmBase s.part.now (some v) } else r
    (∀ item, item = Item.damperHoldFull ∨ item = .damperHoldPart ∨ item = .railHold → s.part.MayTakeItem f 0x20 item →
      v < 1 ∨ 32 < v → Refuses item.writer s f 4)
    ∧ (s.part.MayTakeItem f 0x20 .damperHoldFull → 1 ≤ v → v ≤ 32 →
      (v < s.part.settings.damperHoldPart → Refuses .writeDamperHoldFull s f 5)
        ∧ (s.part.settings.damperHoldPart ≤ v →
            Completes .writeDamperHoldFull s f
              { s.part with
                settings := { s.part.settings with damperHoldFull := v }
                pedals := { s.part.pedals with
                  damper := driven s.part.pedals.damper
                    (s.part.pedals.damper.state = .raised ∧ s.part.pedals.damper.depth = .full) } } [0]))
    ∧ (s.part.MayTakeItem f 0x20 .damperHoldPart → 1 ≤ v → v ≤ 32 →
      (s.part.settings.damperHoldFull < v → Refuses .writeDamperHoldPart s f 5)
        ∧ (v ≤ s.part.settings.damperHoldFull →
            Completes .writeDamperHoldPart s f
              { s.part with
                settings := { s.part.settings with damperHoldPart := v }
                pedals := { s.part.pedals with
                  damper := driven s.part.pedals.damper
                    ((s.part.pedals.damper.state = .raised ∧ s.part.pedals.damper.depth = .part)
                      ∨ (s.part.pedals.damper.state = .waiting
                        ∧ s.part.pedals.damper.origin = some .deepen)) } } [0]))
    ∧ (s.part.MayTakeItem f 0x20 .railHold → 1 ≤ v → v ≤ 32 →
        Completes .writeRailHold s f
          { s.part with
            settings := { s.part.settings with railHold := v }
            pedals := { s.part.pedals with
              bassRail := driven s.part.pedals.bassRail (s.part.pedals.bassRail.state = .raised)
              trebleRail := driven s.part.pedals.trebleRail (s.part.pedals.trebleRail.state = .raised) } } [0])

/-- Writes of the masks (R169): RANGE refused; an admitted one replaces the mask bits it names, leaves every set, and
a passage of the summary from empty to not empty asks for a notice frame. The frame asked for is placed by a later
command (log entry 5), and a line mask that is disabled takes its line out of the flag (log entry 15). -/
def Obligations.MasksWritten : Prop :=
  ∀ (s : State) (f : Frame) (item : Item),
    item = .noticeMask ∨ item = .lineFaultMask ∨ item = .lineRestingMask → s.part.MayTakeItem f 0x20 item →
      let inRange :=
        match item with
        | .noticeMask => valueOf f < 8192
        | .lineFaultMask => byteAt f.payload 1 ≤ 90 ∧ valueOf f ≤ 1
        | _ => byteAt f.payload 1 ≤ 87 ∧ valueOf f ≤ 1
      (¬ inRange → Refuses item.writer s f 4)
        ∧ (inRange →
          ∃ q : Part, Completes item.writer s f q [0]
            ∧ q.notices.mask = (if item = .noticeMask then BitVec.ofNat 13 (valueOf f) else s.part.notices.mask)
            ∧ (∀ m : LineNo, q.notices.faultMask.getLsbD m.val =
                (if item = .lineFaultMask ∧ byteAt f.payload 1 = m.val then decide (valueOf f = 1)
                  else s.part.notices.faultMask.getLsbD m.val))
            ∧ (∀ k : KeyNo, q.notices.restingMask.getLsbD k.val =
                (if item = .lineRestingMask ∧ byteAt f.payload 1 = k.val then decide (valueOf f = 1)
                  else s.part.notices.restingMask.getLsbD k.val))
            ∧ q = { s.part with
                notices := { s.part.notices with
                  mask := q.notices.mask, faultMask := q.notices.faultMask, restingMask := q.notices.restingMask }
                link := { s.part.link with
                  noticeAsked := s.part.link.noticeAsked
                    || (s.part.notices.summary == 0 && q.notices.summary != 0
                      && !decide (TransmitItem.notice ∈ s.part.link.queue)) } })

/-! ### The store and the soft reset -/

/-- SAVE SETTINGS (R173): refused in play; else the settings as they stand are being written, with the request kept
and no reply yet. When the save ends the store holds them, whole and passing its check with the reply OK, or failing
it with STORE_ERROR. When a save ends comes from outside (log entry 21). -/
def Obligations.SettingsSaved : Prop :=
  ∀ (s : State) (f : Frame),
    (s.part.MayTake f → f.kind = 0x23 →
      (f.payload ≠ [] → Refuses .saveSettings s f 9)
        ∧ (f.payload = [] → s.part.inPlay = true → Refuses .saveSettings s f 3)
        ∧ (f.payload = [] → s.part.inPlay = false →
            exec .saveSettings s = .next (s.withPart { s.part with saving := some s.part.settings })))
    ∧ ∀ u, s.part.power = .on → s.part.saving = some u → s.part.link.waiting.head? = some f →
        (∃ image : StoreImage, image.settings = u ∧ image.passes = true
          ∧ Completes (.saveSettingsDone true) s f { s.part with saving := none, store := image } [0])
        ∧ ∃ image : StoreImage, image.settings = u ∧ image.passes = false
          ∧ Completes (.saveSettingsDone false) s f { s.part with saving := none, store := image } [11]

/-- RECALL SETTINGS (R174, R42, R70, R89, R143, R159): STATE in play or while a kick, a lift or an entry stands, and
STORE_ERROR for an image that fails, change nothing; else every working setting is the image's, and each owner has
taken its recalled values. The order of the owners is the model's (log entry 14). -/
def Obligations.SettingsRecalled : Prop :=
  ∀ (s : State) (f : Frame), s.part.MayTake f → f.kind = 0x24 →
    let p := s.part
    let busy := p.inPlay = true ∨ (∃ k, (p.key k).state = .kick) ∨ (∃ d, (p.pedal d).state = .lifting)
      ∨ p.arbiter.wait ≠ []
    (f.payload ≠ [] → Refuses .recallSettings s f 9)
      ∧ (f.payload = [] → busy → Refuses .recallSettings s f 3)
      ∧ (f.payload = [] → ¬ busy → p.store.passes = false → Refuses .recallSettings s f 11)
      ∧ (f.payload = [] → ¬ busy → p.store.passes = true →
        ∃ q : Part, Completes .recallSettings s f q [0] ∧ q.settings = p.store.settings ∧ q.store = p.store
          ∧ q.ring = { p.ring with above := decide (q.settings.ringLow ≤ p.ring.rows.length) }
          ∧ TracksClosed q ∧ q.tracks.specks = p.tracks.specks ∧ q.tracks.patches = p.tracks.patches
          ∧ LeadReset q p.feed.headRow ∧ CuesFresh q ∧ q.cues.valid = false
          ∧ (p.cues.valid = true → q.notices.flag .cuesDisarmed = true)
          ∧ ShadesHeld p q
          ∧ (∀ h, (q.expression.halves.get h).autoUp
              = (if q.settings.railMode.get h = .auto then false else (p.expression.halves.get h).autoUp))
          ∧ (∀ k, (q.key k).heat = (p.key k).heat
              ∧ (q.key k).resting =
                (if q.settings.heatHard ≤ (p.key k).heat then true
                  else if (p.key k).heat < q.settings.heatSoft then false else (p.key k).resting))
          ∧ (∀ h, (q.settings.railMode.get h ≠ .up → (q.pedal (railOf h)).Down)
              ∧ (q.settings.railMode.get h = .up → (p.pedal (railOf h)).state = .raised →
                  (q.pedal (railOf h)).state = .raised ∧ (q.pedal (railOf h)).drive.duty = some q.settings.railHold))
          ∧ (q.pedals.damper.state = p.pedals.damper.state ∧ q.pedals.damper.depth = p.pedals.damper.depth)
          ∧ (p.pedals.damper.state = .raised →
              q.pedals.damper.drive.duty
                = some (if p.pedals.damper.depth = .full then q.settings.damperHoldFull
                    else q.settings.damperHoldPart))
          ∧ q.feed = p.feed ∧ q.player = p.player)

/-- RESET PART (R176, R140): the reply OK stands first; the key lines are released, FAULTED ones too; pedal faults are
cleared and every pedal dropped; the roll is unloaded, the player and the cues are cleared, and STARTED is raised. The
settings, the store, the masks, every H and resting flag of a line not in KICK, and the hold cuts are kept. The order
of its parts is the model's (log entry 16), and a line that waits in RELEASE with its guard complete is IDLE once its
plan is flushed (log entry 12). -/
def Obligations.PartSoftReset : Prop :=
  ∀ (s : State) (f : Frame), s.part.MayTake f → f.kind = 0x3F →
    let p := s.part
    (f.payload ≠ [] → Refuses .resetPart s f 9)
      ∧ (f.payload = [] → BudgetSound p →
        ∃ t, exec .resetPart s = .next t ∧ t.pending = s.pending
          ∧ t.part.settings = p.settings ∧ t.part.store = p.store
          ∧ (∀ k, t.part.key k = (p.key k).released true p.settings p.now)
          ∧ (∀ k, t.part.arbiter.grants[keyLineNo k] = none) ∧ (∀ e ∈ t.part.arbiter.wait, e.isKey = false)
          ∧ (∀ d, (t.part.pedal d).Down ∧ (t.part.pedal d).faulted = false ∧ (t.part.pedal d).fault = .none)
          ∧ t.part.feed = FeedClock.unloadedWith p.feed.starveReleases p.feed.nextTick
          ∧ RingCleared t.part 0 ∧ TracksClosed t.part ∧ t.part.tracks.specks = p.tracks.specks
          ∧ t.part.tracks.patches = p.tracks.patches ∧ LeadReset t.part 0
          ∧ CuesFresh t.part ∧ t.part.cues.valid = false ∧ t.part.player = none ∧ ShadesHeld p t.part
          ∧ (∀ h, (t.part.expression.halves.get h).autoUp = false)
          ∧ t.part.notices.flag .started = true
          ∧ (∀ src, p.notices.flag src = true → t.part.notices.flag src = true)
          ∧ t.part.notices.mask = p.notices.mask ∧ t.part.notices.faultMask = p.notices.faultMask
          ∧ t.part.notices.restingMask = p.notices.restingMask
          ∧ t.part.drives.holdCuts = p.drives.holdCuts ∧ t.part.drives.reported = p.drives.reported
          ∧ t.part.link = { (p.replied f [0]).link with noticeAsked := t.part.link.noticeAsked })

/-! ### The roll -/

/-- LOAD ROLL (R24, R25, R26): LENGTH, STATE, RANGE in that order, each with the Q that stands and nothing changed; an
admitted one sets the Feed Clock from its fields, with Q equal to Q_base, and prepares every other block. A line that
waits in RELEASE with its guard complete is IDLE once its plan is flushed (log entry 12). -/
def Obligations.RollLoaded : Prop :=
  ∀ (s : State) (f : Frame), s.part.MayTake f → f.kind = 0x10 →
    let p := s.part
    let start := fieldAt f.payload 0 4
    let final := fieldAt f.payload 4 4
    let pitch := fieldAt f.payload 8 2
    let tempo := fieldAt f.payload 10 2
    let buildUp := fieldAt f.payload 12 2
    let legal := start ≤ 2147483647 ∧ (final = 0 ∨ (start < final ∧ final ≤ 2147483647))
      ∧ (pitch = 0 ∨ (100 ≤ pitch ∧ pitch ≤ 600)) ∧ (10 ≤ tempo ∧ tempo ≤ 200) ∧ buildUp ≤ 2000
    (f.payload.length ≠ 14 → Completes .loadRoll s f p ([9] ++ littleEndian 2 p.feed.q))
      ∧ (f.payload.length = 14 → p.inPlay = true → Completes .loadRoll s f p ([3] ++ littleEndian 2 p.feed.q))
      ∧ (f.payload.length = 14 → p.inPlay = false → ¬ legal →
          Completes .loadRoll s f p ([4] ++ littleEndian 2 p.feed.q))
      ∧ (f.payload.length = 14 → p.inPlay = false → legal → BudgetSound p →
        let scan := if pitch = 0 then 300 else pitch
        let base := (scan * tempo * 1000 * 65536 + 250000000) / 500000000
        ∃ q : Part, Completes .loadRoll s f q ([0] ++ littleEndian 2 base)
          ∧ q.feed = { p.feed with
              transport := .loaded
              row := start
              fraction := 0
              taken := false
              tempo := tempo
              trim := 1000
              pitch := scan
              buildUp := buildUp
              endRow := final
              rowsTaken := 0
              qBase := base
              q := base
              starve := none }
          ∧ RingCleared q start ∧ TracksClosed q ∧ q.tracks.specks = p.tracks.specks
          ∧ q.tracks.patches = p.tracks.patches ∧ LeadReset q start ∧ CuesFresh q ∧ q.cues.valid = p.cues.valid
          ∧ (∀ h, (q.expression.halves.get h).shade = p.settings.stepTable[0]
              ∧ (q.expression.halves.get h).swelled = false ∧ (q.expression.halves.get h).autoUp = false)
          ∧ (∀ k, q.key k = (p.key k).released false p.settings p.now)
          ∧ (∀ k, q.arbiter.grants[keyLineNo k] = none) ∧ (∀ e ∈ q.arbiter.wait, e.isKey = false)
          ∧ DamperDropped p q ∧ (∀ h, RailKept h p q) ∧ q.player = none
          ∧ q.settings = p.settings ∧ q.store = p.store)

/-- The records of a FEED ROWS payload expand into the rows they stand for, a run repeating the row before it (R6), for
every list of records, each run 1 to 255 rows long, and every reference row. -/
def Obligations.RowRecordsExpand : Prop :=
  ∀ (before : TrackSet) (records : List RowRecord),
    (∀ n, RowRecord.run n ∈ records → 1 ≤ n ∧ n ≤ 255) →
      let bytes := records.flatMap RowRecord.bytes
      expandRecords bytes.length before (rowsOf before records).length bytes = some (rowsOf before records)

/-- FEED ROWS (R5 to R13): LENGTH, STATE, RANGE and, for records that do not expand, LENGTH; then the rows below
next-expected are skipped, a batch that begins above it is refused with GAP, rows above the end row are dropped, and the
rest are stored as far as there is room. Outside play nothing follows the store. An arrival in RUNNING has the lead
decoder look ahead. An arrival in STARVED has its first row taken at once in RUNNING, then the pedals re-synced if the
row leaves the transport RUNNING (R34), and the lead decoder looks ahead last (log entry 19). A take is RowTaken; where it
pauses or ends the roll, a line that waits in RELEASE with its guard complete is IDLE once its plan is flushed (log
entry 12), and the lead decoder still looks ahead (log entry 34); the order of the actions of one row's cues is free (log
entry 1). -/
def Obligations.RowsFed : Prop :=
  ∀ (s : State) (f : Frame), s.part.MayTake f → f.kind = 0x11 →
    let p := s.part
    let first := fieldAt f.payload 0 4
    let count := fieldAt f.payload 4 2
    let records := f.payload.drop 6
    let legal := first ≤ 2147483647 ∧ (1 ≤ count ∧ count ≤ 512) ∧ first + count ≤ 2147483648
    let reply := fun (result : Byte) (accepted skipped beyond : Nat) (ring : RowRing) =>
      [result] ++ littleEndian 2 accepted ++ littleEndian 2 skipped ++ littleEndian 2 beyond
        ++ littleEndian 2 (2048 - ring.rows.length) ++ littleEndian 4 ring.nextExpected
    (f.payload.length < 8 → Completes .feedRows s f p (reply 9 0 0 0 p.ring))
      ∧ (8 ≤ f.payload.length → p.feed.transport = .unloaded ∨ p.feed.transport = .ended →
          Completes .feedRows s f p (reply 3 0 0 0 p.ring))
      ∧ (8 ≤ f.payload.length → p.feed.transport ≠ .unloaded → p.feed.transport ≠ .ended → ¬ legal →
          Completes .feedRows s f p (reply 4 0 0 0 p.ring))
      ∧ (8 ≤ f.payload.length → p.feed.transport ≠ .unloaded → p.feed.transport ≠ .ended → legal →
          expandRecords records.length p.ring.reference count records = none →
            Completes .feedRows s f p (reply 9 0 0 0 p.ring))
      ∧ (∀ holes, 8 ≤ f.payload.length → p.feed.transport ≠ .unloaded → p.feed.transport ≠ .ended → legal →
          expandRecords records.length p.ring.reference count records = some holes →
          p.ring.nextExpected < first → Completes .feedRows s f p (reply 6 0 0 0 p.ring))
      ∧ ∀ holes, 8 ≤ f.payload.length → legal →
          expandRecords records.length p.ring.reference count records = some holes → first ≤ p.ring.nextExpected →
            let skipped := min count (p.ring.nextExpected - first)
            let kept := if p.feed.endRow = 0 then count - skipped
              else min (count - skipped) (p.feed.endRow + 1 - (first + skipped))
            let accepted := min kept (2048 - p.ring.rows.length)
            let stored := (holes.drop skipped).take accepted
            let ring : RowRing :=
              { rows := p.ring.rows ++ numberRows p.ring.nextExpected stored
                nextExpected := p.ring.nextExpected + accepted
                reference := stored.getLastD p.ring.reference
                above := if accepted = 0 then p.ring.above
                  else decide (p.settings.ringLow ≤ p.ring.rows.length + accepted) }
            let answer := reply (if accepted < kept then 2 else 0) accepted skipped (count - skipped - kept) ring
            (p.feed.transport = .loaded ∨ p.feed.transport = .paused →
                Completes .feedRows s f { p with ring := ring } answer)
              ∧ (p.feed.transport = .running → ∃ q, Completes .feedRows s f q answer ∧ q.ring = ring
                  ∧ q.feed = p.feed ∧ q.tracks = p.tracks ∧ q.settings = p.settings
                  ∧ (accepted = 0 → q = p)
                  ∧ (0 < accepted → SettingsSound p → RingSound p → FeedSound p → LeadSound p →
                      LeadAhead { p with ring := ring } q))
              ∧ (p.feed.transport = .starved → p.ring.rows = [] → 0 < accepted →
                  ∃ q, Completes .feedRows s f q answer ∧ q.ring.rows = ring.rows.tail
                    ∧ q.ring.nextExpected = ring.nextExpected ∧ q.feed.taken = true ∧ q.feed.starve = none
                    ∧ q.feed.transport ≠ .starved ∧ q.feed.row = p.feed.row
                    ∧ q.feed.rowsTaken = p.feed.rowsTaken + 1
                    ∧ (SettingsSound p → RingSound p → FeedSound p → LeadSound p → BudgetSound p →
                        ∃ (row : StoredRow) (taken : Part), ring.rows.head? = some row
                          ∧ RowTaken row
                              { p with ring := ring, feed := { p.feed with transport := .running, starve := none } }
                              taken
                          ∧ LeadAhead (if taken.feed.transport = .running then taken.resynced else taken) q))

/-- RUN (R27, R103, R32): in RUNNING and STARVED it changes nothing, in UNLOADED and ENDED it is refused with STATE; in
LOADED and PAUSED the player is cancelled, the transport runs, the pedals are re-synced in line order (R88, R157) and the
lead decoder looks ahead (R159); then a row not yet taken falls due at once: it is taken if the ring holds it (RowTaken),
and the transport starves if not. Where the take pauses or ends the roll, a line that waits in RELEASE with its guard
complete is IDLE once its plan is flushed (log entry 12), and the lead decoder still looks ahead (log entry 34); the
order of the actions of one row's cues is free (log entry 1). -/
def Obligations.RunStarts : Prop :=
  ∀ (s : State) (f : Frame), s.part.MayTake f → f.kind = 0x12 →
    let p := s.part
    (f.payload ≠ [] → Refuses .run s f 9)
      ∧ (f.payload = [] → p.inPlay = true → Completes .run s f p [0])
      ∧ (f.payload = [] → p.feed.transport = .unloaded ∨ p.feed.transport = .ended → Refuses .run s f 3)
      ∧ (f.payload = [] → p.feed.transport = .loaded ∨ p.feed.transport = .paused →
        ∃ q, Completes .run s f q [0] ∧ q.player = none ∧ q.settings = p.settings ∧ q.store = p.store
          ∧ (p.feed.taken = true →
              q.feed = { p.feed with transport := .running } ∧ q.ring = p.ring ∧ q.tracks = p.tracks
                ∧ q.cues = p.cues)
          ∧ (p.feed.taken = false → p.ring.rows = [] →
              q.feed.transport = .starved ∧ q.feed.row = p.feed.row ∧ q.feed.fraction = 0 ∧ q.feed.taken = false
                ∧ q.feed.rowsTaken = p.feed.rowsTaken ∧ q.ring = p.ring ∧ q.tracks = p.tracks
                ∧ (p.settings.starveHold ≠ 0 →
                    q.feed.starve = some { started := p.now, hold := p.settings.starveHold })
                ∧ (p.settings.starveHold = 0 → q.feed.starve = none
                    ∧ q.feed.starveReleases = min (p.feed.starveReleases + 1) 4294967295)
                ∧ q.notices.flag .starved = true)
          ∧ (∀ row rest, p.feed.taken = false → p.ring.rows = row :: rest →
              q.ring.rows = rest ∧ q.feed.taken = true ∧ q.feed.row = p.feed.row
                ∧ q.feed.rowsTaken = p.feed.rowsTaken + 1
                ∧ (q.feed.transport = .running ∨ q.feed.transport = .paused ∨ q.feed.transport = .ended))
          ∧ (SettingsSound p → RingSound p → FeedSound p → LeadSound p → BudgetSound p →
              ∃ looked,
                LeadAhead
                  ({ p with feed := { p.feed with transport := .running }, player := none } : Part).resynced looked
                  ∧ (p.feed.taken = true → q = looked)
                  ∧ ∀ row rest, p.feed.taken = false → p.ring.rows = row :: rest → RowTaken row looked q))

/-- PAUSE (R28): in RUNNING and STARVED the transport is PAUSED, the starve timer stops, and the key lines, the damper and
the AUTO and ROLL rails are let go, with the paper, the tracks, the shades and the cues kept; in PAUSED it changes
nothing, and elsewhere it is refused with STATE. A line that waits in RELEASE with its guard complete is IDLE once its
plan is flushed (log entry 12). -/
def Obligations.PauseReleases : Prop :=
  ∀ (s : State) (f : Frame), s.part.MayTake f → f.kind = 0x13 →
    let p := s.part
    (f.payload ≠ [] → Refuses .pause s f 9)
      ∧ (f.payload = [] → p.feed.transport = .paused → Completes .pause s f p [0])
      ∧ (f.payload = [] → p.feed.transport = .unloaded ∨ p.feed.transport = .loaded ∨ p.feed.transport = .ended →
          Refuses .pause s f 3)
      ∧ (f.payload = [] → p.inPlay = true → BudgetSound p →
        ∃ q, Completes .pause s f q [0] ∧ q.feed = { p.feed with transport := .paused, starve := none }
          ∧ PlayReleased p q ∧ RollKept p q)

/-- STOP (R29, R18): in UNLOADED it changes nothing; elsewhere the Feed Clock takes its unloaded values, the key lines are
released, every pedal is dropped whatever the modes, and the ring, the tracks, the lead decoder, the cue counts and the
player are cleared, with cue-valid, the settings and the shades kept. A line that waits in RELEASE with its guard
complete is IDLE once its plan is flushed (log entry 12). -/
def Obligations.StopUnloads : Prop :=
  ∀ (s : State) (f : Frame), s.part.MayTake f → f.kind = 0x14 →
    let p := s.part
    (f.payload ≠ [] → Refuses .stop s f 9)
      ∧ (f.payload = [] → p.feed.transport = .unloaded → Completes .stop s f p [0])
      ∧ (f.payload = [] → p.feed.transport ≠ .unloaded → BudgetSound p →
        ∃ q, Completes .stop s f q [0]
          ∧ q.feed = { p.feed with
              transport := .unloaded, row := 0, fraction := 0, taken := false, tempo := 0, trim := 1000, pitch := 300,
              buildUp := 0, endRow := 0, rowsTaken := 0, qBase := 0, q := 0, starve := none }
          ∧ (∀ k, q.key k = (p.key k).released false p.settings p.now)
          ∧ (∀ k, q.arbiter.grants[keyLineNo k] = none) ∧ (∀ e ∈ q.arbiter.wait, e.isKey = false)
          ∧ DamperDropped p q ∧ (∀ h, RailDropped h p q)
          ∧ RingCleared q 0 ∧ TracksClosed q ∧ q.tracks.specks = p.tracks.specks
          ∧ q.tracks.patches = p.tracks.patches ∧ LeadReset q 0 ∧ CuesFresh q ∧ q.cues.valid = p.cues.valid
          ∧ ShadesHeld p q ∧ (∀ h, (q.expression.halves.get h).autoUp = false) ∧ q.player = none
          ∧ q.settings = p.settings ∧ q.store = p.store)

/-- SET TEMPO (R30): STATE in UNLOADED, RANGE for a tempo outside 10 to 200; else a present tempo is taken, a present trim
is clamped to TrimLow to TrimHigh and taken, with CLAMPED if that changed it, and Q is recomputed by R22 if T or S has
changed. Every reply carries T, S and Q as they then stand. -/
def Obligations.TempoSet : Prop :=
  ∀ (s : State) (f : Frame), s.part.MayTake f → f.kind = 0x15 →
    let p := s.part
    let hasTempo := (byteAt f.payload 0).testBit 0
    let hasTrim := (byteAt f.payload 0).testBit 1
    let sentTempo := fieldAt f.payload 1 2
    let sentTrim := fieldAt f.payload 3 2
    let reply := fun (result : Byte) (c : FeedClock) =>
      [result] ++ littleEndian 2 c.tempo ++ littleEndian 2 c.trim ++ littleEndian 2 c.q
    (f.payload.length ≠ 5 → Refuses .setTempo s f 9)
      ∧ (f.payload.length = 5 → p.feed.transport = .unloaded → Completes .setTempo s f p (reply 3 p.feed))
      ∧ (f.payload.length = 5 → p.feed.transport ≠ .unloaded → hasTempo = true → sentTempo < 10 ∨ 200 < sentTempo →
          Completes .setTempo s f p (reply 4 p.feed))
      ∧ (f.payload.length = 5 → p.feed.transport ≠ .unloaded →
          (hasTempo = true → 10 ≤ sentTempo ∧ sentTempo ≤ 200) → p.settings.trimLow ≤ p.settings.trimHigh →
          let tempo := if hasTempo then sentTempo else p.feed.tempo
          let clamped := max p.settings.trimLow (min p.settings.trimHigh sentTrim)
          let trim := if hasTrim then clamped else p.feed.trim
          let base := (p.feed.pitch * tempo * trim * 65536 + 250000000) / 500000000
          let feed : FeedClock :=
            if tempo = p.feed.tempo ∧ trim = p.feed.trim then p.feed
            else { p.feed with
              tempo := tempo
              trim := trim
              qBase := base
              q := max 1 (min 65535
                (base + base * p.feed.buildUp * (p.feed.rowsTaken / 1000) / 1000000)) }
          Completes .setTempo s f { p with feed := feed }
            (reply (if hasTrim = true ∧ clamped ≠ sentTrim then 1 else 0) feed))

/-- The feed tick (R20): outside RUNNING the position does not move; in RUNNING the increment is added to the
fraction, and a carry makes row N + 1 due: it is taken if the ring holds it, and the transport starves if not, with the
starve-hold expiry at once where StarveHold is 0 (R19, R32, R33). What the take does to the ring, the tracks, the lines,
the levels, the pedals, the cues and the transport is RowTaken (R4, R21, R31, R35, R46 to R55, R64 to R67, R159). When
the next tick is due is the model's (log entry 3); the order of the actions of one row's cues is free (log entry 1); and
where the take pauses or ends the roll, a line that waits in RELEASE with its guard complete is IDLE once its plan is
flushed (log entry 12), and the lead decoder still looks ahead (log entry 34). -/
def Obligations.FeedTickMoves : Prop :=
  ∀ s : State, s.part.power = .on →
    let p := s.part
    let sum := p.feed.fraction + p.feed.q
    (p.feed.transport ≠ .running →
        exec .feedTick s = .next (s.withPart { p with feed := { p.feed with nextTick := p.now + 2 } }))
      ∧ (p.feed.transport = .running → sum < 65536 →
          exec .feedTick s
            = .next (s.withPart { p with feed := { p.feed with fraction := sum, nextTick := p.now + 2 } }))
      ∧ (p.feed.transport = .running → 65536 ≤ sum → p.ring.rows = [] → p.settings.starveHold ≠ 0 →
          exec .feedTick s
            = .next (s.withPart (raise .starved { p with feed := { p.feed with
                transport := .starved
                row := p.feed.row + 1
                fraction := 0
                taken := false
                starve := some { started := p.now, hold := p.settings.starveHold }
                nextTick := p.now + 2 } })))
      ∧ (p.feed.transport = .running → 65536 ≤ sum → p.ring.rows = [] → p.settings.starveHold = 0 →
          exec .feedTick s
            = exec .starveHoldExpiry (s.withPart (raise .starved { p with feed := { p.feed with
                transport := .starved
                row := p.feed.row + 1
                fraction := 0
                taken := false
                starve := some { started := p.now, hold := 0 }
                nextTick := p.now + 2 } })))
      ∧ (∀ row rest, p.feed.transport = .running → 65536 ≤ sum → p.ring.rows = row :: rest →
          ∃ t, exec .feedTick s = .next t ∧ t.pending = s.pending
            ∧ t.part.feed.row = p.feed.row + 1 ∧ t.part.feed.fraction = sum - 65536 ∧ t.part.feed.taken = true
            ∧ t.part.feed.rowsTaken = p.feed.rowsTaken + 1 ∧ t.part.ring.rows = rest
            ∧ t.part.ring.nextExpected = p.ring.nextExpected ∧ t.part.ring.reference = p.ring.reference
            ∧ (t.part.feed.transport = .running ∨ t.part.feed.transport = .paused
                ∨ t.part.feed.transport = .ended)
            ∧ t.part.settings = p.settings ∧ t.part.store = p.store
            ∧ (SettingsSound p → RingSound p → FeedSound p → LeadSound p → BudgetSound p →
                RowTaken row
                  { p with feed := { p.feed with
                      row := p.feed.row + 1, fraction := sum - 65536, taken := false, nextTick := p.now + 2 } }
                  t.part))

/-- The starve-hold expiry (R33, R139): in STARVED every key line in HOLD enters RELEASE with its drive off, the
damper is dropped, a WAITING one with its entry withdrawn (R152), and the starve-release counter rises; the rails stay
as they are, and so does every other line but one that the pass after a withdrawal grants; no hold cut is counted. With
the timer stopped none comes. The command says that the timer has reached its length (log entry 9); a damper whose lift is
withdrawn keeps the depth asked for (log entry 24). -/
def Obligations.StarveHoldExpires : Prop :=
  ∀ s : State, s.part.power = .on →
    let p := s.part
    (p.feed.transport ≠ .starved ∨ p.feed.starve = none → exec .starveHoldExpiry s = .next s)
      ∧ (∀ timer, p.feed.transport = .starved → p.feed.starve = some timer → p.pedals.damper.state ≠ .waiting →
          ∃ t, exec .starveHoldExpiry s = .next t
            ∧ (∀ k, t.part.key k = (if (p.key k).state = .hold then (p.key k).letGo p.now else p.key k))
            ∧ DamperDropped p t.part
            ∧ t = s.withPart { p with
                feed := { p.feed with
                  starve := none, starveReleases := min (p.feed.starveReleases + 1) 4294967295 }
                drives := { p.drives with keys := t.part.drives.keys }
                pedals := { p.pedals with damper := t.part.pedals.damper } })
      ∧ ∀ timer, p.feed.transport = .starved → p.feed.starve = some timer → BudgetSound p →
          ∃ t, exec .starveHoldExpiry s = .next t ∧ t.pending = s.pending
            ∧ DropTaken .damper
                { p with
                  feed := { p.feed with
                    starve := none, starveReleases := min (p.feed.starveReleases + 1) 4294967295 }
                  drives := { p.drives with
                    keys := Vector.ofFn fun k =>
                      if (p.key k).state = .hold then (p.key k).letGo p.now else p.key k } }
                t.part

/-! ### Expression -/

/-- The expression tick (R75 to R79, R86): outside RUNNING it changes nothing; in RUNNING each half's swelled flag and
shade move as the four stages give, its levels kept; then each AUTO rail, the bass before the treble, is lifted below
RailOn and dropped above RailOff; and nothing else changes. When the next tick is due is the model's (log entry 3). -/
def Obligations.ExpressionTickGlides : Prop :=
  ∀ s : State, s.part.power = .on →
    let p := s.part
    let after := fun (h : Half) =>
      let x := p.expression.halves.get h
      let l := x.levels
      let step : Fin 8 := (if l.step1 then 1 else 0) + (if l.step2 then 2 else 0) + (if l.step4 then 4 else 0)
      let base := p.settings.stepTable[step]
      let target := if l.swell then max base p.settings.swellCeiling else base
      let swelled := if x.shade ≤ base then false else if l.swell then true else x.swelled
      let rate :=
        if x.shade < target then
          if l.swell = false then p.settings.stepRate
          else if l.quick then p.settings.quickRate else p.settings.slowRate
        else if l.quick then p.settings.quickRate
        else if swelled then p.settings.slowRate else p.settings.stepRate
      { x with
        swelled := swelled
        shade := if x.shade < target then min target (x.shade + rate) else max target (x.shade - rate) }
    (p.feed.transport ≠ .running →
        exec .expressionTick s
          = .next (s.withPart { p with expression := { p.expression with nextTick := p.now + 20 } }))
      ∧ (p.feed.transport = .running →
          (∃ t, exec .expressionTick s = .next t
            ∧ (∀ h, (t.part.expression.halves.get h).shade = (after h).shade
                ∧ (t.part.expression.halves.get h).swelled = (after h).swelled
                ∧ (t.part.expression.halves.get h).levels = (p.expression.halves.get h).levels
                ∧ (t.part.expression.halves.get h).autoUp =
                  (if p.settings.railMode.get h = .auto then
                    if (after h).shade < p.settings.railOn then true
                    else if p.settings.railOff < (after h).shade then false
                    else (p.expression.halves.get h).autoUp
                  else (p.expression.halves.get h).autoUp))
            ∧ t.part.feed = p.feed ∧ t.part.ring = p.ring ∧ t.part.tracks = p.tracks ∧ t.part.cues = p.cues
            ∧ t.part.settings = p.settings ∧ t.part.player = p.player)
          ∧ exec .expressionTick s
              = .next (s.withPart
                  ((({ p with expression :=
                      { halves := { bass := after .bass, treble := after .treble }
                        nextTick := p.now + 20 } } : Part).railStaged .bass).railStaged .treble))
          ∧ ((∀ h, p.settings.railMode.get h ≠ .auto) →
              exec .expressionTick s
                = .next (s.withPart { p with
                    expression :=
                      { halves := { bass := after .bass, treble := after .treble }, nextTick := p.now + 20 } })))

/-! ### Lines, strikes and pedals -/

/-- The heat tick (R142, R143): in every line state H falls by H divided by 64, rounded up, and the resting flag
clears below HeatSoft. A line that waits in RELEASE with its guard complete and a plan pending, and does not rest after
the fall, hands the plan to the arbiter (R136), the lines in any order (log entry 1). Where no line holds a pending plan
nothing else changes but the time of the next tick. When the next tick is due is the model's (log entry 3). -/
def Obligations.HeatTickCools : Prop :=
  ∀ s : State, s.part.power = .on →
    let p := s.part
    let cool := fun l : KeyLine =>
      { l with
        heat := l.heat - (l.heat + 63) / 64
        resting := if l.heat - (l.heat + 63) / 64 < p.settings.heatSoft then false else l.resting }
    ∃ t, exec .heatTick s = .next t ∧ t.pending = s.pending
      ∧ (∀ k, (t.part.key k).heat = (cool (p.key k)).heat ∧ (t.part.key k).resting = (cool (p.key k)).resting)
      ∧ t.part.feed = p.feed ∧ t.part.ring = p.ring ∧ t.part.tracks = p.tracks ∧ t.part.settings = p.settings
      ∧ ((∀ k, (p.key k).pending = none) →
          (∀ k, t.part.key k = cool (p.key k))
            ∧ t = s.withPart { p with
                drives := { p.drives with keys := t.part.drives.keys, nextHeatTick := p.now + 200 } })
      ∧ (BudgetSound p →
          let resumes := fun k => (p.key k).state = .release ∧ (p.key k).guardDone = true ∧ (p.key k).pending ≠ none
            ∧ (cool (p.key k)).resting = false
          let cooled : Part :=
            { p with drives := { p.drives with
                keys := Vector.ofFn fun k => cool (p.key k), nextHeatTick := p.now + 200 } }
          (∀ k, resumes k → (t.part.key k).pending = none
              ∧ ((t.part.key k).state = .kick ∨ (t.part.key k).state = .queued ∨ (t.part.key k).state = .idle))
            ∧ (∀ k, ¬ resumes k → (p.key k).state ≠ .queued → t.part.key k = cool (p.key k))
            ∧ ∀ k plan, (∀ j, resumes j ↔ j = k) → (p.key k).pending = some plan →
                StrikeRequested plan
                  (cooled.setKey k { cool (p.key k) with state := .idle, guardDone := false, pending := none }) t.part)

/-- A read of the status chain (R144, R145, R146): the pair of each line replaces its reported kind; a read that
reports no fault changes nothing else; and after it each key line reported faulty is FAULTED with its drive off and no
plan, each pedal line so reported is LOWERED with its faulted mark set, a fault kind already set is kept, and
LINE_FAULT has the line. The lines take their reports in any order (log entry 1). -/
def Obligations.ChainReadFaults : Prop :=
  ∀ (s : State) (bits : BitVec 182), s.part.power = .on →
    let p := s.part
    let pair := fun m : LineNo => (bits.getLsbD (2 * m.val)).toNat + 2 * (bits.getLsbD (2 * m.val + 1)).toNat
    let kind := fun m : LineNo =>
      match pair m with
      | 1 => FaultKind.openCoil
      | 2 => .overcurrent
      | 3 => .overtemp
      | _ => .none
    (bits = 0 →
        exec (.statusChainRead bits) s
          = .next (s.withPart { p with drives := { p.drives with reported := Vector.replicate 91 .none } }))
      ∧ (BudgetSound p →
        ∃ t, exec (.statusChainRead bits) s = .next t ∧ t.pending = s.pending
          ∧ (∀ m : LineNo, t.part.drives.reported[m] = kind m)
          ∧ (∀ k, pair (keyLineNo k) ≠ 0 →
              (t.part.key k).state = .faulted ∧ (t.part.key k).plan = none ∧ (t.part.key k).pending = none
                ∧ ((p.key k).state = .faulted → t.part.key k = p.key k)
                ∧ ((p.key k).state ≠ .faulted →
                    (t.part.key k).fault = kind (keyLineNo k) ∧ (t.part.key k).drive.duty = none
                      ∧ t.part.notices.faultSet.getLsbD k.val = true)
                ∧ t.part.arbiter.grants[keyLineNo k] = none ∧ ¬ t.part.hasEntry (keyLineNo k))
          ∧ (∀ d, pair (pedalLineNo d) ≠ 0 →
              ((p.pedal d).fault ≠ .none → (t.part.pedal d).fault = (p.pedal d).fault)
                ∧ ((p.pedal d).fault = .none →
                    (t.part.pedal d).state = .lowered ∧ (t.part.pedal d).faulted = true
                      ∧ (t.part.pedal d).fault = kind (pedalLineNo d) ∧ (t.part.pedal d).drive.duty = none
                      ∧ (t.part.pedal d).dropMark = false ∧ (t.part.pedal d).kickTimer = none
                      ∧ (t.part.pedal d).settleTimer = none
                      ∧ t.part.notices.faultSet.getLsbD (pedalLineNo d).val = true
                      ∧ t.part.arbiter.grants[pedalLineNo d] = none ∧ ¬ t.part.hasEntry (pedalLineNo d)))
          ∧ (∀ k, pair (keyLineNo k) = 0 → (p.key k).state ≠ .queued → t.part.key k = p.key k)
          ∧ t.part.feed = p.feed ∧ t.part.ring = p.ring ∧ t.part.tracks = p.tracks ∧ t.part.settings = p.settings
          ∧ t.part.expression = p.expression ∧ t.part.player = p.player)

/-- RESTORE LINE (R147, R155): LENGTH, RANGE, STATE for a line that is not faulted, FAULT for one still reported; an
admitted one sends a key line to RELEASE with its guard timer at 0, and clears a pedal's fault, which then stays LOWERED
outside play. -/
def Obligations.LineRestored : Prop :=
  ∀ (s : State) (f : Frame), s.part.MayTake f → f.kind = 0x33 →
    let p := s.part
    (f.payload.length ≠ 1 → Refuses .restoreLine s f 9)
      ∧ (f.payload.length = 1 → 90 < byteAt f.payload 0 → Refuses .restoreLine s f 4)
      ∧ (∀ k : KeyNo, f.payload.length = 1 → byteAt f.payload 0 = k.val →
          ((p.key k).state ≠ .faulted → Refuses .restoreLine s f 3)
            ∧ ((p.key k).state = .faulted → p.drives.reported[keyLineNo k] ≠ .none → Refuses .restoreLine s f 10)
            ∧ ((p.key k).state = .faulted → p.drives.reported[keyLineNo k] = .none →
                Completes .restoreLine s f
                  (p.setKey k { (p.key k).letGo p.now with fault := .none }) [0]))
      ∧ ∀ d : Pedal, f.payload.length = 1 → byteAt f.payload 0 = (pedalLineNo d).val →
          ((p.pedal d).fault = .none → Refuses .restoreLine s f 3)
            ∧ ((p.pedal d).fault ≠ .none → p.drives.reported[pedalLineNo d] ≠ .none → Refuses .restoreLine s f 10)
            ∧ ((p.pedal d).fault ≠ .none → p.drives.reported[pedalLineNo d] = .none → p.inPlay = false →
                Completes .restoreLine s f
                  (p.setPedal d { p.pedal d with fault := .none, faulted := false }) [0])
            ∧ ((p.pedal d).fault ≠ .none → p.drives.reported[pedalLineNo d] = .none → p.inPlay = true →
                ∃ q, Completes .restoreLine s f q [0] ∧ (q.pedal d).fault = .none ∧ (q.pedal d).faulted = false
                  ∧ q.feed = p.feed ∧ q.settings = p.settings)

/-- STRIKE KEY (R92 to R97, R101, R102, R115, R125, R129, R130): LENGTH, STATE, RANGE; a FAULTED or resting line drops the
onset with its record; on an IDLE line with nothing waiting and the units free the kick of the computed K starts at once,
counted PLAYED; a line in KICK, RELEASE or HOLD keeps the plan pending, HOLD ending; and in every other case the plan goes
to the arbiter. The reply tells e, K and the flags. An onset of any origin, the roll's too, is taken as OnsetTaken gives:
its plan with its priority and accent (R93 to R97), the merges with their records (R117, R129), and on a full list the
eviction or LIST_FULL with theirs (R112, R113). -/
def Obligations.KeyStruck : Prop :=
  (∀ (o : Onset) (p : Part), BudgetSound p → OnsetTaken o p (takeOnset o p))
  ∧ ∀ (s : State) (f : Frame), s.part.MayTake f → f.kind = 0x30 →
    let p := s.part
    let shade := fieldAt f.payload 1 2
    let asked := fieldAt f.payload 3 2
    (f.payload.length ≠ 5 → Refuses .strikeKey s f 9)
      ∧ (f.payload.length = 5 → p.inPlay = true → Refuses .strikeKey s f 3)
      ∧ (f.payload.length = 5 → p.inPlay = false → 87 < byteAt f.payload 0 ∨ 1023 < shade →
          Refuses .strikeKey s f 4)
      ∧ ∀ k : KeyNo, f.payload.length = 5 → p.inPlay = false → byteAt f.payload 0 = k.val → shade ≤ 1023 →
          let l := p.key k
          let v := p.settings.voicing[k]
          let hold := min asked (1000 * p.settings.holdLimit)
          let result : Byte := if hold < asked then 1 else 0
          let half := if k.val < p.settings.splitKey then Half.bass else .treble
          let rail := p.pedal (match half with | .bass => .bassRail | .treble => .trebleRail)
          let x := (max 0 (min 1023 ((shade : Int) + v.trim))).toNat
          let bent := ((4 - v.bend) * x * 1023 + v.bend * x * x) / 4092
          let spread := v.floor + v.span * bent / 1023
          let railed := if rail.state = .raised ∨ rail.state = .dropping
            then spread * p.settings.railScale.get half / 1000 else spread
          let factor := if l.heat ≤ p.settings.heatSoft then 1000
            else 1000 - 500 * (l.heat - p.settings.heatSoft) / (p.settings.heatHard - p.settings.heatSoft)
          let shaped := railed * factor / 1000
          let kick := if shaped < p.settings.kickMin then p.settings.kickMin
            else if p.settings.kickMax < shaped then p.settings.kickMax else shaped
          let flags : PlanFlags :=
            { accent := false, clamped := kick != shaped, derated := decide (factor < 1000), short := hold == 0 }
          let plan : Plan :=
            { line := k
              origin := .direct
              onsetRow := none
              shade := shade
              kick := kick
              kickDuty := v.kickDuty
              holdDuty := v.holdDuty
              cost := (v.kickDuty + 7) / 8
              priority := 3
              holdTime := some hold
              flags := flags }
          let record := fun (outcome : StrikeOutcome) (kick : Nat) (flags : PlanFlags) =>
            ({ sequence := p.arbiter.nextSequence, line := k, origin := .direct, onsetRow := 0, outcome := outcome,
               shade := shade, kick := kick, waited := 0, flags := flags, rowPresent := false } : HistoryRecord)
          let filed := fun (r : HistoryRecord) =>
            { p.arbiter with
              outcomes := p.arbiter.outcomes.set r.outcome.code
                (min (p.arbiter.outcomes[r.outcome.code] + 1) 4294967295)
              history := p.arbiter.history.drop (p.arbiter.history.length - 63) ++ [r]
              nextSequence := (p.arbiter.nextSequence + 1) % 65536 }
          let told := [result] ++ littleEndian 2 hold ++ [0] ++ littleEndian 2 shade ++ littleEndian 2 kick
            ++ [BitVec.ofNat 8 (2 * flags.clamped.toNat + 4 * flags.derated.toNat)]
          let bare : PlanFlags := { accent := false, clamped := false, derated := false, short := false }
          (∀ outcome, (l.state = .faulted ∧ outcome = StrikeOutcome.faulted)
              ∨ (l.state ≠ .faulted ∧ l.resting = true ∧ outcome = .resting) →
            Completes .strikeKey s f
              (raise .strikesDropped { p with arbiter := filed (record outcome 0 bare) })
              ([result] ++ littleEndian 2 hold ++ [if outcome = .faulted then 4 else 5] ++ littleEndian 2 shade
                ++ littleEndian 2 0 ++ [0]))
          ∧ (l.state = .idle → l.resting = false → p.arbiter.wait = [] →
              plan.cost + p.arbiter.unitsInUse ≤ p.settings.budgetUnits →
                Completes .strikeKey s f
                  (({ p with arbiter :=
                      { filed (record .played kick flags) with
                        grants := p.arbiter.grants.set (keyLineNo k) (some plan.cost) } } : Part).setKey k
                    { l with
                      state := .kick
                      queuedOrigin := none
                      plan := some plan
                      kickStarted := p.now
                      short := hold == 0
                      drive := l.drive.setDuty p.settings.pwmBase p.now (some v.kickDuty) })
                  told)
          ∧ (l.state = .kick ∨ l.state = .release → l.resting = false → l.pending = none →
              Completes .strikeKey s f (p.setKey k { l with pending := some plan }) told)
          ∧ (l.state = .hold → l.resting = false → l.pending = none →
              Completes .strikeKey s f (p.setKey k { l.letGo p.now with pending := some plan }) told)
          ∧ (l.state = .idle ∨ l.state = .queued → l.resting = false → BudgetSound p →
              ∃ q, Completes .strikeKey s f q told ∧ q.feed = p.feed ∧ q.settings = p.settings
                ∧ ((q.key k).state = .kick ∨ (q.key k).state = .queued
                  ∨ ((q.key k).state = .idle ∧ l.state = .idle ∧ p.arbiter.wait.length = 32)))

/-- Stages 3 and 4 of the kick computation (R94), over the legal bends, shades, floors and spans of section 6.3. -/
def Obligations.ShadeBentAndSpread : Prop :=
  (∀ c x, bentShade c x = ((4 - c) * x * 1023 + c * x * x) / 4092)
    ∧ (∀ x, bentShade 0 x = x)
    ∧ (∀ c c' x, c ≤ c' → c' ≤ 3 → x ≤ 1023 → bentShade c' x ≤ bentShade c x)
    ∧ (∀ c, c ≤ 3 → bentShade c 0 = 0 ∧ bentShade c 1023 = 1023)
    ∧ (∀ c x, c ≤ 3 → x ≤ 1023 → bentShade c x ≤ 1023)
    ∧ (∀ low span bent, spreadKick low span bent = low + span * bent / 1023)
    ∧ (∀ low span c x, c ≤ 3 → x ≤ 1023 → 4 ≤ low → low ≤ 400 → span ≤ 600 →
        low ≤ spreadKick low span (bentShade c x) ∧ spreadKick low span (bentShade c x) ≤ low + span
          ∧ 4 ≤ spreadKick low span (bentShade c x) ∧ spreadKick low span (bentShade c x) ≤ 1000)
    ∧ (bentShade 0 512 = 512 ∧ bentShade 1 512 = 448 ∧ bentShade 2 512 = 384 ∧ bentShade 3 512 = 320)

/-- PLAY PATTERN and the step timer (R104, R105): LENGTH, STATE, RANGE leave the player as it was; an admitted request
replaces the pattern and takes step 0 at once; a step is an onset for its shade and none for a REST, and the player moves
on to the next step, the next round, or a last wait with no current step, at whose end it is IDLE. PATTERN_STEP
and PATTERN_END say that the step timer has reached the step time (log entry 9). -/
def Obligations.PatternPlayed : Prop :=
  (∀ (s : State) (f : Frame), s.part.MayTake f → f.kind = 0x31 →
    let p := s.part
    let n := byteAt f.payload 4
    let step := fun i : Nat => byteAt f.payload (5 + 2 * i) + 256 * byteAt f.payload (6 + 2 * i)
    let legal := byteAt f.payload 0 ≤ 87 ∧ (20 ≤ fieldAt f.payload 1 2 ∧ fieldAt f.payload 1 2 ≤ 2000)
      ∧ (1 ≤ n ∧ n ≤ 16) ∧ ∀ i, i < n → step i ≤ 1023 ∨ step i = 65535
    let fits := 5 ≤ f.payload.length ∧ f.payload.length = 5 + 2 * n
    (¬ fits → Refuses .playPattern s f 9)
      ∧ (fits → p.inPlay = true → Refuses .playPattern s f 3)
      ∧ (fits → p.inPlay = false → ¬ legal → Refuses .playPattern s f 4)
      ∧ ∀ k : KeyNo, fits → p.inPlay = false → legal → byteAt f.payload 0 = k.val →
          let started : Pattern :=
            { key := k
              stepTime := fieldAt f.payload 1 2
              steps := (List.range n).map fun i => if step i = 65535 then none else some (step i)
              repeatCount := byteAt f.payload 3
              current := some 0
              repeats := 0
              stepsTaken := 0
              timerStarted := p.now }
          ∃ q, Completes .playPattern s f q [0, if p.player = none then 0 else 1]
            ∧ (step 0 = 65535 → q = { p with player := q.player })
            ∧ (step 0 ≠ 65535 →
                q = { takeOnset
                        { key := k, half := if k.val < p.settings.splitKey then .bass else .treble, origin := .pattern,
                          onsetRow := none, shade := step 0, accent := false,
                          holdTime := some (fieldAt f.payload 1 2 / 2) }
                        { p with player := some started } with player := q.player })
            ∧ (1 < n → q.player = some { started with current := some 1, stepsTaken := 1 })
            ∧ (n = 1 → byteAt f.payload 3 ≠ 1 →
                q.player = some { started with current := some 0, repeats := 1, stepsTaken := 1 })
            ∧ (n = 1 → byteAt f.payload 3 = 1 →
                q.player = some { started with current := none, repeats := 1, stepsTaken := 1 }))
    ∧ (∀ s : State, s.part.power = .on →
        ((∀ a i, s.part.player = some a → a.current ≠ some i) → exec .patternStep s = .next s)
        ∧ (∀ a, s.part.player = some a → a.current = none →
            exec .patternEnd s = .next (s.withPart { s.part with player := none }))
        ∧ ((∀ a, s.part.player = some a → a.current ≠ none) → exec .patternEnd s = .next s)
        ∧ ∀ a i, s.part.player = some a → a.current = some i →
            let p := s.part
            let moved : Pattern :=
              if i + 1 < a.steps.length then { a with current := some (i + 1) }
              else
                { a with
                  repeats := min (a.repeats + 1) 255
                  current := if a.repeatCount = 0 ∨ min (a.repeats + 1) 255 < a.repeatCount then some 0 else none }
            let player := some { moved with stepsTaken := min (a.stepsTaken + 1) 65535, timerStarted := p.now }
            (a.steps.getD i none = none → exec .patternStep s = .next (s.withPart { p with player := player }))
              ∧ ∀ shade, a.steps.getD i none = some shade →
                  exec .patternStep s
                    = .next (s.withPart { takeOnset
                        { key := a.key, half := if a.key.val < p.settings.splitKey then .bass else .treble,
                          origin := .pattern, onsetRow := none, shade := shade, accent := false,
                          holdTime := some (a.stepTime / 2) } p with player := player }))

/-- CANCEL PATTERN (R107), in every transport state. -/
def Obligations.PatternCancelled : Prop :=
  ∀ (s : State) (f : Frame), s.part.MayTake f → f.kind = 0x32 →
    (f.payload.length ≠ 0 → Refuses .cancelPattern s f 9)
      ∧ (∀ a, f.payload.length = 0 → s.part.player = some a →
          Completes .cancelPattern s f { s.part with player := none } ([0, 1] ++ littleEndian 2 a.stepsTaken))
      ∧ (f.payload.length = 0 → s.part.player = none → Completes .cancelPattern s f s.part [0, 0, 0, 0])

/-- A kick runs out (R132, R141, R143, R116): H gains half of K times the kick duty, the line's units return, and it
goes to RELEASE with the drive off if the strike is short or a plan is pending, and to HOLD at the hold duty until its
hold time, or HoldLimit for a ROLL plan, if not. In every other state no kick ends. The command says that the kick has
reached its length (log entry 9). -/
def Obligations.KickRunsOut : Prop :=
  ∀ (s : State) (k : KeyNo), s.part.power = .on →
    let p := s.part
    let l := p.key k
    (l.state ≠ .kick → exec (.kickEnd k.val) s = .next s)
      ∧ ∀ plan, l.state = .kick → l.plan = some plan → BudgetSound p →
          let warm := l.warmed p.settings (plan.kick * plan.kickDuty / 2)
          ∃ t, exec (.kickEnd k.val) s = .next t ∧ t.pending = s.pending
            ∧ t.part.arbiter.grants[keyLineNo k] = none
            ∧ (l.short = true ∨ l.pending ≠ none → t.part.key k = warm.letGo p.now)
            ∧ (l.short = false → l.pending = none →
                t.part.key k =
                  { warm with
                    state := .hold
                    holdStarted := p.now
                    holdGains := 0
                    holdDeadline := some (p.now + 20 * plan.holdTime.getD (1000 * p.settings.holdLimit))
                    drive := l.drive.setDuty p.settings.pwmBase p.now (some plan.holdDuty) })
            ∧ (∀ j, j ≠ k → (p.key j).state ≠ .queued → t.part.key j = p.key j)
            ∧ (l.resting = false → (t.part.key k).resting = true →
                t.part.notices.restingSet.getLsbD k.val = true)
            ∧ t.part.feed = p.feed ∧ t.part.ring = p.ring ∧ t.part.tracks = p.tracks ∧ t.part.cues = p.cues
            ∧ t.part.expression = p.expression ∧ t.part.settings = p.settings ∧ t.part.player = p.player

/-- The timers of a hold and of a guard (R134, R136, R141): a millisecond of a HOLD gains a quarter of the hold duty;
at its deadline the line enters RELEASE, a ROLL hold being counted and HOLD_CUT raised; a guard's end makes the line
IDLE, keeps it waiting while it rests with a plan pending, and else hands that plan to the arbiter, which grants it at
once where nothing waits and the units are free. A timer's command says that it has reached its length (log entry 9). -/
def Obligations.HoldAndGuardTimed : Prop :=
  ∀ (s : State) (k : KeyNo), s.part.power = .on →
    let p := s.part
    let l := p.key k
    (l.state ≠ .hold →
        exec (.holdHeatGain k.val) s = .next s ∧ exec (.holdDeadline k.val) s = .next s)
      ∧ (∀ plan, l.state = .hold → l.plan = some plan →
          let hot := p.settings.heatHard ≤ min (l.heat + plan.holdDuty / 4) 65535
          let warm := p.setKey k { l.warmed p.settings (plan.holdDuty / 4) with holdGains := l.holdGains + 1 }
          exec (.holdHeatGain k.val) s
              = .next (s.withPart (if hot ∧ l.resting = false then raiseLineResting k warm else warm))
            ∧ (plan.origin ≠ .roll →
                exec (.holdDeadline k.val) s = .next (s.withPart (p.setKey k (l.letGo p.now))))
            ∧ (plan.origin = .roll →
                exec (.holdDeadline k.val) s
                  = .next (s.withPart (raise .holdCut
                      { p.setKey k (l.letGo p.now) with
                        drives := { (p.setKey k (l.letGo p.now)).drives with
                          holdCuts := min (p.drives.holdCuts + 1) 4294967295 } }))))
      ∧ (l.state ≠ .release ∨ l.guardDone = true → exec (.guardEnd k.val) s = .next s)
      ∧ (l.state = .release → l.guardDone = false →
          (l.pending = none →
              exec (.guardEnd k.val) s = .next (s.withPart (p.setKey k { l with state := .idle })))
            ∧ (l.pending ≠ none → l.resting = true →
                exec (.guardEnd k.val) s = .next (s.withPart (p.setKey k { l with guardDone := true })))
            ∧ ∀ plan, l.pending = some plan → plan.line = k → l.resting = false → p.arbiter.wait = [] →
                plan.cost + p.arbiter.unitsInUse ≤ p.settings.budgetUnits →
                  ∃ t, exec (.guardEnd k.val) s = .next t ∧ t.pending = s.pending
                    ∧ t.part.key k =
                      { l with
                        state := .kick
                        queuedOrigin := none
                        pending := none
                        plan := some plan
                        kickStarted := p.now
                        short := plan.flags.short
                        drive := l.drive.setDuty p.settings.pwmBase p.now (some plan.kickDuty) }
                    ∧ (∀ j, j ≠ k → t.part.key j = p.key j)
                    ∧ t.part.arbiter.grants = p.arbiter.grants.set (keyLineNo k) (some plan.cost)
                    ∧ t.part.arbiter.outcomes[0] = min (p.arbiter.outcomes[0] + 1) 4294967295)
      ∧ (l.state = .release → l.guardDone = false → l.pending ≠ none → l.resting = false → BudgetSound p →
          ∃ t, exec (.guardEnd k.val) s = .next t ∧ t.pending = s.pending ∧ (t.part.key k).pending = none
            ∧ ((t.part.key k).state = .kick ∨ (t.part.key k).state = .queued
              ∨ ((t.part.key k).state = .idle ∧ p.arbiter.wait.length = 32)))

/-- The deadline of an entry (R119, R154): a key entry leaves LATE, its line IDLE; a pedal entry leaves counted as
late, its pedal going back by its waiting origin, a damper with the depth that was asked for (log entry 24). For a line
with no entry no deadline comes. The command says that the deadline has come (log entry 9). -/
def Obligations.WaitDeadlinePasses : Prop :=
  ∀ (s : State) (m : LineNo), s.part.power = .on →
    let p := s.part
    (¬ p.hasEntry m → exec (.waitDeadline m.val) s = .next s)
      ∧ ∀ e ∈ p.arbiter.wait, e.line = m → BudgetSound p →
          ∃ t, exec (.waitDeadline m.val) s = .next t ∧ t.pending = s.pending ∧ ¬ t.part.hasEntry m
            ∧ t.part.arbiter.grants[m] = none
            ∧ (∀ k, m = keyLineNo k →
                t.part.key k = { p.key k with state := .idle, queuedOrigin := none }
                  ∧ t.part.arbiter.outcomes[1] = min (p.arbiter.outcomes[1] + 1) 4294967295
                  ∧ t.part.arbiter.latePedals = p.arbiter.latePedals
                  ∧ t.part.notices.flag .strikesDropped = true)
            ∧ (∀ d, m = pedalLineNo d →
                t.part.arbiter.latePedals = min (p.arbiter.latePedals + 1) 4294967295
                  ∧ t.part.arbiter.outcomes[1] = p.arbiter.outcomes[1]
                  ∧ t.part.pedal d =
                    (match (p.pedal d).origin with
                      | some .dropping =>
                        { p.pedal d with
                          state := .dropping
                          origin := none
                          settleTimer := some
                            { started := p.now
                              length := if d = .damper then p.settings.damperSettle else p.settings.railSettle } }
                      | some .deepen => { p.pedal d with state := .raised, origin := none, depth := .part }
                      | _ => { p.pedal d with state := .lowered, origin := none }))
            ∧ t.part.feed = p.feed ∧ t.part.ring = p.ring ∧ t.part.tracks = p.tracks ∧ t.part.settings = p.settings
            ∧ t.part.expression = p.expression ∧ t.part.player = p.player

/-- The timers of a pedal (R151, R152): at a kick's end the units return and the pedal enters RAISED at its hold duty,
or DROPPING with the drive off if its drop mark is set; at a settle's end it is LOWERED. In every other state neither
comes. The commands say that a timer has reached its length (log entry 9). -/
def Obligations.PedalTimersEnd : Prop :=
  ∀ (s : State) (d : Pedal), s.part.power = .on →
    let p := s.part
    let r := p.pedal d
    let hold := match d, r.depth with
      | .damper, .full => p.settings.damperHoldFull
      | .damper, .part => p.settings.damperHoldPart
      | _, _ => p.settings.railHold
    (r.state ≠ .lifting → exec (.pedalKickEnd d) s = .next s)
      ∧ (r.state ≠ .dropping → exec (.settleEnd d) s = .next s)
      ∧ (r.state = .dropping →
          exec (.settleEnd d) s
            = .next (s.withPart (p.setPedal d { r with state := .lowered, settleTimer := none })))
      ∧ (r.state = .lifting → BudgetSound p →
          ∃ t, exec (.pedalKickEnd d) s = .next t ∧ t.pending = s.pending
            ∧ t.part.arbiter.grants[pedalLineNo d] = none
            ∧ (r.dropMark = false →
                t.part.pedal d =
                  { r with
                    state := .raised
                    kickTimer := none
                    drive := r.drive.setDuty p.settings.pwmBase p.now (some hold) })
            ∧ (r.dropMark = true →
                t.part.pedal d =
                  { r.fallen p.now (if d = .damper then p.settings.damperSettle else p.settings.railSettle) with
                    kickTimer := none })
            ∧ (∀ k, (p.key k).state ≠ .queued → t.part.key k = p.key k)
            ∧ t.part.feed = p.feed ∧ t.part.ring = p.ring ∧ t.part.tracks = p.tracks ∧ t.part.settings = p.settings
            ∧ t.part.expression = p.expression ∧ t.part.player = p.player)

/-! ### What every step keeps -/

/-- Every step keeps every setting, working or stored, one that its writes admit, and the track map free of two entries
with one target (R38, R74, R85, R99, R109, R143, R161). -/
def Obligations.SettingsStaySound : Prop :=
  ∀ s t, SettingsSound s.part → step s = .next t → SettingsSound t.part

/-- Every step keeps the rows of the ring consecutive up to next-expected, the low-water state true to the occupancy, the
feed position true to the ring, the shades within 0 to 1023, and the lead decoder's next row from the head row to
next-expected (R1, R2, R4, R19, R79, R159). -/
def Obligations.RollStaysSound : Prop :=
  ∀ s t, SettingsSound s.part → RingSound s.part → FeedSound s.part → ShadesSound s.part → step s = .next t →
    RingSound t.part ∧ FeedSound t.part ∧ ShadesSound t.part ∧ (LeadSound s.part → LeadSound t.part)

/-- Every step keeps the strike history at no more than 64 records numbered one after the other (R125). -/
def Obligations.HistoryStaysSound : Prop :=
  ∀ s t, s.part.arbiter.historySound → step s = .next t → t.part.arbiter.historySound

/-- Every step keeps the units in use within the budget, the wait list within 32 entries in priority order with a head
that does not fit, and the key lines and pedals in agreement with the grant table and the list (R108, R111, R114). -/
def Obligations.BudgetStaysKept : Prop :=
  ∀ s t, BudgetSound s.part → step s = .next t → BudgetSound t.part

/-- Every step keeps the coil of every key line driven in KICK and HOLD alone, at the duties of the plan in hand (R127,
R130, R132, R145). -/
def Obligations.DrivesStaySound : Prop :=
  ∀ s t, BudgetSound s.part → DriveSound s.part → step s = .next t → DriveSound t.part

/-- Every step keeps H within 0 to 65535 and the resting flag set on every key line whose H stands at or above HeatHard
(R143). -/
def Obligations.HeatStaysSound : Prop :=
  ∀ s t, SettingsSound s.part → HeatSound s.part → step s = .next t → HeatSound t.part

/-- Every step keeps the receive buffer within 4096 bytes and the receiver in HUNT or within a candidate (R163, R164). -/
def Obligations.LinkStaysSound : Prop :=
  ∀ s t, LinkSound s.part → step s = .next t → LinkSound t.part

/-- The part right after reset meets every one of these. -/
def Obligations.ResetIsSound : Prop :=
  SettingsSound State.reset.part ∧ RingSound State.reset.part ∧ FeedSound State.reset.part
    ∧ ShadesSound State.reset.part ∧ State.reset.part.arbiter.historySound ∧ BudgetSound State.reset.part
    ∧ DriveSound State.reset.part ∧ HeatSound State.reset.part ∧ LinkSound State.reset.part
    ∧ LeadSound State.reset.part

/-! ### The events of a row -/

/-- What the events of a row do, one by one. A track moves by the debounce table (R46 to R49). A KEY onset is an onset of
the roll, with the shade of its half and the accent of its half's ACCENT level, and a KEY offset is a note-off, which
shortens or ends the line's newest ROLL plan (R52, R82, R118, R133). An expression role's level is handed over (R53). A
damper or SOFT level is recorded and its demand handed to the damper, or to the rails in ROLL mode (R54, R149), and the
pedal takes the lift or the drop, a change of the damper's depth among them (R150, R152, R153). For SOFT the bass rail
comes before the treble (log entry 13); a damper keeps the depth asked for (log entry 24). -/
def Obligations.RowEventsActed : Prop :=
  (∀ (onRows offRows row : Nat) (hole : Bool) (d : Debounce),
    let moved := moveTrack onRows offRows row hole d
    let level := fun e : Debounce => match e with | .opened | .closing _ => true | _ => false
    moved.state =
        (match d, hole with
          | .closed, true => if onRows = 1 then .opened else .opening 1 row
          | .opening c first, true => if c + 1 = onRows then .opened else .opening (c + 1) first
          | .opened, true | .closing _, true => .opened
          | .closed, false | .opening _ _, false => .closed
          | .opened, false => if offRows = 1 then .closed else .closing 1
          | .closing c, false => if c + 1 = offRows then .closed else .closing (c + 1))
      ∧ moved.event =
        (match level d, level moved.state, d with
          | false, true, .opening _ first => .onset first
          | false, true, _ => .onset row
          | true, false, _ => .offset
          | _, _, _ => .none)
      ∧ (moved.speck = true ↔ hole = false ∧ ∃ c first, d = .opening c first)
      ∧ (moved.patch = true ↔ hole = true ∧ ∃ c, d = .closing c))
  ∧ (∀ (p : Part) (t : TrackNo) (event : TrackEvent),
    let entry := p.settings.trackMap[t]
    let half := if entry.key.val < p.settings.splitKey then Half.bass else .treble
    let x := p.expression.halves.get entry.half
    let opens := decide (event ≠ .offset)
    (event = .none ∨ entry.function = .none → handEvent t event p = p)
      ∧ (∀ row, entry.function = .key → event = .onset row → mapLegal p.settings.trackMap →
          handEvent t event p
            = takeOnset
                { key := entry.key
                  half := half
                  origin := .roll
                  onsetRow := some row
                  shade := (p.expression.halves.get half).shade
                  accent := decide (∃ u : TrackNo, p.settings.trackMap[u].function = .accent
                    ∧ p.settings.trackMap[u].half = half ∧ p.tracks.states[u].level = true)
                  holdTime := none } p)
      ∧ (entry.function = .key → event = .offset → handEvent t event p = noteOff entry.key p)
      ∧ (event ≠ .none → entry.function.isExpression = true →
          handEvent t event p
            = p.setHalf entry.half { x with levels :=
                (match entry.function with
                  | .step1 => { x.levels with step1 := opens }
                  | .step2 => { x.levels with step2 := opens }
                  | .step4 => { x.levels with step4 := opens }
                  | .swell => { x.levels with swell := opens }
                  | .quick => { x.levels with quick := opens }
                  | _ => { x.levels with accent := opens }) })
      ∧ (event ≠ .none → entry.function = .damperLift →
          handEvent t event p = ({ p with pedals := { p.pedals with liftLevel := opens } } : Part).damperDemanded)
      ∧ (event ≠ .none → entry.function = .damperFeather →
          handEvent t event p = ({ p with pedals := { p.pedals with featherLevel := opens } } : Part).damperDemanded)
      ∧ (event ≠ .none → entry.function = .soft →
          handEvent t event p
            = (({ p with pedals := { p.pedals with softLevel := opens } } : Part).softFollowed .bass).softFollowed
                .treble))
  ∧ (∀ (k : KeyNo) (p : Part), BudgetSound p → NoteOffTaken k p (noteOff k p))
  ∧ (∀ (d : Pedal) (depth : Depth) (p : Part), BudgetSound p → LiftTaken d depth p (liftPedal d depth p))
  ∧ ∀ (d : Pedal) (p : Part), BudgetSound p → DropTaken d p (dropPedal d p)
end

