-- ==== Sys2Proof/Laws/State.lean ====
section
/-! SUPPORT. What each update of the part leaves in each field, so that no later proof unfolds a record update. -/

namespace Sys2Proof.Machine

/-! ### Halves -/

@[simp] theorem PerHalf.get_set_same {α : Type} (p : PerHalf α) (h : Half) (a : α) : (p.set h a).get h = a := by
  cases h <;> rfl

theorem PerHalf.get_set_ne {α : Type} (p : PerHalf α) {h g : Half} (a : α) (hne : g ≠ h) :
    (p.set h a).get g = p.get g := by
  cases h <;> cases g <;> first | rfl | exact absurd rfl hne

@[simp] theorem PerHalf.set_get {α : Type} (p : PerHalf α) (h : Half) : p.set h (p.get h) = p := by
  cases h <;> rfl

/-! ### Key lines -/

@[simp] theorem Part.key_setKey_same (p : Part) (k : KeyNo) (l : KeyLine) : (p.setKey k l).key k = l := by
  simp [Part.key, Part.setKey]

theorem Part.key_setKey_ne (p : Part) {k j : KeyNo} (l : KeyLine) (hne : j ≠ k) : (p.setKey k l).key j = p.key j := by
  have h : k.val ≠ j.val := fun e => hne (Fin.ext e.symm)
  simp [Part.key, Part.setKey, Vector.getElem_set_ne, h]

@[simp] theorem Part.setKey_setKey (p : Part) (k : KeyNo) (l m : KeyLine) :
    (p.setKey k l).setKey k m = p.setKey k m := by
  simp [Part.setKey]

@[simp] theorem Part.setKey_power (p : Part) (k : KeyNo) (l : KeyLine) : (p.setKey k l).power = p.power := rfl
@[simp] theorem Part.setKey_now (p : Part) (k : KeyNo) (l : KeyLine) : (p.setKey k l).now = p.now := rfl
@[simp] theorem Part.setKey_choices (p : Part) (k : KeyNo) (l : KeyLine) : (p.setKey k l).choices = p.choices := rfl
@[simp] theorem Part.setKey_settings (p : Part) (k : KeyNo) (l : KeyLine) : (p.setKey k l).settings = p.settings := rfl
@[simp] theorem Part.setKey_store (p : Part) (k : KeyNo) (l : KeyLine) : (p.setKey k l).store = p.store := rfl
@[simp] theorem Part.setKey_saving (p : Part) (k : KeyNo) (l : KeyLine) : (p.setKey k l).saving = p.saving := rfl
@[simp] theorem Part.setKey_ring (p : Part) (k : KeyNo) (l : KeyLine) : (p.setKey k l).ring = p.ring := rfl
@[simp] theorem Part.setKey_feed (p : Part) (k : KeyNo) (l : KeyLine) : (p.setKey k l).feed = p.feed := rfl
@[simp] theorem Part.setKey_tracks (p : Part) (k : KeyNo) (l : KeyLine) : (p.setKey k l).tracks = p.tracks := rfl
@[simp] theorem Part.setKey_cues (p : Part) (k : KeyNo) (l : KeyLine) : (p.setKey k l).cues = p.cues := rfl
@[simp] theorem Part.setKey_expression (p : Part) (k : KeyNo) (l : KeyLine) :
    (p.setKey k l).expression = p.expression := rfl
@[simp] theorem Part.setKey_player (p : Part) (k : KeyNo) (l : KeyLine) : (p.setKey k l).player = p.player := rfl
@[simp] theorem Part.setKey_arbiter (p : Part) (k : KeyNo) (l : KeyLine) : (p.setKey k l).arbiter = p.arbiter := rfl
@[simp] theorem Part.setKey_pedals (p : Part) (k : KeyNo) (l : KeyLine) : (p.setKey k l).pedals = p.pedals := rfl
@[simp] theorem Part.setKey_notices (p : Part) (k : KeyNo) (l : KeyLine) : (p.setKey k l).notices = p.notices := rfl
@[simp] theorem Part.setKey_link (p : Part) (k : KeyNo) (l : KeyLine) : (p.setKey k l).link = p.link := rfl
@[simp] theorem Part.setKey_reported (p : Part) (k : KeyNo) (l : KeyLine) :
    (p.setKey k l).drives.reported = p.drives.reported := rfl
@[simp] theorem Part.setKey_holdCuts (p : Part) (k : KeyNo) (l : KeyLine) :
    (p.setKey k l).drives.holdCuts = p.drives.holdCuts := rfl
@[simp] theorem Part.setKey_nextHeatTick (p : Part) (k : KeyNo) (l : KeyLine) :
    (p.setKey k l).drives.nextHeatTick = p.drives.nextHeatTick := rfl
@[simp] theorem Part.setKey_pedal (p : Part) (k : KeyNo) (l : KeyLine) (d : Pedal) :
    (p.setKey k l).pedal d = p.pedal d := by
  cases d <;> rfl

/-! ### Pedals -/

@[simp] theorem Part.pedal_setPedal_same (p : Part) (d : Pedal) (r : PedalRecord) : (p.setPedal d r).pedal d = r := by
  cases d <;> rfl

theorem Part.pedal_setPedal_ne (p : Part) {d e : Pedal} (r : PedalRecord) (hne : e ≠ d) :
    (p.setPedal d r).pedal e = p.pedal e := by
  cases d <;> cases e <;> first | rfl | exact absurd rfl hne

@[simp] theorem Part.setPedal_setPedal (p : Part) (d : Pedal) (r u : PedalRecord) :
    (p.setPedal d r).setPedal d u = p.setPedal d u := by
  cases d <;> rfl

@[simp] theorem Part.setPedal_power (p : Part) (d : Pedal) (r : PedalRecord) : (p.setPedal d r).power = p.power := by
  cases d <;> rfl
@[simp] theorem Part.setPedal_now (p : Part) (d : Pedal) (r : PedalRecord) : (p.setPedal d r).now = p.now := by
  cases d <;> rfl
@[simp] theorem Part.setPedal_choices (p : Part) (d : Pedal) (r : PedalRecord) :
    (p.setPedal d r).choices = p.choices := by cases d <;> rfl
@[simp] theorem Part.setPedal_settings (p : Part) (d : Pedal) (r : PedalRecord) :
    (p.setPedal d r).settings = p.settings := by cases d <;> rfl
@[simp] theorem Part.setPedal_store (p : Part) (d : Pedal) (r : PedalRecord) : (p.setPedal d r).store = p.store := by
  cases d <;> rfl
@[simp] theorem Part.setPedal_saving (p : Part) (d : Pedal) (r : PedalRecord) : (p.setPedal d r).saving = p.saving := by
  cases d <;> rfl
@[simp] theorem Part.setPedal_ring (p : Part) (d : Pedal) (r : PedalRecord) : (p.setPedal d r).ring = p.ring := by
  cases d <;> rfl
@[simp] theorem Part.setPedal_feed (p : Part) (d : Pedal) (r : PedalRecord) : (p.setPedal d r).feed = p.feed := by
  cases d <;> rfl
@[simp] theorem Part.setPedal_tracks (p : Part) (d : Pedal) (r : PedalRecord) : (p.setPedal d r).tracks = p.tracks := by
  cases d <;> rfl
@[simp] theorem Part.setPedal_cues (p : Part) (d : Pedal) (r : PedalRecord) : (p.setPedal d r).cues = p.cues := by
  cases d <;> rfl
@[simp] theorem Part.setPedal_expression (p : Part) (d : Pedal) (r : PedalRecord) :
    (p.setPedal d r).expression = p.expression := by cases d <;> rfl
@[simp] theorem Part.setPedal_player (p : Part) (d : Pedal) (r : PedalRecord) : (p.setPedal d r).player = p.player := by
  cases d <;> rfl
@[simp] theorem Part.setPedal_arbiter (p : Part) (d : Pedal) (r : PedalRecord) :
    (p.setPedal d r).arbiter = p.arbiter := by cases d <;> rfl
@[simp] theorem Part.setPedal_drives (p : Part) (d : Pedal) (r : PedalRecord) : (p.setPedal d r).drives = p.drives := by
  cases d <;> rfl
@[simp] theorem Part.setPedal_notices (p : Part) (d : Pedal) (r : PedalRecord) :
    (p.setPedal d r).notices = p.notices := by cases d <;> rfl
@[simp] theorem Part.setPedal_link (p : Part) (d : Pedal) (r : PedalRecord) : (p.setPedal d r).link = p.link := by
  cases d <;> rfl
@[simp] theorem Part.setPedal_key (p : Part) (d : Pedal) (r : PedalRecord) (k : KeyNo) :
    (p.setPedal d r).key k = p.key k := by
  cases d <;> rfl
@[simp] theorem Part.setPedal_lead (p : Part) (d : Pedal) (r : PedalRecord) :
    (p.setPedal d r).pedals.lead = p.pedals.lead := by cases d <;> rfl
@[simp] theorem Part.setPedal_liftLevel (p : Part) (d : Pedal) (r : PedalRecord) :
    (p.setPedal d r).pedals.liftLevel = p.pedals.liftLevel := by cases d <;> rfl
@[simp] theorem Part.setPedal_featherLevel (p : Part) (d : Pedal) (r : PedalRecord) :
    (p.setPedal d r).pedals.featherLevel = p.pedals.featherLevel := by cases d <;> rfl
@[simp] theorem Part.setPedal_softLevel (p : Part) (d : Pedal) (r : PedalRecord) :
    (p.setPedal d r).pedals.softLevel = p.pedals.softLevel := by cases d <;> rfl

/-! ### The grant table and the wait list -/

@[simp] theorem Part.setPlace_grants (p : Part) (m : LineNo) (c : Option Nat) :
    (p.setPlace m c).arbiter.grants = p.arbiter.grants.set m c := rfl
@[simp] theorem Part.setPlace_wait (p : Part) (m : LineNo) (c : Option Nat) :
    (p.setPlace m c).arbiter.wait = p.arbiter.wait := rfl
@[simp] theorem Part.setPlace_history (p : Part) (m : LineNo) (c : Option Nat) :
    (p.setPlace m c).arbiter.history = p.arbiter.history := rfl
@[simp] theorem Part.setPlace_nextSequence (p : Part) (m : LineNo) (c : Option Nat) :
    (p.setPlace m c).arbiter.nextSequence = p.arbiter.nextSequence := rfl
@[simp] theorem Part.setPlace_outcomes (p : Part) (m : LineNo) (c : Option Nat) :
    (p.setPlace m c).arbiter.outcomes = p.arbiter.outcomes := rfl
@[simp] theorem Part.setPlace_settings (p : Part) (m : LineNo) (c : Option Nat) :
    (p.setPlace m c).settings = p.settings := rfl
@[simp] theorem Part.setPlace_now (p : Part) (m : LineNo) (c : Option Nat) : (p.setPlace m c).now = p.now := rfl
@[simp] theorem Part.setPlace_feed (p : Part) (m : LineNo) (c : Option Nat) : (p.setPlace m c).feed = p.feed := rfl
@[simp] theorem Part.setPlace_ring (p : Part) (m : LineNo) (c : Option Nat) : (p.setPlace m c).ring = p.ring := rfl
@[simp] theorem Part.setPlace_drives (p : Part) (m : LineNo) (c : Option Nat) : (p.setPlace m c).drives = p.drives := rfl
@[simp] theorem Part.setPlace_pedals (p : Part) (m : LineNo) (c : Option Nat) : (p.setPlace m c).pedals = p.pedals := rfl
@[simp] theorem Part.setPlace_notices (p : Part) (m : LineNo) (c : Option Nat) :
    (p.setPlace m c).notices = p.notices := rfl
@[simp] theorem Part.setPlace_link (p : Part) (m : LineNo) (c : Option Nat) : (p.setPlace m c).link = p.link := rfl
@[simp] theorem Part.setPlace_key (p : Part) (m : LineNo) (c : Option Nat) (k : KeyNo) :
    (p.setPlace m c).key k = p.key k := rfl
@[simp] theorem Part.setPlace_pedal (p : Part) (m : LineNo) (c : Option Nat) (d : Pedal) :
    (p.setPlace m c).pedal d = p.pedal d := by cases d <;> rfl

@[simp] theorem Part.setWait_wait (p : Part) (w : List WaitEntry) : (p.setWait w).arbiter.wait = w := rfl
@[simp] theorem Part.setWait_grants (p : Part) (w : List WaitEntry) :
    (p.setWait w).arbiter.grants = p.arbiter.grants := rfl
@[simp] theorem Part.setWait_history (p : Part) (w : List WaitEntry) :
    (p.setWait w).arbiter.history = p.arbiter.history := rfl
@[simp] theorem Part.setWait_nextSequence (p : Part) (w : List WaitEntry) :
    (p.setWait w).arbiter.nextSequence = p.arbiter.nextSequence := rfl
@[simp] theorem Part.setWait_outcomes (p : Part) (w : List WaitEntry) :
    (p.setWait w).arbiter.outcomes = p.arbiter.outcomes := rfl
@[simp] theorem Part.setWait_settings (p : Part) (w : List WaitEntry) : (p.setWait w).settings = p.settings := rfl
@[simp] theorem Part.setWait_now (p : Part) (w : List WaitEntry) : (p.setWait w).now = p.now := rfl
@[simp] theorem Part.setWait_feed (p : Part) (w : List WaitEntry) : (p.setWait w).feed = p.feed := rfl
@[simp] theorem Part.setWait_ring (p : Part) (w : List WaitEntry) : (p.setWait w).ring = p.ring := rfl
@[simp] theorem Part.setWait_drives (p : Part) (w : List WaitEntry) : (p.setWait w).drives = p.drives := rfl
@[simp] theorem Part.setWait_pedals (p : Part) (w : List WaitEntry) : (p.setWait w).pedals = p.pedals := rfl
@[simp] theorem Part.setWait_notices (p : Part) (w : List WaitEntry) : (p.setWait w).notices = p.notices := rfl
@[simp] theorem Part.setWait_link (p : Part) (w : List WaitEntry) : (p.setWait w).link = p.link := rfl
@[simp] theorem Part.setWait_key (p : Part) (w : List WaitEntry) (k : KeyNo) : (p.setWait w).key k = p.key k := rfl
@[simp] theorem Part.setWait_pedal (p : Part) (w : List WaitEntry) (d : Pedal) :
    (p.setWait w).pedal d = p.pedal d := by cases d <;> rfl

/-! ### The Feed Clock, the lead decoder and the halves -/

@[simp] theorem Part.setFeed_feed (p : Part) (f : FeedClock) : (p.setFeed f).feed = f := rfl
@[simp] theorem Part.setFeed_settings (p : Part) (f : FeedClock) : (p.setFeed f).settings = p.settings := rfl
@[simp] theorem Part.setFeed_ring (p : Part) (f : FeedClock) : (p.setFeed f).ring = p.ring := rfl
@[simp] theorem Part.setFeed_arbiter (p : Part) (f : FeedClock) : (p.setFeed f).arbiter = p.arbiter := rfl
@[simp] theorem Part.setFeed_drives (p : Part) (f : FeedClock) : (p.setFeed f).drives = p.drives := rfl
@[simp] theorem Part.setFeed_pedals (p : Part) (f : FeedClock) : (p.setFeed f).pedals = p.pedals := rfl
@[simp] theorem Part.setFeed_now (p : Part) (f : FeedClock) : (p.setFeed f).now = p.now := rfl
@[simp] theorem Part.setFeed_key (p : Part) (f : FeedClock) (k : KeyNo) : (p.setFeed f).key k = p.key k := rfl
@[simp] theorem Part.setFeed_pedal (p : Part) (f : FeedClock) (d : Pedal) : (p.setFeed f).pedal d = p.pedal d := by
  cases d <;> rfl

@[simp] theorem Part.setLead_lead (p : Part) (l : LeadDecoder) : (p.setLead l).pedals.lead = l := rfl
@[simp] theorem Part.setLead_feed (p : Part) (l : LeadDecoder) : (p.setLead l).feed = p.feed := rfl
@[simp] theorem Part.setLead_ring (p : Part) (l : LeadDecoder) : (p.setLead l).ring = p.ring := rfl
@[simp] theorem Part.setLead_settings (p : Part) (l : LeadDecoder) : (p.setLead l).settings = p.settings := rfl
@[simp] theorem Part.setLead_arbiter (p : Part) (l : LeadDecoder) : (p.setLead l).arbiter = p.arbiter := rfl
@[simp] theorem Part.setLead_key (p : Part) (l : LeadDecoder) (k : KeyNo) : (p.setLead l).key k = p.key k := rfl
@[simp] theorem Part.setLead_pedal (p : Part) (l : LeadDecoder) (d : Pedal) : (p.setLead l).pedal d = p.pedal d := by
  cases d <;> rfl

@[simp] theorem Part.setHalf_get_same (p : Part) (h : Half) (x : HalfExpression) :
    (p.setHalf h x).expression.halves.get h = x := by
  simp [Part.setHalf]
@[simp] theorem Part.setHalf_settings (p : Part) (h : Half) (x : HalfExpression) :
    (p.setHalf h x).settings = p.settings := rfl
@[simp] theorem Part.setHalf_feed (p : Part) (h : Half) (x : HalfExpression) : (p.setHalf h x).feed = p.feed := rfl
@[simp] theorem Part.setHalf_ring (p : Part) (h : Half) (x : HalfExpression) : (p.setHalf h x).ring = p.ring := rfl
@[simp] theorem Part.setHalf_arbiter (p : Part) (h : Half) (x : HalfExpression) :
    (p.setHalf h x).arbiter = p.arbiter := rfl
@[simp] theorem Part.setHalf_key (p : Part) (h : Half) (x : HalfExpression) (k : KeyNo) :
    (p.setHalf h x).key k = p.key k := rfl
@[simp] theorem Part.setHalf_pedal (p : Part) (h : Half) (x : HalfExpression) (d : Pedal) :
    (p.setHalf h x).pedal d = p.pedal d := by
  cases d <;> rfl

/-! ### Settings and the transmit queue -/

@[simp] theorem Part.replaceKeys_key (p : Part) (v : Vector KeyLine 88) (k : KeyNo) :
    ({ p with drives := { p.drives with keys := v } } : Part).key k = v[k] := rfl

@[simp] theorem Part.inPlay_setFeed (p : Part) (f : FeedClock) :
    (p.setFeed f).inPlay = (f.transport == .running || f.transport == .starved) := rfl

end Sys2Proof.Machine
end

