-- ==== Sys2Proof/Laws/Arbiter.lean ====
section
/-! SUPPORT. Laws of the Kick Arbiter: where a request stands in a sorted list, when a granting pass moves nothing, and
what a request leaves in terms of Safety.lean's relations. -/

namespace Sys2Proof.Machine

/-! ### Places in the list (R112) -/

/-- A request stands at the head exactly when every entry has a numerically higher priority. -/
theorem placeOf_eq_zero_iff (priority : Nat) (p : Part) : placeOf priority p.arbiter.wait = 0 ↔ p.headFor priority := by
  unfold placeOf Part.headFor
  rw [Nat.sub_eq_zero_iff_le]
  constructor
  · intro h e he
    have hp := List.takeWhile_prefix (l := p.arbiter.wait.reverse) fun e : WaitEntry => decide (priority < e.priority)
    have hl := hp.length_le
    have all := hp.eq_of_length (by simp only [List.length_reverse] at hl ⊢; omega)
    simpa using List.takeWhile_eq_self_iff.1 all e (by simpa using he)
  · intro h
    rw [List.takeWhile_eq_self_iff.2 (by simpa using h)]
    simp

/-- A list in priority order is what stands at or below a priority, and then the rest. -/
theorem sorted_split (priority : Nat) {w : List WaitEntry} (hs : w.Pairwise fun a b => a.priority ≤ b.priority) :
    ∃ u v, w = u ++ v ∧ (∀ x ∈ u, x.priority ≤ priority) ∧ ∀ x ∈ v, priority < x.priority := by
  induction w with
  | nil => exact ⟨[], [], rfl, by simp, by simp⟩
  | cons a t ih =>
    obtain ⟨ha, ht⟩ := List.pairwise_cons.1 hs
    by_cases h : a.priority ≤ priority
    · obtain ⟨u, v, rfl, hu, hv⟩ := ih ht
      exact ⟨a :: u, v, rfl, by simpa [h] using hu, hv⟩
    · refine ⟨[], a :: t, rfl, by simp, fun x hx => ?_⟩
      rcases List.mem_cons.1 hx with rfl | hx
      · omega
      · have := ha x hx
        omega

/-- In a list in priority order an entry joins behind those at or below its priority and ahead of the rest. -/
theorem setWait_insertAt {p : Part} (hs : p.arbiter.wait.Pairwise fun a b => a.priority ≤ b.priority) (e : WaitEntry) :
    p.setWait (insertAt (placeOf e.priority p.arbiter.wait) e p.arbiter.wait) = p.joined e := by
  obtain ⟨u, v, hw, hu, hv⟩ := sorted_split e.priority hs
  have place : placeOf e.priority (u ++ v) = u.length := by
    have none_below : (u.reverse.takeWhile fun x => decide (e.priority < x.priority)) = [] := by
      rw [List.takeWhile_eq_nil_iff]
      intro hl
      simpa using hu _ (List.mem_reverse.1 (List.getElem_mem (l := u.reverse) (n := 0) hl))
    unfold placeOf
    rw [List.reverse_append, List.takeWhile_append_of_pos (by simpa using hv), none_below]
    simp
  unfold Part.joined Part.setWait
  rw [hw, place, insertAt, List.take_left, List.drop_left, List.filter_append, List.filter_append,
    List.filter_eq_self.2 (by simpa using hu), List.filter_eq_nil_iff.2 (by simpa using hv),
    List.filter_eq_nil_iff.2 (fun x hx => by simpa using hu x hx), List.filter_eq_self.2 (by simpa using hv)]
  simp

/-! ### Granting passes that move nothing (R114) -/

/-- A pass over a list whose head does not fit moves nothing. -/
theorem grantingPass_idle {p : Part} (h : ∀ e, p.arbiter.wait.head? = some e → p.fits e.cost = false) :
    grantingPass p = p := by
  unfold grantingPass
  cases hw : p.arbiter.wait with
  | nil => simp [grantFrom, Part.setWait, ← hw]
  | cons e rest => simp [grantFrom, h e (by simp [hw]), Part.setWait, ← hw]

/-- The pass that follows a joining moves nothing: either the old head stands, which does not fit, or the request is the
head and does not fit itself. -/
theorem grantingPass_joined {p q : Part} (hw : WaitSound p) (e : WaitEntry)
    (hn : ¬ (p.headFor e.priority ∧ e.cost + p.arbiter.unitsInUse ≤ p.settings.budgetUnits))
    (units : q.arbiter.unitsInUse = p.arbiter.unitsInUse) (budget : q.settings = p.settings)
    (list : q.arbiter.wait = (p.joined e).arbiter.wait) : grantingPass q = q := by
  obtain ⟨-, -, hsort, -, hh⟩ := hw
  refine grantingPass_idle fun x hx => ?_
  rw [list] at hx
  simp only [Part.fits, units, budget, decide_eq_false_iff_not, not_le]
  simp only [Part.joined] at hx
  cases hc : p.arbiter.wait with
  | nil =>
    simp only [hc, List.filter_nil, List.nil_append, List.head?_cons, Option.some.injEq] at hx
    subst hx
    simp [Part.headFor, hc] at hn
    omega
  | cons a t =>
    rw [hc] at hx hsort
    by_cases ha : a.priority ≤ e.priority
    · simp only [ha, decide_true, List.filter_cons_of_pos, List.cons_append, List.head?_cons, Option.some.injEq] at hx
      subst hx
      exact hh a (by simp [hc])
    · have hall : ∀ y ∈ a :: t, e.priority < y.priority := by
        intro y hy
        rcases List.mem_cons.1 hy with rfl | hy
        · omega
        · have := (List.pairwise_cons.1 hsort).1 y hy
          omega
      rw [List.filter_eq_nil_iff.2 (fun y hy => by simpa using hall y hy)] at hx
      simp only [List.nil_append, List.head?_cons, Option.some.injEq] at hx
      subst hx
      have : ¬ e.cost + p.arbiter.unitsInUse ≤ p.settings.budgetUnits := fun h => hn ⟨by rw [Part.headFor, hc]; exact hall, h⟩
      omega

/-- A full list without its last entry is sound, its head being the old one. -/
theorem waitSound_dropLast {p q : Part} (hw : WaitSound p) (full : p.arbiter.wait.length = 32)
    (list : q.arbiter.wait = p.arbiter.wait.dropLast) (grants : q.arbiter.grants = p.arbiter.grants)
    (settings : q.settings = p.settings) : WaitSound q := by
  obtain ⟨-, h2, h3, h4, h5⟩ := hw
  unfold WaitSound
  rw [list, settings, KickArbiter.unitsInUse, grants]
  refine ⟨by simp; omega, h2.sublist ((List.dropLast_sublist _).map _), h3.sublist (List.dropLast_sublist _),
    fun e he => h4 e (List.mem_of_mem_dropLast he), fun e he => h5 e ?_⟩
  match hc : p.arbiter.wait, full with
  | a :: b :: t, _ => simpa [hc] using he

/-! ### Records of lines and the ends of plans -/

theorem key_setKey (p : Part) (k j : KeyNo) (l : KeyLine) : (p.setKey k l).key j = if k = j then l else p.key j := by
  split
  · next h => rw [h, Part.key_setKey_same]
  · next h => exact Part.key_setKey_ne p l (Ne.symm h)

/-- The end of a plan is the filing of it. -/
theorem endPlan_eq_filed (plan : Plan) (o : StrikeOutcome) (waited : Nat) (p : Part) :
    endPlan plan o waited p = p.filed plan o waited := by
  have : p.arbiter.history.length + 1 - 64 = p.arbiter.history.length - 63 := by omega
  simp [endPlan, Part.filed, KickArbiter.fileEnd, fileRecord, recordOf, Config.historyRecords, this, bump, saturate,
    Config.countMax]

/-- A filing leaves the lines, the pedals, the settings, the clock, the grant table and the list. -/
theorem filed_keeps (plan : Plan) (o : StrikeOutcome) (waited : Nat) (p : Part) :
    (p.filed plan o waited).drives = p.drives ∧ (p.filed plan o waited).pedals = p.pedals
      ∧ (p.filed plan o waited).settings = p.settings ∧ (p.filed plan o waited).now = p.now
      ∧ (p.filed plan o waited).arbiter.grants = p.arbiter.grants
      ∧ (p.filed plan o waited).arbiter.wait = p.arbiter.wait := by
  unfold Part.filed
  dsimp only
  split <;> simp [raise, updateNotices]

theorem filed_setKey (plan : Plan) (o : StrikeOutcome) (waited : Nat) (p : Part) (k : KeyNo) (l : KeyLine) :
    (p.filed plan o waited).setKey k l = (p.setKey k l).filed plan o waited := by
  unfold Part.filed
  dsimp only
  split <;> rfl

theorem filed_setPlace (plan : Plan) (o : StrikeOutcome) (waited : Nat) (p : Part) (m : LineNo) (c : Option Nat) :
    (p.filed plan o waited).setPlace m c = (p.setPlace m c).filed plan o waited := by
  unfold Part.filed
  dsimp only
  split <;> rfl

/-! ### Requests -/

theorem joined_setKey (p : Part) (e : WaitEntry) (k : KeyNo) (l : KeyLine) :
    (p.joined e).setKey k l = (p.setKey k l).joined e := rfl

/-- A line that is QUEUED after an eviction has been QUEUED from the record it had before, whatever its origin was. -/
theorem evicting_queued (p : Part) (last : WaitEntry) (victim : Plan) (k : KeyNo) (o o' : Option Origin) :
    let q := (p.setKey k { p.key k with queuedOrigin := o }).evicting last victim
    q.setKey k { q.key k with state := .queued, queuedOrigin := o' }
      = (p.evicting last victim).setKey k { p.key k with state := .queued, queuedOrigin := o' } := by
  intro q
  have key : q.key k = if victim.line = k then { p.key k with state := .idle, queuedOrigin := none }
      else { p.key k with queuedOrigin := o } := by
    have keeps := filed_keeps (last.standing victim) .evicted ((p.now - last.entered) / 20)
      (({ p.setKey k { p.key k with queuedOrigin := o } with arbiter := { p.arbiter with wait := p.arbiter.wait.dropLast } }
          : Part).setKey victim.line
        { (p.setKey k { p.key k with queuedOrigin := o }).key victim.line with state := .idle, queuedOrigin := none })
    have : q.key k = _ := congrArg (fun x : DriveSequencer => x.keys[k]) keeps.1
    rw [this]
    change (Part.setKey _ _ _).key k = _
    rw [key_setKey]
    split
    · next h => rw [h, key_setKey]; simp
    · change (p.setKey k _).key k = _
      rw [key_setKey]; simp
  have row : ({ q.key k with state := .queued, queuedOrigin := o' } : KeyLine)
      = { p.key k with state := .queued, queuedOrigin := o' } := by
    rw [key]
    split <;> rfl
  rw [row]
  simp only [q, Part.evicting, filed_setKey]
  congr 1
  simp only [Part.setKey, Part.key]
  congr 2
  ext i hi
  simp only [Vector.getElem_set]
  split
  · rfl
  · split
    · next h1 h2 =>
      have apart : ¬ k.val = victim.line.val := by omega
      simp [apart]
    · rfl

/-- An eviction removes the last entry and files its plan (R113). -/
theorem evict_strike {last : WaitEntry} {victim : Plan} (h : last.request = .strike victim) (p : Part) :
    evict last p = p.evicting last victim := by
  simp only [evict, returnLine, h, endPlan_eq_filed]
  rfl

/-- A key plan that joins the list and is not granted at once makes its line QUEUED (R112, R129). -/
theorem joinList_strike {p : Part} {e : WaitEntry} {plan : Plan} (hw : WaitSound p) (hr : e.request = .strike plan)
    (hn : ¬ (p.headFor e.priority ∧ e.cost + p.arbiter.unitsInUse ≤ p.settings.budgetUnits)) :
    joinList e p = queueKey plan.line plan.origin (p.joined e) := by
  simp only [joinList, hr, setWait_insertAt hw.2.2.1]
  exact grantingPass_joined hw e hn rfl rfl rfl

/-- A lift that joins the list and is not granted at once leaves its entry alone (R112). -/
theorem joinList_lift {p : Part} {e : WaitEntry} {depth : Depth} (hw : WaitSound p) (hr : e.request = .lift depth)
    (hn : ¬ (p.headFor e.priority ∧ e.cost + p.arbiter.unitsInUse ≤ p.settings.budgetUnits)) :
    joinList e p = p.joined e := by
  simp only [joinList, hr, setWait_insertAt hw.2.2.1]
  exact grantingPass_joined hw e hn rfl rfl rfl

/-- Into the room of the last entry a request of a better priority joins a full list as it would have joined it before
(R113). -/
theorem joinList_evicting {p : Part} {last e : WaitEntry} {victim : Plan} (hw : WaitSound p)
    (full : p.arbiter.wait.length = 32) (hlast : p.arbiter.wait.getLast? = some last) (better : e.priority < last.priority)
    (hn : ¬ (p.headFor e.priority ∧ e.cost + p.arbiter.unitsInUse ≤ p.settings.budgetUnits)) :
    WaitSound (p.evicting last victim)
      ∧ ¬ ((p.evicting last victim).headFor e.priority
        ∧ e.cost + (p.evicting last victim).arbiter.unitsInUse ≤ (p.evicting last victim).settings.budgetUnits) := by
  have keeps := filed_keeps (last.standing victim) .evicted ((p.now - last.entered) / 20)
    (({ p with arbiter := { p.arbiter with wait := p.arbiter.wait.dropLast } } : Part).setKey victim.line
      { p.key victim.line with state := .idle, queuedOrigin := none })
  have list : (p.evicting last victim).arbiter.wait = p.arbiter.wait.dropLast := keeps.2.2.2.2.2
  have grants : (p.evicting last victim).arbiter.grants = p.arbiter.grants := keeps.2.2.2.2.1
  have settings : (p.evicting last victim).settings = p.settings := keeps.2.2.1
  refine ⟨waitSound_dropLast hw full list grants settings, fun ⟨h1, h2⟩ => hn ⟨fun x hx => ?_, ?_⟩⟩
  · rw [← List.dropLast_append_getLast? last hlast] at hx
    rcases List.mem_append.1 hx with hx | hx
    · exact h1 x (by rw [list]; exact hx)
    · rw [List.mem_singleton.1 hx]
      exact better
  · rwa [settings, KickArbiter.unitsInUse, grants] at h2

/-- What the request of a key plan leaves (R112, R113, R115). -/
theorem submitPlan_requested (plan : Plan) (p : Part) (origin : Option Origin) (hw : WaitSound p) :
    StrikeRequested plan p (submitPlan plan (p.setKey plan.line { p.key plan.line with queuedOrigin := origin })) := by
  generalize hq : p.setKey plan.line { p.key plan.line with queuedOrigin := origin } = q
  have sound : WaitSound q := by rw [← hq]; exact hw
  have wait : q.arbiter.wait = p.arbiter.wait := by rw [← hq]; rfl
  have cond : (q.headFor plan.priority ∧ plan.cost + q.arbiter.unitsInUse ≤ q.settings.budgetUnits) ↔
      (p.headFor plan.priority ∧ plan.cost + p.arbiter.unitsInUse ≤ p.settings.budgetUnits) := by
    rw [← hq]
    rfl
  have first : (placeOf plan.priority q.arbiter.wait = 0 ∧ q.fits plan.cost = true) ↔
      (p.headFor plan.priority ∧ plan.cost + p.arbiter.unitsInUse ≤ p.settings.budgetUnits) := by
    rw [placeOf_eq_zero_iff, Part.fits, decide_eq_true_eq, cond]
  refine ⟨fun h => ?_, fun h hl => ?_, fun last victim h hl hlast hv => ⟨fun hlt => ?_, fun hle => ?_⟩⟩
  · refine (if_pos (first.2 h)).trans ?_
    change startKick plan (endPlan plan .played 0 (q.setPlace _ _)) = _
    rw [endPlan_eq_filed, ← filed_setPlace, ← hq, ← filed_setKey]
    simp only [startKick, Part.setPlace, Part.setKey, Part.key, filed_keeps]
    simp
  · refine ((if_neg fun c => h (first.1 c)).trans (if_pos (by rw [wait]; exact hl))).trans ?_
    refine (joinList_strike sound rfl fun c => h (cond.1 c)).trans ?_
    rw [← hq]
    simp only [queueKey, Part.joined, Part.newEntry, Part.setKey, Part.key, msTime]
    simp
    rfl
  · refine ((if_neg fun c => h (first.1 c)).trans (if_neg (by rw [wait]; simp [hl, Config.waitEntries]))).trans ?_
    simp only [wait, hlast]
    refine (if_pos hlt).trans ?_
    rw [evict_strike hv]
    have h' : ¬ _ := fun c => h (cond.1 c)
    obtain ⟨rsound, hn⟩ := joinList_evicting (victim := victim)
      (e := q.newEntry (keyLineNo plan.line) plan.priority plan.cost (.strike plan) plan.flags.short) sound
      (by rw [wait]; exact hl) (by rw [wait]; exact hlast) hlt h'
    refine (joinList_strike rsound rfl hn).trans ?_
    rw [queueKey, show ((q.evicting last victim).joined _).key plan.line = (q.evicting last victim).key plan.line from rfl,
      joined_setKey, joined_setKey, ← hq, evicting_queued]
    rfl
  · refine ((if_neg fun c => h (first.1 c)).trans (if_neg (by rw [wait]; simp [hl, Config.waitEntries]))).trans ?_
    simp only [wait, hlast]
    refine (if_neg (by omega)).trans ?_
    change endPlan plan .listFull 0 (unqueueKey plan.line q) = _
    rw [endPlan_eq_filed, ← hq, unqueueKey, key_setKey, Part.setKey_setKey]
    simp

/-- What the request of a pedal leaves (R112, R113, R150, R151). -/
theorem beginWait_requested (d : Pedal) (origin : WaitOrigin) (depth : Depth) (p : Part) (hw : WaitSound p) :
    LiftRequested d (liftDepth d (p.pedal d) depth) origin p (beginWait d origin depth p) := by
  generalize hd : liftDepth d (p.pedal d) depth = want
  generalize hq : p.setPedal d { p.pedal d with
    state := .waiting, origin := some origin, depth := want, settleTimer := none } = q
  have begun : beginWait d origin depth p = submitLift d want q := by simp only [beginWait, hd, hq]
  rw [begun]
  have same : q.arbiter = p.arbiter ∧ q.settings = p.settings ∧ q.now = p.now ∧ q.drives = p.drives := by
    rw [← hq]
    cases d <;> exact ⟨rfl, rfl, rfl, rfl⟩
  have sound : WaitSound q := by
    unfold WaitSound
    rw [same.1, same.2.1]
    exact hw
  have cost : (p.settings.ofPedal d).1 = q.settings.pedalCost d := by rw [same.2.1]; cases d <;> rfl
  have cond : (q.headFor 0 ∧ q.settings.pedalCost d + q.arbiter.unitsInUse ≤ q.settings.budgetUnits) ↔
      (p.headFor 0 ∧ (p.settings.ofPedal d).1 + p.arbiter.unitsInUse ≤ p.settings.budgetUnits) := by
    rw [cost, Part.headFor, Part.headFor, same.1, same.2.1]
  have first : (placeOf 0 q.arbiter.wait = 0 ∧ q.fits (q.settings.pedalCost d) = true) ↔
      (p.headFor 0 ∧ (p.settings.ofPedal d).1 + p.arbiter.unitsInUse ≤ p.settings.budgetUnits) := by
    rw [placeOf_eq_zero_iff, Part.fits, decide_eq_true_eq, cond]
  refine ⟨fun h => ?_, fun h hl => ?_, fun last victim h hl hlast hv => ?_⟩
  · refine (if_pos (first.2 h)).trans ?_
    rw [← hq]
    cases d <;> rfl
  · refine ((if_neg fun c => h (first.1 c)).trans (if_pos (by rw [same.1]; exact hl))).trans ?_
    refine (joinList_lift sound rfl fun c => h (cond.1 c)).trans ?_
    rw [← hq]
    cases d <;> rfl
  · have better : 0 < last.priority := by
      have := hw.2.2.2.1 last (List.mem_of_getLast? hlast)
      simp only [WaitEntry.sound, hv] at this
      omega
    refine ((if_neg fun c => h (first.1 c)).trans (if_neg (by rw [same.1]; simp [hl, Config.waitEntries]))).trans ?_
    simp only [same.1, hlast]
    refine (if_pos better).trans ?_
    rw [evict_strike hv]
    have h' : ¬ _ := fun c => h (cond.1 c)
    obtain ⟨rsound, hn⟩ := joinList_evicting (victim := victim)
      (e := q.newEntry (pedalLineNo d) 0 (q.settings.pedalCost d) (.lift want) false) sound
      (by rw [same.1]; exact hl) (by rw [same.1]; exact hlast) better h'
    refine (joinList_lift rsound rfl hn).trans ?_
    rw [← hq]
    cases d <;> (simp only [Part.evicting, Part.filed]; split <;> rfl)

end Sys2Proof.Machine
end

