-- ==== Sys2Proof/Laws/Bytes.lean ====
section
/-! SUPPORT. Laws of the byte order: how long a field is, and that a field read back is the number written. -/

namespace Sys2Proof.Machine

@[simp] theorem littleEndian_length (width n : Nat) : (littleEndian width n).length = width := by
  induction width generalizing n with
  | zero => rfl
  | succ w ih => simp [littleEndian, ih]

@[simp] theorem littleEndian_zero (n : Nat) : littleEndian 0 n = [] := rfl

theorem fromLittleEndian_littleEndian (width n : Nat) :
    fromLittleEndian (littleEndian width n) = n % 256 ^ width := by
  induction width generalizing n with
  | zero => simp [littleEndian, fromLittleEndian, Nat.mod_one]
  | succ w ih =>
    have step : n % (256 * 256 ^ w) = n % 256 + 256 * (n / 256 % 256 ^ w) := Nat.mod_mul
    have power : 256 ^ (w + 1) = 256 * 256 ^ w := Nat.pow_succ'
    rw [littleEndian, fromLittleEndian, ih, BitVec.toNat_ofNat, power, step]

theorem fromLittleEndian_lt (bs : List Byte) : fromLittleEndian bs < 256 ^ bs.length := by
  induction bs with
  | nil => simp [fromLittleEndian]
  | cons b bs ih =>
    have hb : b.toNat < 256 := b.isLt
    rw [fromLittleEndian, List.length_cons, Nat.pow_succ']
    omega

theorem littleEndian_fromLittleEndian (bs : List Byte) : littleEndian bs.length (fromLittleEndian bs) = bs := by
  induction bs with
  | nil => rfl
  | cons b bs ih =>
    have hb : b.toNat < 256 := b.isLt
    have low : BitVec.ofNat 8 (fromLittleEndian (b :: bs)) = b := by
      apply BitVec.eq_of_toNat_eq
      simp only [fromLittleEndian, BitVec.toNat_ofNat]
      omega
    have high : fromLittleEndian (b :: bs) / 256 = fromLittleEndian bs := by
      simp only [fromLittleEndian]
      omega
    rw [List.length_cons, littleEndian, low, high, ih]

/-- A field of a payload written in place, with bytes before and after it, reads as the number written. -/
theorem fieldAt_append (before after : List Byte) (width n : Nat) :
    fieldAt (before ++ (littleEndian width n ++ after)) before.length width = n % 256 ^ width := by
  simp [fieldAt, fromLittleEndian_littleEndian]

theorem byteAt_append_left {before : List Byte} {i : Nat} (h : i < before.length) (after : List Byte) :
    byteAt (before ++ after) i = byteAt before i := by
  simp [byteAt, h, List.getElem?_append_left h]

end Sys2Proof.Machine
end

