-- ==== Sys2Proof/Laws/Frames.lean ====
section
/-! SUPPORT. Frames: an operation of the arbiter, of the key lines or of a pedal moves lines, pedals, units, records and
flags alone. Each operation has one lemma, so that no later proof opens it to see what it leaves. -/

namespace Sys2Proof.Machine

/-- `q` differs from `p` in nothing but the key lines, the pedals' records, the arbiter, the hold cuts, the raised flags
and sets, whether a notice frame is asked for, and the choices of order made. -/
structure LinesOnly (p q : Part) : Prop where
  power : q.power = p.power
  now : q.now = p.now
  settings : q.settings = p.settings
  store : q.store = p.store
  saving : q.saving = p.saving
  ring : q.ring = p.ring
  feed : q.feed = p.feed
  tracks : q.tracks = p.tracks
  cues : q.cues = p.cues
  expression : q.expression = p.expression
  player : q.player = p.player
  reported : q.drives.reported = p.drives.reported
  nextHeatTick : q.drives.nextHeatTick = p.drives.nextHeatTick
  lead : q.pedals.lead = p.pedals.lead
  liftLevel : q.pedals.liftLevel = p.pedals.liftLevel
  featherLevel : q.pedals.featherLevel = p.pedals.featherLevel
  softLevel : q.pedals.softLevel = p.pedals.softLevel
  mask : q.notices.mask = p.notices.mask
  faultMask : q.notices.faultMask = p.notices.faultMask
  restingMask : q.notices.restingMask = p.notices.restingMask
  link : q.link = { p.link with noticeAsked := q.link.noticeAsked }

namespace LinesOnly

theorem refl (p : Part) : LinesOnly p p := by
  constructor <;> rfl

theorem trans {p q r : Part} (h : LinesOnly p q) (g : LinesOnly q r) : LinesOnly p r where
  power := g.power.trans h.power
  now := g.now.trans h.now
  settings := g.settings.trans h.settings
  store := g.store.trans h.store
  saving := g.saving.trans h.saving
  ring := g.ring.trans h.ring
  feed := g.feed.trans h.feed
  tracks := g.tracks.trans h.tracks
  cues := g.cues.trans h.cues
  expression := g.expression.trans h.expression
  player := g.player.trans h.player
  reported := g.reported.trans h.reported
  nextHeatTick := g.nextHeatTick.trans h.nextHeatTick
  lead := g.lead.trans h.lead
  liftLevel := g.liftLevel.trans h.liftLevel
  featherLevel := g.featherLevel.trans h.featherLevel
  softLevel := g.softLevel.trans h.softLevel
  mask := g.mask.trans h.mask
  faultMask := g.faultMask.trans h.faultMask
  restingMask := g.restingMask.trans h.restingMask
  link := by rw [g.link, h.link]

theorem inPlay {p q : Part} (h : LinesOnly p q) : q.inPlay = p.inPlay := by
  simp [Part.inPlay, h.feed]

theorem foldl {α : Type} {act : Part → α → Part} (h : ∀ q a, LinesOnly q (act q a)) (as : List α) (p : Part) :
    LinesOnly p (as.foldl act p) := by
  induction as generalizing p with
  | nil => exact refl p
  | cons a as ih => exact (h p a).trans (ih (act p a))

end LinesOnly

/-! ### Updates of one place -/

theorem setKey_frame (p : Part) (k : KeyNo) (l : KeyLine) : LinesOnly p (p.setKey k l) := by
  constructor <;> rfl

theorem setPedal_frame (p : Part) (d : Pedal) (r : PedalRecord) : LinesOnly p (p.setPedal d r) := by
  cases d <;> constructor <;> rfl

theorem setPlace_frame (p : Part) (m : LineNo) (c : Option Nat) : LinesOnly p (p.setPlace m c) := by
  constructor <;> rfl

theorem setWait_frame (p : Part) (w : List WaitEntry) : LinesOnly p (p.setWait w) := by
  constructor <;> rfl

theorem arbiter_frame (p : Part) (a : KickArbiter) : LinesOnly p { p with arbiter := a } := by
  constructor <;> rfl

theorem choices_frame (p : Part) (n : Nat) : LinesOnly p { p with choices := n } := by
  constructor <;> rfl

theorem holdCuts_frame (p : Part) (n : Nat) : LinesOnly p { p with drives := { p.drives with holdCuts := n } } := by
  constructor <;> rfl

/-! ### Raises -/

/-- A notice frame asked for changes nothing of the link but that. -/
theorem askNotice_eq (l : LinkPort) : l.askNotice = { l with noticeAsked := l.askNotice.noticeAsked } := by
  unfold LinkPort.askNotice
  split <;> rfl

theorem updateNotices_link (f : Notices → Notices) (p : Part) :
    (updateNotices f p).link = { p.link with noticeAsked := (updateNotices f p).link.noticeAsked } := by
  simp only [updateNotices]
  split
  · exact askNotice_eq p.link
  · rfl

theorem updateNotices_frame {f : Notices → Notices} (p : Part) (hm : (f p.notices).mask = p.notices.mask)
    (hf : (f p.notices).faultMask = p.notices.faultMask) (hr : (f p.notices).restingMask = p.notices.restingMask) :
    LinesOnly p (updateNotices f p) := by
  constructor <;> first | rfl | assumption | exact updateNotices_link f p

theorem raise_frame (src : NoticeSource) (p : Part) : LinesOnly p (raise src p) :=
  updateNotices_frame p rfl rfl rfl

theorem raiseCueFired_frame (i : Fin 4) (p : Part) : LinesOnly p (raiseCueFired i p) :=
  updateNotices_frame p rfl rfl rfl

theorem raiseLineFault_frame (m : LineNo) (p : Part) : LinesOnly p (raiseLineFault m p) :=
  updateNotices_frame p rfl rfl rfl

theorem raiseLineResting_frame (k : KeyNo) (p : Part) : LinesOnly p (raiseLineResting k p) :=
  updateNotices_frame p rfl rfl rfl

/-! ### The arbiter -/

theorem endPlan_frame (plan : Plan) (o : StrikeOutcome) (w : Nat) (p : Part) : LinesOnly p (endPlan plan o w p) := by
  unfold endPlan
  split
  · exact arbiter_frame p _
  · exact (arbiter_frame p _).trans (raise_frame _ _)

theorem startKick_frame (plan : Plan) (p : Part) : LinesOnly p (startKick plan p) :=
  setKey_frame p _ _

theorem startLift_frame (d : Pedal) (p : Part) : LinesOnly p (startLift d p) :=
  setPedal_frame p d _

theorem grant_frame (m : LineNo) (c : Nat) (r : KickRequest) (short : Bool) (w : Nat) (p : Part) :
    LinesOnly p (grant m c r short w p) := by
  unfold grant
  refine (setPlace_frame p m (some c)).trans ?_
  split
  · exact (endPlan_frame _ _ _ _).trans (startKick_frame _ _)
  · split
    · exact .refl _
    · exact startLift_frame _ _

theorem grantFrom_frame (w : List WaitEntry) (p : Part) : LinesOnly p (grantFrom w p) := by
  induction w generalizing p with
  | nil => exact setWait_frame p _
  | cons e rest ih =>
    unfold grantFrom
    split
    · exact ((setWait_frame p _).trans (grant_frame _ _ _ _ _ _)).trans (ih _)
    · exact setWait_frame p _

theorem grantingPass_frame (p : Part) : LinesOnly p (grantingPass p) :=
  grantFrom_frame _ p

theorem reportEnd_frame (m : LineNo) (p : Part) : LinesOnly p (reportEnd m p) := by
  unfold reportEnd
  split
  · exact .refl p
  · exact (setPlace_frame p _ _).trans (grantingPass_frame _)

theorem unqueueKey_frame (k : KeyNo) (p : Part) : LinesOnly p (unqueueKey k p) :=
  setKey_frame p _ _

theorem queueKey_frame (k : KeyNo) (o : Origin) (p : Part) : LinesOnly p (queueKey k o p) :=
  setKey_frame p _ _

theorem returnPedal_frame (d : Pedal) (p : Part) : LinesOnly p (returnPedal d p) := by
  unfold returnPedal
  dsimp only
  split <;> exact setPedal_frame p d _

theorem returnLine_frame (e : WaitEntry) (p : Part) : LinesOnly p (returnLine e p) := by
  unfold returnLine
  split
  · exact unqueueKey_frame _ p
  · exact returnPedal_frame _ p
  · exact .refl p

theorem dropEntry_frame (p : Part) (m : LineNo) : LinesOnly p (p.dropEntry m) :=
  setWait_frame p _

theorem joinList_frame (e : WaitEntry) (p : Part) : LinesOnly p (joinList e p) := by
  unfold joinList
  refine LinesOnly.trans ?_ (grantingPass_frame _)
  split
  · exact (setWait_frame p _).trans (queueKey_frame _ _ _)
  · exact setWait_frame p _

theorem evict_frame (e : WaitEntry) (p : Part) : LinesOnly p (evict e p) := by
  have h := (setWait_frame p p.arbiter.wait.dropLast).trans (returnLine_frame e _)
  unfold evict
  dsimp only
  split
  · exact h.trans (endPlan_frame _ _ _ _)
  · exact h

theorem turnAway_frame (e : WaitEntry) (p : Part) : LinesOnly p (turnAway e p) := by
  unfold turnAway
  split
  · exact (returnLine_frame e p).trans (endPlan_frame _ _ _ _)
  · exact returnLine_frame e p

theorem arrive_frame (m : LineNo) (priority c : Nat) (r : KickRequest) (short : Bool) (p : Part) :
    LinesOnly p (arrive m priority c r short p) := by
  unfold arrive
  dsimp only
  split
  · exact grant_frame _ _ _ _ _ p
  · split
    · exact joinList_frame _ p
    · split
      · exact turnAway_frame _ p
      · split
        · exact (evict_frame _ p).trans (joinList_frame _ _)
        · exact turnAway_frame _ p

theorem submitPlan_frame (plan : Plan) (p : Part) : LinesOnly p (submitPlan plan p) :=
  arrive_frame _ _ _ _ _ p

theorem submitLift_frame (d : Pedal) (depth : Depth) (p : Part) : LinesOnly p (submitLift d depth p) :=
  arrive_frame _ _ _ _ _ p

theorem mergePlan_frame (plan : Plan) (p : Part) : LinesOnly p (mergePlan plan p) := by
  unfold mergePlan
  split
  · exact .refl p
  · rename_i e _
    have h := (setWait_frame p (changeEntry (keyLineNo plan.line) (fun x => x.merged plan) p.arbiter.wait)).trans
      (queueKey_frame plan.line plan.origin _)
    dsimp only
    cases e.request with
    | strike old =>
      have g := h.trans (endPlan_frame (old.withShort e.short) .merged (wholeMs e.entered p.now) _)
      dsimp only
      split
      · exact g.trans (grantingPass_frame _)
      · exact g
    | lift depth =>
      dsimp only
      split
      · exact h.trans (grantingPass_frame _)
      · exact h

theorem shortenEntry_frame (k : KeyNo) (p : Part) : LinesOnly p (shortenEntry k p) :=
  setWait_frame p _

theorem removeKeyEntry_frame (e : WaitEntry) (plan : Plan) (o : StrikeOutcome) (w : Nat) (p : Part) :
    LinesOnly p (removeKeyEntry e plan o w p) :=
  (((dropEntry_frame p _).trans (unqueueKey_frame _ _)).trans (endPlan_frame _ _ _ _)).trans (grantingPass_frame _)

theorem countWithdrawal_frame (p : Part) : LinesOnly p (countWithdrawal p) :=
  arbiter_frame p _

theorem countLatePedal_frame (p : Part) : LinesOnly p (countLatePedal p) :=
  arbiter_frame p _

theorem withdrawLift_frame (d : Pedal) (p : Part) : LinesOnly p (withdrawLift d p) :=
  ((dropEntry_frame p _).trans (countWithdrawal_frame _)).trans (grantingPass_frame _)

theorem expireEntry_frame (e : WaitEntry) (p : Part) : LinesOnly p (expireEntry e p) := by
  unfold expireEntry
  split
  · exact removeKeyEntry_frame _ _ _ _ p
  · exact (((dropEntry_frame p _).trans (countLatePedal_frame _)).trans (returnPedal_frame _ _)).trans
      (grantingPass_frame _)
  · exact (dropEntry_frame p _).trans (grantingPass_frame _)

theorem flushEntry_frame (e : WaitEntry) (p : Part) : LinesOnly p (flushEntry e p) := by
  unfold flushEntry
  split
  · exact (unqueueKey_frame _ p).trans (endPlan_frame _ _ _ _)
  · exact .refl p

theorem flushEntries_frame (p : Part) : LinesOnly p (flushEntries p) :=
  (setWait_frame p _).trans (LinesOnly.foldl (fun q e => flushEntry_frame e q) _ _)

/-! ### Matters in any order -/

theorem inAnyOrder_frame {α : Type} {act : α → Part → Part} (h : ∀ a q, LinesOnly q (act a q)) (as : List α)
    (p : Part) : LinesOnly p (inAnyOrder as act p) :=
  (choices_frame p _).trans (LinesOnly.foldl (fun q a => h a q) _ _)

/-! ### Key lines -/

theorem gainHeat_frame (k : KeyNo) (n : Nat) (p : Part) : LinesOnly p (gainHeat k n p) := by
  unfold gainHeat
  dsimp only
  split
  · exact (setKey_frame p k _).trans (raiseLineResting_frame k _)
  · exact setKey_frame p k _

theorem enterRelease_frame (k : KeyNo) (p : Part) : LinesOnly p (enterRelease k p) :=
  setKey_frame p _ _

theorem endOfGuard_frame (k : KeyNo) (p : Part) : LinesOnly p (endOfGuard k p) := by
  unfold endOfGuard
  dsimp only
  split
  · exact setKey_frame p k _
  · split
    · exact setKey_frame p k _
    · exact (setKey_frame p k _).trans (submitPlan_frame _ _)

theorem resumeLines_frame (p : Part) : LinesOnly p (resumeLines p) :=
  inAnyOrder_frame endOfGuard_frame _ p

theorem holdPending_frame (plan : Plan) (p : Part) : LinesOnly p (holdPending plan p) := by
  unfold holdPending
  dsimp only
  split
  · exact setKey_frame p _ _
  · exact (setKey_frame p _ _).trans (endPlan_frame _ _ _ _)

theorem newPlan_frame (plan : Plan) (p : Part) : LinesOnly p (newPlan plan p) := by
  unfold newPlan
  dsimp only
  split
  · exact (setKey_frame p _ _).trans (submitPlan_frame _ _)
  · exact mergePlan_frame plan p
  · exact holdPending_frame plan p
  · exact holdPending_frame plan p
  · exact (enterRelease_frame _ p).trans (holdPending_frame plan _)
  · exact .refl p

theorem noteOff_frame (k : KeyNo) (p : Part) : LinesOnly p (noteOff k p) := by
  unfold noteOff
  dsimp only
  split
  · exact .refl p
  · exact .refl p
  · split
    · exact shortenEntry_frame k p
    · exact .refl p
  · split
    · exact setKey_frame p k _
    · exact setKey_frame p k _
    · exact .refl p
  · split
    · exact enterRelease_frame k p
    · exact .refl p
  · split
    · exact setKey_frame p k _
    · exact .refl p

theorem enterHold_frame (k : KeyNo) (plan : Plan) (p : Part) : LinesOnly p (enterHold k plan p) :=
  setKey_frame p _ _

theorem kickRunsOut_frame (k : KeyNo) (p : Part) : LinesOnly p (kickRunsOut k p) := by
  unfold kickRunsOut
  split
  · rename_i plan _ _
    have h := (gainHeat_frame k (kickHeat plan.kick plan.kickDuty) p).trans (reportEnd_frame (keyLineNo k) _)
    dsimp only
    split
    · exact h.trans (enterRelease_frame k _)
    · exact h.trans (enterHold_frame k _ _)
  · exact .refl p

theorem holdGains_frame (k : KeyNo) (p : Part) : LinesOnly p (holdGains k p) := by
  unfold holdGains
  split
  · exact (setKey_frame p k _).trans (gainHeat_frame k _ _)
  · exact .refl p

theorem countHoldCut_frame (p : Part) : LinesOnly p (countHoldCut p) :=
  (holdCuts_frame p _).trans (raise_frame _ _)

theorem holdEnds_frame (k : KeyNo) (p : Part) : LinesOnly p (holdEnds k p) := by
  unfold holdEnds
  dsimp only
  split
  · split
    · exact (enterRelease_frame k p).trans (countHoldCut_frame _)
    · exact enterRelease_frame k p
  · exact .refl p

theorem guardEnds_frame (k : KeyNo) (p : Part) : LinesOnly p (guardEnds k p) := by
  unfold guardEnds
  split
  · exact endOfGuard_frame k p
  · exact .refl p

theorem cutKick_frame (k : KeyNo) (p : Part) : LinesOnly p (cutKick k p) := by
  unfold cutKick
  split
  · exact (gainHeat_frame k _ p).trans (setPlace_frame _ _ _)
  · exact setPlace_frame p _ _

theorem releaseKey_frame (restore : Bool) (k : KeyNo) (p : Part) : LinesOnly p (releaseKey restore k p) := by
  unfold releaseKey
  split
  · exact (cutKick_frame k p).trans (enterRelease_frame k _)
  · exact enterRelease_frame k p
  · exact unqueueKey_frame k p
  · split
    · exact (enterRelease_frame k p).trans (setKey_frame _ _ _)
    · exact .refl p
  · exact .refl p
  · exact .refl p

theorem endPending_frame (k : KeyNo) (o : StrikeOutcome) (p : Part) : LinesOnly p (endPending k o p) := by
  unfold endPending
  split
  · exact .refl p
  · exact (setKey_frame p k _).trans (endPlan_frame _ _ _ _)

theorem endWait_frame (k : KeyNo) (p : Part) : LinesOnly p (endWait k p) := by
  unfold endWait
  split
  · exact endOfGuard_frame k p
  · exact .refl p

theorem flushPending_frame (p : Part) : LinesOnly p (flushPending p) :=
  inAnyOrder_frame (fun k q => (endPending_frame k .flushed q).trans (endWait_frame k _)) _ p

theorem releaseKeyLines_frame (restore : Bool) (p : Part) : LinesOnly p (releaseKeyLines restore p) :=
  (((flushEntries_frame p).trans (LinesOnly.foldl (fun q k => releaseKey_frame restore k q) _ _)).trans
    (flushPending_frame _)).trans (grantingPass_frame _)

theorem releaseHolds_frame (p : Part) : LinesOnly p (releaseHolds p) := by
  refine LinesOnly.foldl (fun q k => ?_) _ p
  split
  · exact enterRelease_frame k q
  · exact .refl q

theorem coolKey_frame (k : KeyNo) (p : Part) : LinesOnly p (coolKey k p) :=
  setKey_frame p _ _

theorem heatTicks_frame (p : Part) : LinesOnly p (heatTicks p) :=
  (LinesOnly.foldl (fun q k => coolKey_frame k q) _ p).trans (resumeLines_frame _)

theorem updateResting_frame (k : KeyNo) (p : Part) : LinesOnly p (updateResting k p) := by
  unfold updateResting
  dsimp only
  split
  · split
    · exact setKey_frame p k _
    · exact (setKey_frame p k _).trans (raiseLineResting_frame k _)
  · split
    · exact setKey_frame p k _
    · exact .refl p

theorem removeRestingEntry_frame (e : WaitEntry) (p : Part) : LinesOnly p (removeRestingEntry e p) := by
  unfold removeRestingEntry
  split
  · split
    · exact ((dropEntry_frame p _).trans (unqueueKey_frame _ _)).trans (endPlan_frame _ _ _ _)
    · exact .refl p
  · exact .refl p

theorem updateAllResting_frame (p : Part) : LinesOnly p (updateAllResting p) :=
  (((LinesOnly.foldl (fun q k => updateResting_frame k q) _ p).trans
    (LinesOnly.foldl (fun q e => removeRestingEntry_frame e q) _ _)).trans (grantingPass_frame _)).trans
    (resumeLines_frame _)

theorem endElapsedGuards_frame (p : Part) : LinesOnly p (endElapsedGuards p) :=
  inAnyOrder_frame guardEnds_frame _ p

theorem markFaulted_frame (k : KeyNo) (f : FaultKind) (p : Part) : LinesOnly p (markFaulted k f p) :=
  setKey_frame p _ _

theorem faultEntry_frame (k : KeyNo) (p : Part) : LinesOnly p (faultEntry k p) := by
  unfold faultEntry
  split
  · split
    · exact removeKeyEntry_frame _ _ _ _ p
    · exact .refl p
  · exact .refl p

theorem faultCuts_frame (k : KeyNo) (p : Part) : LinesOnly p (faultCuts k p) := by
  unfold faultCuts
  split
  · exact faultEntry_frame k p
  · exact ((cutKick_frame k p).trans (grantingPass_frame _)).trans (endPending_frame k _ _)
  · exact endPending_frame k _ p
  · exact .refl p
  · exact .refl p
  · exact .refl p

theorem faultKey_frame (k : KeyNo) (f : FaultKind) (p : Part) : LinesOnly p (faultKey k f p) := by
  unfold faultKey
  split
  · exact .refl p
  · exact ((faultCuts_frame k p).trans (markFaulted_frame k f _)).trans (raiseLineFault_frame _ _)

theorem restoreKey_frame (k : KeyNo) (p : Part) : LinesOnly p (restoreKey k p) :=
  (enterRelease_frame k p).trans (setKey_frame _ _ _)

/-! ### Onsets -/

theorem takeOnset_frame (o : Onset) (p : Part) : LinesOnly p (takeOnset o p) := by
  unfold takeOnset
  split
  · exact endPlan_frame _ _ _ p
  · exact newPlan_frame _ p

/-! ### Pedals -/

theorem beginWait_frame (d : Pedal) (o : WaitOrigin) (depth : Depth) (p : Part) : LinesOnly p (beginWait d o depth p) :=
  (setPedal_frame p d _).trans (submitLift_frame d _ _)

theorem beginDrop_frame (d : Pedal) (p : Part) : LinesOnly p (beginDrop d p) :=
  setPedal_frame p d _

theorem changeDepth_frame (d : Pedal) (depth : Depth) (p : Part) : LinesOnly p (changeDepth d depth p) := by
  unfold changeDepth
  dsimp only
  split
  · split
    · exact setPedal_frame p d _
    · exact beginWait_frame d _ _ p
  · split
    · exact (withdrawLift_frame d p).trans (returnPedal_frame d _)
    · exact setPedal_frame p d _
  · exact setPedal_frame p d _
  · exact .refl p
  · exact .refl p

theorem liftPedal_frame (d : Pedal) (depth : Depth) (p : Part) : LinesOnly p (liftPedal d depth p) := by
  unfold liftPedal
  dsimp only
  split
  · split
    · exact countWithdrawal_frame p
    · exact beginWait_frame d _ _ p
  · exact beginWait_frame d _ _ p
  · split
    · exact changeDepth_frame d _ p
    · exact .refl p
  · exact setPedal_frame p d _
  · split
    · exact changeDepth_frame d _ p
    · exact .refl p

theorem dropPedal_frame (d : Pedal) (p : Part) : LinesOnly p (dropPedal d p) := by
  have back := (withdrawLift_frame d p).trans (returnPedal_frame d _)
  unfold dropPedal
  dsimp only
  split
  · exact .refl p
  · exact .refl p
  · split
    · exact back.trans (beginDrop_frame d _)
    · exact back
  · exact setPedal_frame p d _
  · exact beginDrop_frame d p

theorem moveRail_frame (d : Pedal) (up : Bool) (p : Part) : LinesOnly p (moveRail d up p) := by
  unfold moveRail
  split
  · exact liftPedal_frame d _ p
  · exact dropPedal_frame d p

theorem liftEnds_frame (d : Pedal) (p : Part) : LinesOnly p (liftEnds d p) := by
  unfold liftEnds
  have ended := reportEnd_frame (pedalLineNo d) p
  split
  · dsimp only
    have idle := ended.trans
      (setPedal_frame (reportEnd (pedalLineNo d) p) d
        { (reportEnd (pedalLineNo d) p).pedal d with kickTimer := none })
    split
    · exact idle.trans (beginDrop_frame d _)
    · exact idle.trans (setPedal_frame _ d _)
  · exact .refl p

theorem settleEnds_frame (d : Pedal) (p : Part) : LinesOnly p (settleEnds d p) := by
  unfold settleEnds
  dsimp only
  split
  · exact setPedal_frame p d _
  · exact .refl p

theorem demandDamper_frame (p : Part) : LinesOnly p (demandDamper p) := by
  unfold demandDamper
  split
  · exact liftPedal_frame _ _ p
  · exact dropPedal_frame _ p

theorem followSoft_frame (h : Half) (p : Part) : LinesOnly p (followSoft h p) := by
  unfold followSoft
  split
  · exact moveRail_frame _ _ p
  · exact .refl p

theorem dropPlayedRail_frame (h : Half) (p : Part) : LinesOnly p (dropPlayedRail h p) := by
  unfold dropPlayedRail
  split
  · exact dropPedal_frame _ p
  · exact dropPedal_frame _ p
  · exact .refl p
  · exact .refl p

theorem dropPlayedPedals_frame (p : Part) : LinesOnly p (dropPlayedPedals p) :=
  ((dropPedal_frame _ p).trans (dropPlayedRail_frame _ _)).trans (dropPlayedRail_frame _ _)

theorem dropAllPedals_frame (p : Part) : LinesOnly p (dropAllPedals p) :=
  ((dropPedal_frame _ p).trans (dropPedal_frame _ _)).trans (dropPedal_frame _ _)

theorem pedalFaulted_frame (d : Pedal) (p : Part) : LinesOnly p (pedalFaulted d p) := by
  unfold pedalFaulted
  dsimp only
  split
  · exact (reportEnd_frame _ p).trans (setPedal_frame _ d _)
  · exact (withdrawLift_frame d p).trans (setPedal_frame _ d _)
  · exact setPedal_frame p d _
  · exact setPedal_frame p d _
  · exact setPedal_frame p d _

theorem faultPedal_frame (d : Pedal) (f : FaultKind) (p : Part) : LinesOnly p (faultPedal d f p) := by
  unfold faultPedal
  split
  · exact .refl p
  · exact ((setPedal_frame p d _).trans (raiseLineFault_frame _ _)).trans (pedalFaulted_frame d _)

theorem clearPedalFault_frame (d : Pedal) (p : Part) : LinesOnly p (clearPedalFault d p) :=
  setPedal_frame p d _

theorem restoreAllPedals_frame (p : Part) : LinesOnly p (restoreAllPedals p) :=
  ((clearPedalFault_frame _ p).trans (clearPedalFault_frame _ _)).trans (clearPedalFault_frame _ _)

theorem applyHold_frame (d : Pedal) (holding : PedalRecord → Bool) (duty : Nat) (p : Part) :
    LinesOnly p (applyHold d holding duty p) := by
  unfold applyHold
  split
  · exact setPedal_frame p d _
  · exact .refl p

theorem applyRailHold_frame (p : Part) : LinesOnly p (applyRailHold p) :=
  (applyHold_frame _ _ _ p).trans (applyHold_frame _ _ _ _)

theorem releasePlay_frame (p : Part) : LinesOnly p (releasePlay p) :=
  (releaseKeyLines_frame false p).trans (dropPlayedPedals_frame _)

/-! ### The lead decoder moves pedals and itself alone -/

/-- A lead onset is a lift, or nothing. -/
theorem leadOnset_frame (p : Part) : LinesOnly p (leadOnset p) := by
  unfold leadOnset
  dsimp only
  split
  · exact liftPedal_frame _ _ p
  · exact .refl p

end Sys2Proof.Machine
end

