-- ==== Sys2Proof/Laws/Orders.lean ====
section
/-! SUPPORT. Laws of the matters that come in any order: whatever the free values are, every element is acted on once,
and what every act keeps, the whole keeps. -/

namespace Sys2Proof.Machine

theorem takeOut_perm {α : Type} {n : Nat} {as rest : List α} {a : α} (h : takeOut n as = some (a, rest)) :
    (a :: rest).Perm as := by
  induction as generalizing n rest with
  | nil => cases n <;> simp [takeOut] at h
  | cons b bs ih =>
    cases n with
    | zero =>
      simp only [takeOut, Option.some.injEq, Prod.mk.injEq] at h
      obtain ⟨rfl, rfl⟩ := h
      exact .refl _
    | succ n =>
      simp only [takeOut, Option.map_eq_some_iff, Prod.mk.injEq] at h
      obtain ⟨⟨c, cs⟩, hc, rfl, rfl⟩ := h
      exact (List.Perm.swap b c cs).trans ((ih hc).cons b)

/-- A free order of a list holds every element of it as often as the list does. -/
theorem freeOrder_perm {α : Type} (fuel seed : Nat) (as : List α) : (freeOrder fuel seed as).Perm as := by
  induction fuel generalizing seed as with
  | zero => simp [freeOrder]
  | succ fuel ih =>
    match as with
    | [] => simp [freeOrder]
    | [a] => simp [freeOrder]
    | a :: b :: as =>
      simp only [freeOrder]
      split
      · next r hr => exact ((ih _ _).cons r.1).trans (takeOut_perm (rest := r.2) (a := r.1) hr)
      · exact (ih _ _).cons a

@[simp] theorem mem_freeOrder {α : Type} {fuel seed : Nat} {as : List α} {a : α} :
    a ∈ freeOrder fuel seed as ↔ a ∈ as :=
  (freeOrder_perm fuel seed as).mem_iff

@[simp] theorem freeOrder_length {α : Type} (fuel seed : Nat) (as : List α) :
    (freeOrder fuel seed as).length = as.length :=
  (freeOrder_perm fuel seed as).length_eq

/-- What holds of the part once its choices are counted, and what every act on an element of the list keeps, holds
after all of them, in whatever order they came. -/
theorem inAnyOrder_keeps {α : Type} {act : α → Part → Part} {P : Part → Prop} {as : List α} {p : Part}
    (start : P { p with choices := p.choices + (as.length - 1) }) (keep : ∀ a ∈ as, ∀ q, P q → P (act a q)) :
    P (inAnyOrder as act p) := by
  have fold : ∀ (bs : List α), (∀ b ∈ bs, b ∈ as) → ∀ q, P q → P (bs.foldl (fun q a => act a q) q) := by
    intro bs
    induction bs with
    | nil => exact fun _ _ h => h
    | cons b bs ih =>
      exact fun hm q h => ih (fun c hc => hm c (.tail b hc)) _ (keep b (hm b (.head bs)) q h)
  exact fold _ (fun b hb => mem_freeOrder.mp hb) _ start

/-- With nothing to act on, nothing moves and no choice is taken. -/
@[simp] theorem inAnyOrder_nil {α : Type} (act : α → Part → Part) (p : Part) : inAnyOrder [] act p = p := rfl

/-- One element is acted on alone, and no choice is taken. -/
@[simp] theorem inAnyOrder_singleton {α : Type} (a : α) (act : α → Part → Part) (p : Part) :
    inAnyOrder [a] act p = act a p := rfl

end Sys2Proof.Machine
end

