-- ==== Sys2Proof/Laws/Pedals.lean ====
section
/-! SUPPORT. Laws of the demands on the pedals: the Pedal Unit's operations in the words of Safety.lean. -/

namespace Sys2Proof.Machine

/-- The damper is handed the demand of its two levels (R149). -/
theorem demandDamper_eq (p : Part) : demandDamper p = p.damperDemanded := by
  simp only [demandDamper, Part.damperDemanded, PedalUnit.damperDemand]
  cases p.pedals.liftLevel <;> cases p.pedals.featherLevel <;> rfl

/-- A ROLL rail follows SOFT (R149). -/
theorem followSoft_eq (h : Half) (p : Part) : followSoft h p = p.softFollowed h := rfl

/-- The re-sync of a rail goes by its mode (R88, R157). -/
theorem resyncPedal_railOf (h : Half) (p : Part) : resyncPedal (railOf h) p = p.railResynced h := by
  cases h <;>
    simp only [railOf, resyncPedal, Part.railResynced, resyncRail, moveRail, Part.railAsked, railAnswer, Part.demanding,
      Part.setAutoUp] <;>
    split <;> rfl

/-- The re-sync takes the damper, the bass rail and the treble rail (R157). -/
theorem resyncPedals_eq (p : Part) : resyncPedals p = p.resynced := by
  simp only [resyncPedals, Part.resynced, ← resyncPedal_railOf, railOf, ← demandDamper_eq]
  rfl

/-- The rail stage of a half (R86). -/
theorem autoRailStage_eq (h : Half) (p : Part) : autoRailStage h p = p.railStaged h := by
  simp only [autoRailStage, Part.railStaged, railStage, moveRail, Part.railAsked, Part.demanding, Part.setAutoUp]
  split <;> simp_all

end Sys2Proof.Machine
end

