-- ==== Sys2Proof/Laws/Requests.lean ====
section
/-! SUPPORT. Taking a request: what a command does with the request that waits first, and with none it may take. -/

namespace Sys2Proof.Machine

/-- A command of a running part acts on the part alone. -/
theorem whileOn_on {act : Part → Part} {s : State} (h : s.part.power = .on) :
    whileOn act s = .next (s.withPart (act s.part)) := by
  simp [whileOn, h, State.withPart]

/-- A command of a part that does not run changes nothing. -/
theorem whileOn_off {act : Part → Part} {s : State} (h : s.part.power ≠ .on) : whileOn act s = .next s := by
  simp [whileOn, h]

/-- The request a command takes is the first waiting, if its row is the command's. -/
theorem requestFor_of_mayTake {p : Part} {f : Frame} {c : Instr} (h : p.MayTake f) (hr : rowOf f = c) :
    p.requestFor c = some f := by
  obtain ⟨-, hs, hroom, hw⟩ := h
  simp [Part.requestFor, Part.readyForRequest, Part.request, hs, Config.replyRoom, hroom, hw, Option.filter, hr]

/-- A command takes no request but the one that may be taken and is its own. -/
theorem requestFor_eq_some {p : Part} {f : Frame} {c : Instr} (hon : p.power = .on)
    (h : p.requestFor c = some f) : p.MayTake f ∧ rowOf f = c := by
  unfold Part.requestFor at h
  split at h
  · rename_i hr
    simp only [Part.readyForRequest, Config.replyRoom, Bool.and_eq_true, Option.isNone_iff_eq_none] at hr
    obtain ⟨hh, hrow⟩ := Option.filter_eq_some_iff.mp h
    exact ⟨⟨hon, hr.1, of_decide_eq_true hr.2, hh⟩, by simpa using hrow⟩
  · cases h

/-- The command whose request waits first carries it out. -/
theorem takeRequest_of_mayTake {s : State} {f : Frame} {c : Instr} {take : Frame → Part → Part}
    (h : s.part.MayTake f) (hr : rowOf f = c) : takeRequest c take s = .next (s.withPart (take f s.part)) := by
  simp [takeRequest, whileOn_on h.1, requestFor_of_mayTake h hr]

/-- A command whose request may not be taken changes nothing. -/
theorem takeRequest_of_none {s : State} {c : Instr} {take : Frame → Part → Part}
    (h : ∀ f, s.part.MayTake f → rowOf f ≠ c) : takeRequest c take s = .next s := by
  by_cases hon : s.part.power = .on
  · have hn : s.part.requestFor c = none := by
      cases hf : s.part.requestFor c with
      | none => rfl
      | some f => exact absurd (requestFor_eq_some hon hf).2 (h f (requestFor_eq_some hon hf).1)
    simp [takeRequest, whileOn_on hon, hn, State.withPart]
  · exact whileOn_off hon

/-- An answered request: its reply stands at the queue's end and it has left the buffer. -/
theorem answer_eq (act : List Byte → Part → List Byte × Part) (f : Frame) (p : Part) :
    answer act f p = (act f.payload p).2.replied f (act f.payload p).1 := rfl

/-- A request whose reply is placed. -/
theorem finishRequest_eq (f : Frame) (payload : List Byte) (p : Part) :
    finishRequest (f.reply payload) p = p.replied f payload := rfl

/-- A command that answers its request completes with what the act makes of the payload. -/
theorem takeRequest_answer {s : State} {f : Frame} {c : Instr} {act : List Byte → Part → List Byte × Part}
    (h : s.part.MayTake f) (hr : rowOf f = c) :
    takeRequest c (answer act) s
      = .next (s.withPart ((act f.payload s.part).2.replied f (act f.payload s.part).1)) := by
  rw [takeRequest_of_mayTake h hr, answer_eq]

/-! ### Which command a request is -/

theorem rowOf_write {f : Frame} (h : f.kind = 0x20) : rowOf f = writeRow f.payload := by
  simp [rowOf, h]

/-- An item's code names the item. -/
theorem Item.ofCode_code (i : Item) : Item.ofCode i.code = some i := by
  cases i <;> rfl

/-- A WRITE SETTING of an item is its writer's. -/
theorem rowOf_item {f : Frame} {item : Item} (h : f.kind = 0x20) (hl : 2 ≤ f.payload.length)
    (hc : byteAt f.payload 0 = item.code) : rowOf f = item.writer := by
  have : ¬ f.payload.length < 2 := by omega
  simp [rowOf_write h, writeRow, this, itemOf, hc, Item.ofCode_code]

/-- A value of two bytes, as the items read it. -/
theorem fieldAt_drop_two (bs : List Byte) : fieldAt (bs.drop 2) 0 2 = fieldAt bs 2 2 := by
  simp [fieldAt]

/-- A byte is the head of what is left from its place on. -/
theorem byteAt_eq_head (bs : List Byte) (i : Nat) : byteAt bs i = ((bs.drop i).getD 0 0).toNat := by
  simp [byteAt, List.getD_eq_getElem?_getD]

/-- A field of two bytes is its low byte and 256 times its high byte. -/
theorem fieldAt_two (bs : List Byte) (i : Nat) : fieldAt bs i 2 = byteAt bs i + 256 * byteAt bs (i + 1) := by
  have hd : bs.drop (i + 1) = (bs.drop i).tail := by simp
  rw [byteAt_eq_head bs (i + 1), hd, byteAt_eq_head, fieldAt]
  generalize bs.drop i = l
  rcases l with _ | ⟨a, _ | ⟨b, l⟩⟩ <;> simp [fromLittleEndian]

/-- The scalar value of a WRITE SETTING payload. -/
theorem fieldAt_valueOf (f : Frame) : fieldAt (f.payload.drop 2) 0 2 = valueOf f := by
  rw [fieldAt_drop_two, fieldAt_two]
  rfl

/-- A WRITE SETTING of an item of the right size goes to its owner. -/
theorem writeSettingItem_of_mayTake {p : Part} {f : Frame} {item : Item} (h : p.MayTakeItem f 0x20 item) :
    writeSettingItem f.payload p = writeItem item (byteAt f.payload 1) (f.payload.drop 2) p := by
  obtain ⟨-, -, hl, hc⟩ := h
  have : ¬ f.payload.length < 2 := by omega
  rw [writeSettingItem, if_neg this]
  simp [itemOf, hc, Item.ofCode_code, hl]

/-- A write by an item's own command goes to its owner. -/
theorem itemWrite_of_mayTake {p : Part} {f : Frame} {item : Item} (h : p.MayTakeItem f 0x20 item)
    (write : Nat → List Byte → Part → Written) :
    itemWrite item write f.payload p
      = ((write (byteAt f.payload 1) (f.payload.drop 2) p).1.bytes, (write (byteAt f.payload 1) (f.payload.drop 2) p).2)
    := by
  simp [itemWrite, h.2.2.1, Written.alone]

/-- A scalar write by an item's own command. -/
theorem scalarWrite_of_mayTake {p : Part} {f : Frame} {item : Item} (h : p.MayTakeItem f 0x20 item)
    (write : Nat → Part → Written) :
    scalarWrite item write f.payload p = ((write (valueOf f) p).1.bytes, (write (valueOf f) p).2) := by
  simp [scalarWrite, itemWrite_of_mayTake h, fieldAt_valueOf]

/-- An indexed scalar write by an item's own command. -/
theorem indexedWrite_of_mayTake {p : Part} {f : Frame} {item : Item} (h : p.MayTakeItem f 0x20 item)
    (write : Nat → Nat → Part → Written) :
    indexedWrite item write f.payload p
      = ((write (byteAt f.payload 1) (valueOf f) p).1.bytes, (write (byteAt f.payload 1) (valueOf f) p).2) := by
  simp [indexedWrite, itemWrite_of_mayTake h, fieldAt_valueOf]

/-- The row of an item's write that may be taken. -/
theorem rowOf_of_mayTakeItem {p : Part} {f : Frame} {item : Item} (h : p.MayTakeItem f 0x20 item) :
    rowOf f = item.writer :=
  rowOf_item h.2.1 (by have := h.2.2.1; omega) h.2.2.2

end Sys2Proof.Machine
end

