-- ==== Sys2Proof/Tests/Slice0.lean ====
section
/-! SUPPORT. Tests: the operand checks with an ill-formed term for each, values that the spec states, and for every
obligation a state that meets its hypotheses, clause by clause, at a boundary of its ranges. -/

namespace Sys2Proof.Tests

set_option Elab.async false

open Sys2Proof Sys2Proof.Machine

/-! ### Well-formed commands (section "Conventions", Line) -/

theorem test_key_line_87_is_well_formed : (Instr.kickEnd 87).WellFormed := by decide
theorem test_kick_end_of_line_88_refused : ¬ (Instr.kickEnd 88).WellFormed := by decide
theorem test_hold_heat_gain_of_line_88_refused : ¬ (Instr.holdHeatGain 88).WellFormed := by decide
theorem test_hold_deadline_of_line_88_refused : ¬ (Instr.holdDeadline 88).WellFormed := by decide
theorem test_guard_end_of_line_88_refused : ¬ (Instr.guardEnd 88).WellFormed := by decide
theorem test_wait_deadline_of_line_90_is_well_formed : (Instr.waitDeadline 90).WellFormed := by decide
theorem test_wait_deadline_of_line_91_refused : ¬ (Instr.waitDeadline 91).WellFormed := by decide

/-! ### Small states -/

/-- The part that asks `f` of itself: the request waits first and the transmit queue is free. -/
def asking (p : Part) (f : Frame) : State :=
  { pending := [], part := { p with link := { p.link with waiting := [f], queue := [], sending := none } } }

/-- A request with tag 7. -/
def request (kind : Byte) (payload : List Byte) : Frame :=
  { kind := kind, tag := 7, payload := payload }

/-- A WRITE SETTING of a scalar item, with index 0. -/
def write (item : Item) (v : Nat) : Frame :=
  request 0x20 ([BitVec.ofNat 8 item.code, 0] ++ littleEndian 2 v)

/-- A WRITE SETTING of an indexed scalar. -/
def writeAt (item : Item) (index v : Nat) : Frame :=
  request 0x20 ([BitVec.ofNat 8 item.code, BitVec.ofNat 8 index] ++ littleEndian 2 v)

/-- The part a command leaves, the part itself where it stops. -/
def after (c : Instr) (s : State) : Part :=
  match exec c s with
  | .next t => t.part
  | .fault _ | .refused _ => s.part

/-- The payload of the newest frame in the transmit queue. -/
def replyOf (p : Part) : List Byte :=
  match p.link.queue.getLast? with
  | some (.reply bytes) => (bytes.drop 5).take (bytes.length - 7)
  | _ => []

/-- The part at reset in another transport state, a row taken in RUNNING. -/
def inState (t : Transport) : Part :=
  { Part.reset with feed := { Part.reset.feed with transport := t, taken := t == .running } }

/-- The part at reset with a key line changed. -/
def withKey (k : KeyNo) (f : KeyLine → KeyLine) (p : Part) : Part :=
  p.setKey k (f (p.key k))

/-- The part at reset with a pedal changed. -/
def withPedal (d : Pedal) (f : PedalRecord → PedalRecord) (p : Part) : Part :=
  p.setPedal d (f (p.pedal d))

/-- A plan for a key line with a kick duty of 28, cost 4. -/
def aPlan (k : KeyNo) (origin : Origin) : Plan :=
  { line := k, origin := origin, onsetRow := none, shade := 512, kick := 100, kickDuty := 28, holdDuty := 8, cost := 4,
    priority := 3, holdTime := some 10,
    flags := { accent := false, clamped := false, derated := false, short := false } }

/-- The part at reset with key 10 in KICK. -/
def kicking (origin : Origin) : Part :=
  (withKey 10 (fun l => { l with
    state := .kick, plan := some (aPlan 10 origin), drive := { l.drive with duty := some 28, carried := 28 } }) Part.reset).setPlace 10
    (some 4)

/-- The part at reset with key 10 in HOLD. -/
def holding (origin : Origin) : Part :=
  withKey 10 (fun l => { l with state := .hold, plan := some (aPlan 10 origin), holdDeadline := some 200 }) Part.reset

/-- The part at reset with key 10 in RELEASE. -/
def releasing (pending : Option Plan) (resting : Bool) : Part :=
  withKey 10 (fun l => { l with state := .release, pending := pending, resting := resting }) Part.reset

/-- A part whose budget of 4 is spent by a kick on key 10, with an entry waiting. -/
def spent (e : WaitEntry) : Part :=
  let p := (kicking .direct).setWait [e]
  { p with settings := { p.settings with budgetUnits := 4, damperCost := 4, railCost := 4 } }

/-- An entry of key 11. -/
def keyEntry : WaitEntry :=
  { line := 11, priority := 3, cost := 4, request := .strike (aPlan 11 .direct), entered := 0, deadline := 500,
    short := false }

/-- An entry of a pedal. -/
def pedalEntry (d : Pedal) : WaitEntry :=
  { line := pedalLineNo d, priority := 0, cost := 4, request := .lift .full, entered := 0, deadline := 500,
    short := false }

/-- A part in which key 11 is QUEUED. -/
def queued : Part :=
  withKey 11 (fun l => { l with state := .queued, queuedOrigin := some .direct }) (spent keyEntry)

/-- A part in which a pedal is WAITING. -/
def waiting (d : Pedal) (origin : WaitOrigin) : Part :=
  withPedal d (fun r => { r with state := .waiting, origin := some origin }) (spent (pedalEntry d))

/-- The part at reset with a pedal LIFTING. -/
def lifting (d : Pedal) (mark : Bool) : Part :=
  (withPedal d (fun r => { r with state := .lifting, dropMark := mark }) Part.reset).setPlace (pedalLineNo d) (some 4)

/-! ### Requests that may be taken -/

theorem asking_mayTake (p : Part) (f : Frame) (h : p.power = .on ∧ p.saving = none) :
    (asking p f).part.MayTake f :=
  ⟨h.1, h.2, by simp [asking, LinkPort.room, LinkPort.unsent, Config.linkBytes], rfl⟩

/-- A state and a request that may be taken and meet a condition. -/
theorem meets {C : State → Frame → Prop} (p : Part) (f : Frame) (h : C (asking p f) f)
    (hp : p.power = .on ∧ p.saving = none := by decide +kernel) : ∃ s f, s.part.MayTake f ∧ C s f :=
  ⟨asking p f, f, asking_mayTake p f hp, h⟩

/-- A state and a write of an item that may be taken and meet a condition. -/
theorem meetsItem {kind : Byte} {item : Item} {C : State → Frame → Prop} (p : Part) (f : Frame)
    (h : C (asking p f) f)
    (hf : f.kind = kind ∧ f.payload.length = 2 + item.size ∧ byteAt f.payload 0 = item.code := by decide +kernel)
    (hp : p.power = .on ∧ p.saving = none := by decide +kernel) : ∃ s f, s.part.MayTakeItem f kind item ∧ C s f :=
  ⟨asking p f, f, ⟨asking_mayTake p f hp, hf⟩, h⟩

/-! ### Parts that keep the budget -/

/-- The agreement of a key line with the arbiter, as a check. -/
def keyChecks (p : Part) (k : KeyNo) : Bool :=
  let l := p.key k
  (decide (l.state = .kick) == (p.arbiter.grants[keyLineNo k]).isSome)
    && (decide (l.state = .queued) == p.arbiter.wait.any fun e => decide (e.line = keyLineNo k))
    && (decide (l.state = .kick ∨ l.state = .hold) == l.plan.isSome)
    && (l.pending.isNone || decide (l.state = .kick ∨ l.state = .release))
    && l.plan.all (fun x => decide (x.line = k)) && l.pending.all (fun x => decide (x.line = k ∧ 1 ≤ x.priority))
    && !(decide (l.state = .queued) && l.resting)

theorem keySound_of_checks {p : Part} {k : KeyNo} (h : keyChecks p k = true) : KeySound p k := by
  simp only [keyChecks, Bool.and_eq_true, beq_iff_eq, Bool.or_eq_true, Bool.not_eq_true', Bool.and_eq_false_iff,
    Option.all_eq_true, decide_eq_true_eq, decide_eq_false_iff_not] at h
  obtain ⟨⟨⟨⟨⟨⟨h1, h2⟩, h3⟩, h4⟩, h5⟩, h6⟩, h7⟩ := h
  refine ⟨?_, ?_, ?_, ?_, h5, h6, ?_⟩
  · rw [Bool.eq_iff_iff] at h1
    simpa [Option.isSome_iff_ne_none] using h1
  · rw [Bool.eq_iff_iff] at h2
    simpa [Part.hasEntry] using h2
  · rw [Bool.eq_iff_iff] at h3
    simpa [Option.isSome_iff_ne_none] using h3
  · intro hn
    rcases h4 with h4 | h4
    · exact absurd (Option.isNone_iff_eq_none.mp h4) hn
    · exact h4
  · intro hq
    rcases h7 with h7 | h7
    · exact absurd hq h7
    · exact h7

/-- The agreement of a pedal with the arbiter, as a check. -/
def pedalChecks (p : Part) (d : Pedal) : Bool :=
  let r := p.pedal d
  (decide (r.state = .lifting) == (p.arbiter.grants[pedalLineNo d]).isSome)
    && (decide (r.state = .waiting) == p.arbiter.wait.any fun e => decide (e.line = pedalLineNo d))
    && (decide (r.state = .waiting) == r.origin.isSome)

theorem pedalSound_of_checks {p : Part} {d : Pedal} (h : pedalChecks p d = true) : PedalSound p d := by
  simp only [pedalChecks, Bool.and_eq_true, beq_iff_eq] at h
  obtain ⟨⟨h1, h2⟩, h3⟩ := h
  rw [Bool.eq_iff_iff] at h1 h2 h3
  exact ⟨by simpa [Option.isSome_iff_ne_none] using h1, by simpa [Part.hasEntry] using h2,
    by simpa [Option.isSome_iff_ne_none] using h3⟩

/-- An entry asks for its own line, as a check. -/
def entryChecks (e : WaitEntry) : Bool :=
  match e.request with
  | .strike plan => decide (e.line = keyLineNo plan.line ∧ 1 ≤ e.priority)
  | .lift _ => decide (88 ≤ e.line.val ∧ e.priority = 0)

theorem entrySound_of_checks {e : WaitEntry} (h : entryChecks e = true) : e.sound := by
  cases hr : e.request <;> simp_all [entryChecks, WaitEntry.sound]

/-- The budget is kept, as a check. -/
def budgetChecks (p : Part) : Bool :=
  decide (p.arbiter.unitsInUse ≤ p.settings.budgetUnits) && decide (p.arbiter.wait.length ≤ 32)
    && decide (p.arbiter.wait.map WaitEntry.line).Nodup
    && decide (p.arbiter.wait.Pairwise fun a b => a.priority ≤ b.priority) && p.arbiter.wait.all entryChecks
    && (p.arbiter.wait.head?.all fun e => decide (p.settings.budgetUnits < e.cost + p.arbiter.unitsInUse))
    && allKeys.all (keyChecks p) && pedalChecks p .damper && pedalChecks p .bassRail && pedalChecks p .trebleRail

theorem budgetSound_of_checks {p : Part} (h : budgetChecks p = true) : BudgetSound p := by
  simp only [budgetChecks, Bool.and_eq_true, decide_eq_true_eq, Option.all_eq_true, List.all_eq_true] at h
  obtain ⟨⟨⟨⟨⟨⟨⟨⟨⟨h1, h2⟩, h3⟩, h4⟩, h5⟩, h6⟩, h7⟩, h8⟩, h9⟩, h10⟩ := h
  refine ⟨h1, ⟨h2, h3, h4, fun e he => entrySound_of_checks (h5 e he), h6⟩, fun k => ?_, fun d => ?_⟩
  · exact keySound_of_checks (h7 k (List.mem_finRange k))
  · cases d
    · exact pedalSound_of_checks h8
    · exact pedalSound_of_checks h9
    · exact pedalSound_of_checks h10

theorem budgetChecks_reset : budgetChecks Part.reset = true := by decide +kernel
theorem budgetChecks_kicking : budgetChecks (kicking .direct) = true := by decide +kernel
theorem budgetChecks_queued : budgetChecks queued = true := by decide +kernel
theorem budgetChecks_waiting : ∀ o, budgetChecks (waiting .damper o) = true := by
  intro o
  cases o <;> decide +kernel

/-! ### Values of spec/'s tables and worked examples -/

/-- A frame's bytes on RXD, with their stop bits. -/
def receive (bytes : List Byte) (p : Part) : Part :=
  bytes.foldl (fun q b => after (.receiveByte b true) { pending := [], part := q }) p

/-- What a request makes of a part. -/
def ask (p : Part) (f : Frame) : Part :=
  after (rowOf f) (asking p f)

/-- What a command that carries no request makes of a part. -/
def act (c : Instr) (p : Part) : Part :=
  after c { pending := [], part := p }

/-- LOAD ROLL with these fields (section 2.4). -/
def load (start final pitch tempo buildUp : Nat) : Frame :=
  request 0x10 (littleEndian 4 start ++ littleEndian 4 final ++ littleEndian 2 pitch ++ littleEndian 2 tempo
    ++ littleEndian 2 buildUp)

/-- FEED ROWS with this first row, count and records (section 10.6). -/
def feed (first count : Nat) (records : List Byte) : Frame :=
  request 0x11 (littleEndian 4 first ++ littleEndian 2 count ++ records)

/-- The records of section 1.5: tracks 12, 96 and 97, a run of 3, and an empty mask. -/
def firstRecords : List Byte :=
  [0x02, 0x10, 0x10, 0x03, 0x03, 0x80, 0x00, 0x00]

/-- Section 10.7: RUN with tag 0x21 begins with sync, kind, tag and a length of 0, and is 7 bytes long; received, it
waits. -/
theorem test_run_frame_received :
    let f : Frame := { kind := 0x12, tag := 0x21, payload := [] }
    f.bytes.length = 7 ∧ f.bytes.take 5 = [0x7E, 0x12, 0x21, 0, 0] ∧ (receive f.bytes Part.reset).link.waiting = [f] := by
  decide +kernel

/-- Section 10.7: the spoiled SET TEMPO makes two discards and leaves the receiver in HUNT. -/
theorem test_false_sync_discarded_twice :
    let p := receive [0x7E, 0x15, 0x22, 5, 0, 0x05, 0x7E, 0, 0, 0, 0x9C, 0x41] Part.reset
    p.link.discarded = 2 ∧ p.link.hunt = .hunt ∧ p.link.waiting = [] ∧ p.notices.flag .frameErrors = true := by
  decide +kernel

/-- R163: a candidate whose gap timer expires is discarded. -/
theorem test_gap_timer_discards :
    (act .gapTimerExpiry (receive [0x7E, 0x12] Part.reset)).link.discarded = 1 := by decide +kernel

/-- R36: with LinkSilence on, a silent host pauses a running roll. -/
theorem test_silence_pauses :
    (act .hostSilenceExpiry { inState .running with
      settings := { defaultSettings with linkSilence := 50 } }).feed.transport = .paused := by decide +kernel

/-- Sections 11.6 and 10.6: the first notice frame after a failed image shows STARTED and SETTINGS_DEFAULTED. -/
theorem test_first_notice_frame :
    (act .sendFrame (act .noticeFramePlace Part.reset)).link.sending.map (fun s => s.bytes.take 8)
      = some [0x7E, 0xC0, 0, 26, 0, 0x03, 0, 0] := by decide +kernel

/-- R166: with 32 bytes free the frame is not placed. -/
theorem test_notice_waits_for_room :
    (act .noticeFramePlace { Part.reset with
      link := { Part.reset.link with queue := [.reply (List.replicate 4064 0)] } }).link.noticeAsked = true := by
  decide +kernel

/-- R165: an unknown kind is answered with UNKNOWN_KIND. -/
theorem test_unknown_kind : replyOf (ask Part.reset (request 0x05 [])) = [7] := by decide +kernel

/-- Section 10.6: the IDENTIFY reply. -/
theorem test_identity :
    replyOf (ask Part.reset (request 0x01 [])) = [0, 0x88, 0x4B, 1, 112, 91, 0, 8, 32, 64, 4] := by decide +kernel

/-- R171: with 32 entries waiting the READ STATUS payload is 590 bytes long. -/
theorem test_status_length :
    (replyOf (ask (Part.reset.setWait (List.replicate 32 keyEntry)) (request 0x02 []))).length = 590 := by
  decide +kernel

/-- R170: naming bit 0 clears STARTED and leaves SETTINGS_DEFAULTED. -/
theorem test_take_started :
    (ask Part.reset (request 0x03 (littleEndian 26 1))).notices.flags = 2 := by decide +kernel

/-- R126: an empty history has no records, and the next sequence number is 0. -/
theorem test_empty_history : replyOf (ask Part.reset (request 0x04 [0])) = [0, 0, 0, 0] := by decide +kernel

/-- Section 2.3, first line: at P 300, T 70 and S 1000, Q is 2753. -/
theorem test_load_increment :
    replyOf (ask Part.reset (load 1000 0 300 70 0)) = [0] ++ littleEndian 2 2753 := by decide +kernel

/-- Section 2.11: at d 542,000 the fastest setting is clamped to 65,535. -/
theorem test_build_up_clamped : increment (baseIncrement 600 200 2000) 2000 542000 = 65535 := by decide +kernel

/-- Section 1.5: a count of 6 for five rows is refused with LENGTH. -/
theorem test_feed_wrong_count :
    replyOf (ask (ask Part.reset (load 1000 0 300 70 0)) (feed 1000 6 firstRecords))
      = [9, 0, 0, 0, 0, 0, 0] ++ littleEndian 2 2048 ++ littleEndian 4 1000 := by decide +kernel

/-- Section 1.5: with a count of 5 the rows 1000 to 1004 are stored. -/
theorem test_feed_first_batch :
    let p := ask (ask Part.reset (load 1000 0 300 70 0)) (feed 1000 5 firstRecords)
    replyOf p = [0, 5, 0, 0, 0, 0, 0] ++ littleEndian 2 2043 ++ littleEndian 4 1005
      ∧ p.ring.rows.map StoredRow.number = [1000, 1001, 1002, 1003, 1004] ∧ p.ring.reference = 0 := by
  decide +kernel

/-- Section 2.10: RUN takes row 1000 at once. -/
theorem test_run_takes_first_row :
    let p := ask (ask (ask Part.reset (load 1000 0 300 70 0)) (feed 1000 5 firstRecords)) (request 0x12 [])
    (p.feed.transport, p.feed.row, p.feed.headRow, p.feed.rowsTaken) = (.running, 1000, 1001, 1) := by decide +kernel

/-- R28: PAUSE keeps the fraction. -/
theorem test_pause_keeps_fraction :
    let p := ask { inState .running with feed := { (inState .running).feed with fraction := 536 } } (request 0x13 [])
    (p.feed.transport, p.feed.fraction) = (.paused, 536) := by decide +kernel

/-- R29: STOP leaves UNLOADED. -/
theorem test_stop : (ask (inState .paused) (request 0x14 [])).feed.transport = .unloaded := by decide +kernel

/-- R30: a trim of 2000 is clamped to TrimHigh, 1100, with CLAMPED; the tempo becomes 80. -/
theorem test_set_tempo_clamps :
    (replyOf (ask (ask Part.reset (load 0 0 300 70 0)) (request 0x15 ([3] ++ littleEndian 2 80 ++ littleEndian 2 2000)))).take
      5 = [1] ++ littleEndian 2 80 ++ littleEndian 2 1100 := by decide +kernel

/-- R30, section 11.3: 5001 is out of StarveHold's range. -/
theorem test_write_setting_range : replyOf (ask Part.reset (write .starveHold 5001)) = [4] := by decide +kernel

/-- R17: a write of RingLow at the occupancy leaves ABOVE. -/
theorem test_ring_low_at_occupancy :
    (ask { Part.reset with
      ring := { Part.reset.ring with rows := numberRows 0 (List.replicate 16 0) } } (write .ringLow 16)).ring.above
      = true := by decide +kernel

/-- R40: KEY with key 88 is out of range, and key 87 meets the default entry of track 95. -/
theorem test_track_map_checks :
    replyOf (ask Part.reset (request 0x20 [0x10, 103, 1, 88, 0, 103])) = [4]
      ∧ replyOf (ask Part.reset (request 0x20 [0x10, 103, 1, 87, 0, 103])) = [5] := by decide +kernel

/-- R40: a function code of 11 is out of range. -/
theorem test_track_map_function_range :
    replyOf (ask Part.reset (request 0x20 [0x10, 103, 11, 0, 0, 103])) = [4] := by decide +kernel

/-- R50: a write of OnRows closes a track in OPENING. -/
theorem test_on_rows_closes :
    (ask { Part.reset with tracks := { Part.reset.tracks with
      states := Part.reset.tracks.states.set 12 (.opening 1 5) } } (write .onRows 8)).tracks.states[12] = .closed := by
  decide +kernel

/-- R50: a write of OffRows opens a track in CLOSING. -/
theorem test_off_rows_opens :
    (ask { Part.reset with tracks := { Part.reset.tracks with
      states := Part.reset.tracks.states.set 12 (.closing 1) } } (write .offRows 8)).tracks.states[12] = .opened := by
  decide +kernel

/-- R59: a pattern outside the mask is refused with CONFLICT. -/
theorem test_cue_slot_conflict :
    replyOf (ask Part.reset (request 0x20 ([0x18, 0, 1] ++ List.replicate 27 0 ++ [1, 0, 0, 0, 0]))) = [5] := by
  decide +kernel

/-- R63: ARM CUES sets cue-valid. -/
theorem test_arm_cues : (ask Part.reset (request 0x22 [])).cues.valid = true := by decide +kernel

/-- R158: mode UP has the rail lifted, at a cost of 4. -/
theorem test_rail_mode_up :
    let p := ask Part.reset (writeAt .railMode 1 2)
    p.pedals.trebleRail.state = .lifting ∧ p.arbiter.unitsInUse = 4 := by decide +kernel

/-- R135: a guard at or beyond the new value ends. -/
theorem test_repeat_guard_ends :
    ((ask { releasing none false with now := 100 } (write .repeatGuard 5)).key 10).state = .idle := by decide +kernel

/-- R128: 25 is no PWM base. -/
theorem test_pwm_base_range : replyOf (ask Part.reset (write .pwmBase 25)) = [4] := by decide +kernel

/-- R143: HeatSoft must stay 1000 below HeatHard, 20,000. -/
theorem test_heat_soft_conflict :
    replyOf (ask Part.reset (write .heatSoft 19001)) = [5] ∧ replyOf (ask Part.reset (write .heatSoft 19000)) = [0] := by
  decide +kernel

/-- R143: HeatHard must stay 1000 above HeatSoft, 12,000. -/
theorem test_heat_hard_conflict :
    replyOf (ask Part.reset (write .heatHard 12999)) = [5] ∧ replyOf (ask Part.reset (write .heatHard 13000)) = [0] := by
  decide +kernel

/-- R161: DamperHoldFull must not fall below DamperHoldPart, 8. -/
theorem test_hold_full_conflict : replyOf (ask Part.reset (write .damperHoldFull 7)) = [5] := by decide +kernel

/-- R161: DamperHoldPart must not rise above DamperHoldFull, 14. -/
theorem test_hold_part_conflict : replyOf (ask Part.reset (write .damperHoldPart 15)) = [5] := by decide +kernel

/-- R161: a RAISED rail takes the new hold duty. -/
theorem test_rail_hold_drives :
    (ask (withPedal .bassRail (fun r => { r with state := .raised, drive := { r.drive with duty := some 10 } }) Part.reset)
      (write .railHold 12)).pedals.bassRail.drive.duty = some 12 := by decide +kernel

/-- R161: 65 rows are out of PedalLead's range. -/
theorem test_pedal_lead_range : replyOf (ask Part.reset (write .pedalLead 65)) = [4] := by decide +kernel

/-- R169: a notice mask of 13 bits is taken, a higher one refused. -/
theorem test_notice_mask_range :
    replyOf (ask Part.reset (write .noticeMask 8191)) = [0] ∧ replyOf (ask Part.reset (write .noticeMask 8192)) = [4] := by
  decide +kernel

/-- R169: line 90 has a fault mask. -/
theorem test_line_fault_mask :
    (ask Part.reset (writeAt .lineFaultMask 90 0)).notices.faultMask.getLsbD 90 = false := by decide +kernel

/-- R169: line 88 has no resting mask. -/
theorem test_line_resting_mask_range : replyOf (ask Part.reset (writeAt .lineRestingMask 88 0)) = [4] := by
  decide +kernel

/-- R172: READ SETTING answers OK, the code, the index and the value: TrimHigh is 1100. -/
theorem test_read_setting :
    replyOf (ask Part.reset (request 0x21 [0x09, 0])) = [0, 0x09, 0] ++ littleEndian 2 1100 := by decide +kernel

/-- R173: the reply to a save waits for its end. -/
theorem test_save_replies_at_end :
    let p := ask Part.reset (request 0x23 [])
    p.link.queue = [] ∧ replyOf (act (.saveSettingsDone false) p) = [11] := by decide +kernel

/-- R174: the settings are not recalled in play. -/
theorem test_recall_in_play : replyOf (ask (inState .running) (request 0x24 [])) = [3] := by decide +kernel

/-- Section 6.8: a direct strike with a long hold on key 30. -/
theorem test_direct_strike :
    replyOf (ask (withKey 30 (fun l => { l with heat := 3000 }) (inState .paused))
        (request 0x30 ([30] ++ littleEndian 2 0 ++ littleEndian 2 50000)))
      = [1] ++ littleEndian 2 30000 ++ [0] ++ littleEndian 2 0 ++ littleEndian 2 40 ++ [0] := by decide +kernel

/-- Section 6.6: the accented plan of key 60 on a warm coil has K 139, and cost 4. -/
theorem test_warm_accented_plan :
    let p := withKey 60 (fun l => { l with heat := 15000 }) { Part.reset with
      settings := { defaultSettings with
        voicing := defaultSettings.voicing.set 60
          { floor := 40, span := 240, bend := 2, trim := 8, kickDuty := 28, holdDuty := 8 } } }
    let plan := planOf
      { key := 60, half := .treble, origin := .roll, onsetRow := some 5, shade := 512, accent := true, holdTime := none } p
    (plan.shade, plan.kick, plan.cost, plan.priority, plan.flags.derated, plan.flags.clamped)
      = (672, 139, 4, 1, true, false) := by decide +kernel

/-- Section 6.9: PLAY PATTERN takes step 0 at once, with K 77 and a hold of 50 ms. -/
theorem test_pattern_first_step :
    let p := ask (withKey 39 (fun l => { l with heat := 0 }) (inState .paused))
      (request 0x31 ([39] ++ littleEndian 2 100 ++ [2, 4] ++ [200, 400, 65535, 800].flatMap (littleEndian 2)))
    replyOf p = [0, 0] ∧ ((p.key 39).plan.map fun x => (x.kick, x.holdTime)) = some (77, some 50)
      ∧ (p.player.map fun a => (a.current, a.repeats, a.stepsTaken)) = some (some 1, 0, 1) := by decide +kernel

/-- R107: with the player IDLE a cancel replies a count of 0. -/
theorem test_cancel_idle_player : replyOf (ask Part.reset (request 0x32 [])) = [0, 0, 0, 0] := by decide +kernel

/-- R147: a line that is not faulted is not restored. -/
theorem test_restore_sound_line : replyOf (ask Part.reset (request 0x33 [45])) = [3] := by decide +kernel

/-- R176: a soft reset unloads the roll and replies OK. -/
theorem test_soft_reset :
    let p := ask (inState .running) (request 0x3F [])
    p.feed.transport = .unloaded ∧ replyOf p = [0] := by decide +kernel

/-- R175: with nRESET low a driven coil is off. -/
theorem test_reset_asserted_drives_low :
    (kicking .direct).drv 10 0 = true ∧ (act .resetAsserted (kicking .direct)).drv 10 0 = false := by decide +kernel

/-- R162: both straps high give 921,600 baud. -/
theorem test_straps_high : (act (.pinReset true true) Part.reset).link.baud = 921600 := by decide +kernel

/-- R175: after a supply that failed a pin reset has the part running again. -/
theorem test_power_fail_and_back :
    (act .powerFail Part.reset).power = .off ∧ (act (.pinReset false false) (act .powerFail Part.reset)).power = .on := by
  decide +kernel

/-- Section 2.10: the carry to a row that the ring does not hold starves, with the fraction 0. -/
theorem test_feed_tick_starves :
    let p := act .feedTick { inState .running with
      feed := { (inState .running).feed with row := 1029, fraction := 63319, q := 2753 } }
    (p.feed.transport, p.feed.row, p.feed.fraction, p.feed.taken) = (.starved, 1030, 0, false) := by decide +kernel

/-- Section 2.10: the 24th tick has a sum of 66,072, which carries to row 1001 and leaves 536. -/
theorem test_feed_tick_carries :
    let p := act .feedTick { inState .running with
      feed := { (inState .running).feed with row := 1000, fraction := 63319, q := 2753 }
      ring := { Part.reset.ring with rows := [{ number := 1001, holes := 0 }], nextExpected := 1002 } }
    (p.feed.row, p.feed.fraction, p.feed.headRow) = (1001, 536, 1002) := by decide +kernel

/-- R33: the starve-release counter rises. -/
theorem test_starve_hold_expires :
    (act .starveHoldExpiry { inState .starved with
      feed := { (inState .starved).feed with starve := some { started := 0, hold := 250 } } }).feed.starveReleases
      = 1 := by decide +kernel

/-- Section 5.5: a step change from 304 toward 720 moves by 40, and from 704 lands on 720. -/
theorem test_expression_tick_steps :
    let half := fun shade => { HalfExpression.atReset defaultSettings with
      shade := shade, levels := { closedLevels with step2 := true, step4 := true } }
    let p := act .expressionTick { inState .running with
      expression := { Part.reset.expression with halves := { bass := half 304, treble := half 704 } } }
    (p.expression.halves.bass.shade, p.expression.halves.treble.shade) = (344, 720) := by decide +kernel

/-- Section 8.12: a heat tick takes H from 3000 to 2953. -/
theorem test_heat_tick_cools :
    ((act .heatTick (withKey 60 (fun l => { l with heat := 3000 }) Part.reset)).key 60).heat = 2953 := by decide +kernel

/-- Section 8.14: a chain read of OVERCURRENT for line 45 makes it FAULTED. -/
theorem test_chain_read_faults :
    let p := act (.statusChainRead (2#182 <<< 90)) Part.reset
    (p.key 45).state = .faulted ∧ (p.key 45).fault = .overcurrent ∧ p.notices.faultSet.getLsbD 45 = true := by
  decide +kernel

/-- Section 8.12: the short kick of K 145 at duty 28 ends with H 4983, in RELEASE. -/
theorem test_short_kick_ends :
    let p := act (.kickEnd 10) (withKey 10 (fun l => { l with
      heat := 2953, short := true, plan := some { aPlan 10 .roll with kick := 145 } }) (kicking .roll))
    (p.key 10).state = .release ∧ (p.key 10).heat = 4983 ∧ p.arbiter.unitsInUse = 0 := by decide +kernel

/-- R141: a millisecond of a hold at duty 8 gains 2. -/
theorem test_hold_gains : ((act (.holdHeatGain 10) (holding .direct)).key 10).heat = 12002 := by decide +kernel

/-- R134: a ROLL hold that is cut is counted, a direct one is not. -/
theorem test_hold_deadline_counts_roll :
    (act (.holdDeadline 10) (holding .roll)).drives.holdCuts = 1
      ∧ (act (.holdDeadline 10) (holding .direct)).drives.holdCuts = 0 := by decide +kernel

/-- R136: a pending plan strikes at the end of the guard. -/
theorem test_guard_end_strikes :
    ((act (.guardEnd 10) (releasing (some (aPlan 10 .direct)) false)).key 10).state = .kick := by decide +kernel

/-- R119: a key entry whose deadline passes ends LATE, with the WaitLimit as its waited time. -/
theorem test_wait_deadline_late :
    let p := act (.waitDeadline 11) queued
    (p.key 11).state = .idle ∧ p.arbiter.history.map (fun r => (r.outcome, r.waited)) = [(.late, 25)] := by
  decide +kernel

/-- R151: a pedal kick that ends with its drop mark set enters DROPPING. -/
theorem test_pedal_kick_ends :
    (act (.pedalKickEnd .damper) (lifting .damper true)).pedals.damper.state = .dropping
      ∧ (act (.pedalKickEnd .damper) (lifting .damper false)).pedals.damper.drive.duty = some 14 := by decide +kernel

/-- R152: a settle that ends leaves the pedal LOWERED. -/
theorem test_settle_ends :
    (act (.settleEnd .bassRail) (withPedal .bassRail (fun r => { r with state := .dropping }) Part.reset)).pedals.bassRail.state
      = .lowered := by decide +kernel

/-- A pattern of two steps, a shade and a REST. -/
def aPattern (current : Option Nat) (repeatCount : Nat) : Pattern :=
  { key := 39, stepTime := 100, steps := [some 200, none], repeatCount := repeatCount, current := current, repeats := 0,
    stepsTaken := 0, timerStarted := 0 }

/-- Section 6.9: a REST makes no plan, and the round ends. -/
theorem test_pattern_rest :
    ((act .patternStep { Part.reset with player := some (aPattern (some 1) 2) }).player.map fun a =>
      (a.current, a.repeats, a.stepsTaken)) = some (some 0, 1, 1) := by decide +kernel

/-- Section 6.9: the player is IDLE when the last step's time has passed. -/
theorem test_pattern_end :
    (act .patternEnd { Part.reset with player := some (aPattern none 1) }).player = none := by decide +kernel

/-! ### Witnesses: for every obligation with hypotheses, states and operands that meet them, clause by clause -/

theorem witness_StepTakesFrontCommand :
    (∃ c p, dueEvent p = some c) ∧ ∃ p, dueEvent p = none :=
  ⟨⟨.noticeFramePlace, Part.reset, by decide +kernel⟩,
    ⟨{ Part.reset with link := { Part.reset.link with noticeAsked := false } }, by decide +kernel⟩⟩

theorem spoilt_fails (t : Settings) : (StoreImage.spoilt t).passes = false := by
  simp only [StoreImage.spoilt, StoreImage.passes, beq_eq_false_iff_ne]
  intro h
  simpa using congrArg BitVec.msb h

theorem whole_passes (t : Settings) : (StoreImage.of t).passes = true := by
  simp [StoreImage.of, StoreImage.passes]

/-- The part at reset with a whole image in the store. -/
def stored : Part :=
  { Part.reset with store := StoreImage.of defaultSettings }

/-- The part at reset with a save under way. -/
def saving : Part :=
  { Part.reset with saving := some defaultSettings }

theorem witness_PinResetValues :
    (∃ s : State, s.part.saving = none ∧ s.part.store.passes = true)
      ∧ (∃ s : State, s.part.saving = none ∧ s.part.store.passes = false)
      ∧ ∃ (s : State) (u : Settings), s.part.saving = some u :=
  ⟨⟨asking stored (request 0 []), rfl, whole_passes _⟩, ⟨State.reset, rfl, spoilt_fails _⟩,
    ⟨asking saving (request 0 []), _, rfl⟩⟩

theorem witness_PowerAndResetEndActivity :
    (∃ (s : State) (c : Instr), c = Instr.powerFail ∧ s.part.saving = none)
      ∧ ∃ (s : State) (c : Instr) (u : Settings), c = Instr.resetAsserted ∧ s.part.power = .on ∧ s.part.saving = some u :=
  ⟨⟨State.reset, _, rfl, rfl⟩, ⟨asking saving (request 0 []), _, _, rfl, rfl, rfl⟩⟩

theorem witness_CommandsNeedTheirMoment :
    (∃ c : Instr, ¬ c.WellFormed)
      ∧ (∃ (s : State) (c : Instr), c.WellFormed ∧ s.part.power ≠ .on ∧ c ≠ .powerFail ∧ ∀ r1 r0, c ≠ .pinReset r1 r0)
      ∧ ∃ (s : State) (c : Instr), takesRequest c = true ∧ ∀ f, s.part.MayTake f → rowOf f ≠ c := by
  refine ⟨⟨.waitDeadline 91, by decide⟩,
    ⟨{ pending := [], part := { Part.reset with power := .held } }, .kickEnd 87, by decide, by decide, by decide,
      by decide⟩,
    ⟨asking Part.reset (request 0x13 []), .run, by decide, ?_⟩⟩
  rintro f ⟨-, -, -, h⟩
  cases h
  decide +kernel

/-- The part at reset with a candidate, and with waiting frames of these payload lengths. -/
def linked (candidate : List Byte) (lengths : List Nat) : State :=
  { pending := []
    part := { Part.reset with
      link := { Part.reset.link with
        candidate := candidate, waiting := lengths.map fun n => request 0x11 (List.replicate n 0) } } }

theorem witness_ByteReceived :
    (∃ s : State, s.part.power = .on ∧ s.part.link.buffered = 4096)
      ∧ (∃ (s : State) (b : Byte),
          s.part.power = .on ∧ s.part.link.buffered = 4095 ∧ s.part.link.candidate = [] ∧ b ≠ 0x7E)
      ∧ (∃ (s : State) (b : Byte), s.part.power = .on ∧ s.part.link.buffered < 4096 ∧ s.part.link.candidate = [] ∧ b = 0x7E)
      ∧ (∃ (s : State) (b : Byte) (bs : List Byte),
          s.part.power = .on ∧ s.part.link.buffered < 4096 ∧ s.part.link.candidate = 0x7E :: bs ∧ NeedsMore (bs ++ [b]))
      ∧ ∃ (s : State) (b : Byte) (bs : List Byte), s.part.power = .on ∧ s.part.link.buffered < 4096
          ∧ s.part.link.candidate = 0x7E :: bs ∧ bs.length = 1028 ∧ NeedsMore (bs ++ [b]) := by
  refine ⟨⟨linked [] [1017, 1017, 1017, 1017], rfl, by decide +kernel⟩,
    ⟨linked [] [1017, 1017, 1017, 1016], 0, rfl, by decide +kernel, rfl, by decide⟩,
    ⟨linked [] [], 0x7E, rfl, by decide +kernel, rfl, rfl⟩,
    ⟨linked [0x7E] [], 0x7E, [], rfl, by decide +kernel, rfl, by unfold NeedsMore; decide +kernel⟩,
    ⟨linked (0x7E :: 0x11 :: 0 :: 0 :: 4 :: List.replicate 1024 0) [], 0, _, rfl, by decide +kernel, rfl,
      by decide +kernel, by unfold NeedsMore; decide +kernel⟩⟩

theorem witness_FrameReceivedWhole :
    ∃ (s : State) (f : Frame), s.part.power = .on ∧ s.part.link.candidate = [] ∧ f.payload.length = 1024
      ∧ s.part.link.buffered + (f.payload.length + 7) = 4096 :=
  ⟨linked [] [1024, 1024, 996], request 0x11 (List.replicate 1024 0x7E), rfl, rfl, by decide +kernel, by decide +kernel⟩

theorem witness_CandidateDiscarded :
    (∃ s : State, s.part.power = .on ∧ s.part.link.candidate = [])
      ∧ (∃ (s : State) (bs : List Byte), s.part.power = .on ∧ s.part.link.candidate = 0x7E :: bs ∧ (0x7E : Byte) ∉ bs)
      ∧ (∃ (s : State) (bs : List Byte) (b : Byte), s.part.power = .on ∧ s.part.link.buffered < 4096
          ∧ s.part.link.candidate = 0x7E :: bs ∧ (0x7E : Byte) ∉ bs ++ [b] ∧ fieldAt (bs ++ [b]) 2 2 = 1025
          ∧ Condemned (bs ++ [b]))
      ∧ ∃ (s : State) (bs : List Byte) (b : Byte), s.part.power = .on ∧ s.part.link.buffered < 4096
          ∧ s.part.link.candidate = 0x7E :: bs ∧ (0x7E : Byte) ∉ bs ++ [b] ∧ fieldAt (bs ++ [b]) 2 2 = 0
          ∧ Condemned (bs ++ [b]) := by
  refine ⟨⟨linked [] [], rfl, rfl⟩, ⟨linked [0x7E, 0x12] [], _, rfl, rfl, by decide⟩,
    ⟨linked [0x7E, 0x11, 0, 1] [], _, 4, rfl, by decide +kernel, rfl, by decide, by decide +kernel,
      by unfold Condemned; decide +kernel⟩,
    ⟨linked [0x7E, 0x12, 0x21, 0, 0, 0] [], _, 0, rfl, by decide +kernel, rfl, by decide, by decide +kernel,
      by unfold Condemned; decide +kernel⟩⟩

theorem witness_CandidateDiscarded_hunts :
    (∃ (s : State) (bs left : List Byte) (frames : List Frame) (lost : Nat), s.part.power = .on
        ∧ s.part.link.candidate = 0x7E :: bs ∧ left = [0x7E] ∧ Hunted bs frames left lost)
      ∧ (∃ (s : State) (b : Byte) (frames : List Frame) (left : List Byte), s.part.power = .on
        ∧ s.part.link.buffered < 4096 ∧ left = [0x7E, 1, 4] ∧ Hunted (s.part.link.candidate ++ [b]) frames left 1)
      ∧ ∃ (s : State) (b : Byte) (f : Frame) (left : List Byte), s.part.power = .on ∧ s.part.link.buffered < 4096
        ∧ Hunted (s.part.link.candidate ++ [b]) [f] left 0 := by
  refine ⟨⟨linked [0x7E, 0x12, 0x7E] [], _, _, _, _, rfl, rfl, rfl, .dropped (by decide) (.growing (.inl (by decide)))⟩,
    ⟨linked [0x7E, 0x11, 0x7E, 1] [], 4, [], _, rfl, by decide +kernel, rfl,
      .condemned (bs := [0x11, 0x7E, 1, 4]) (rest := []) (by unfold Condemned; decide +kernel)
        (.dropped (by decide) (.growing (.inl (by decide))))⟩,
    ⟨linked (request 0x12 []).bytes.dropLast [], (request 0x12 []).bytes.getLastD 0, request 0x12 [], [], rfl,
      by decide +kernel, ?_⟩⟩
  have h : (linked (request 0x12 []).bytes.dropLast []).part.link.candidate ++ [(request 0x12 []).bytes.getLastD 0]
      = (request 0x12 []).bytes ++ [] := by decide +kernel
  rw [h]
  exact .whole (by decide) .nothing

theorem witness_HostSilencePauses :
    (∃ s : State, s.part.power = .on ∧ s.part.settings.linkSilence = 0)
      ∧ (∃ s : State, s.part.power = .on ∧ s.part.link.silenceRunning = false)
      ∧ (∃ s : State, s.part.power = .on ∧ s.part.settings.linkSilence ≠ 0 ∧ s.part.link.silenceRunning = true
          ∧ s.part.inPlay = false)
      ∧ ∃ s : State, s.part.power = .on ∧ s.part.settings.linkSilence = 50 ∧ s.part.link.silenceRunning = true
          ∧ s.part.inPlay = true ∧ BudgetSound s.part :=
  let heard (p : Part) : State := { pending := [], part := { p with settings := { p.settings with linkSilence := 50 } } }
  ⟨⟨State.reset, rfl, rfl⟩,
    ⟨{ pending := [], part := { Part.reset with link := { Part.reset.link with silenceRunning := false } } }, rfl, rfl⟩,
    ⟨heard Part.reset, rfl, by decide, rfl, rfl⟩,
    ⟨heard (inState .starved), rfl, rfl, rfl, rfl, budgetSound_of_checks budgetChecks_reset⟩⟩

/-- The part at reset with this transmit queue, and perhaps a frame on TXD. -/
def queueing (queue : List TransmitItem) (busy asked : Bool) : State :=
  { pending := []
    part := { Part.reset with
      link := { Part.reset.link with
        queue := queue
        sending := if busy then some { bytes := List.replicate 8 0, began := 0 } else none
        noticeAsked := asked } } }

theorem witness_TransmitQueueSends :
    (∃ s : State, s.part.power = .on ∧ s.part.link.queue = [])
      ∧ (∃ s : State, s.part.power = .on ∧ s.part.link.queue ≠ [] ∧ s.part.link.unsent s.part.now ≠ 0)
      ∧ (∃ (s : State) (bytes : List Byte) (rest : List TransmitItem), s.part.power = .on
          ∧ s.part.link.queue = .reply bytes :: rest ∧ s.part.link.unsent s.part.now = 0)
      ∧ (∃ (s : State) (rest : List TransmitItem), s.part.power = .on
          ∧ s.part.link.queue = .notice :: rest ∧ s.part.link.unsent s.part.now = 0)
      ∧ (∃ s : State, s.part.power = .on ∧ s.part.link.noticeAsked = true ∧ s.part.link.room s.part.now = 33)
      ∧ (∃ s : State, s.part.power = .on ∧ s.part.link.noticeAsked = false)
      ∧ ∃ s : State, s.part.power = .on ∧ s.part.link.noticeAsked = true ∧ s.part.link.room s.part.now = 32 :=
  ⟨⟨State.reset, rfl, rfl⟩, ⟨queueing [.notice] true false, rfl, by decide, by decide +kernel⟩,
    ⟨queueing [.reply [0]] false false, _, _, rfl, rfl, by decide +kernel⟩,
    ⟨queueing [.notice] false false, _, rfl, rfl, by decide +kernel⟩,
    ⟨queueing [.reply (List.replicate 4063 0)] false true, rfl, rfl, by decide +kernel⟩,
    ⟨queueing [] false false, rfl, rfl⟩,
    ⟨queueing [.reply (List.replicate 4064 0)] false true, rfl, rfl, by decide +kernel⟩⟩

theorem witness_RaiseSetsFlag :
    ∃ src : NoticeSource, src ≠ .cueFired ∧ src ≠ .lineFault ∧ src ≠ .lineResting :=
  ⟨.frameErrors, by decide, by decide, by decide⟩

theorem witness_UnknownKindAnswered :
    (∃ (s : State) (f : Frame), s.part.MayTake f ∧ f.kind ∉ catalogue) ∧ ∃ (s : State) (f : Frame), s.part.MayTake f ∧ f.kind = 0x05 ∧ f.kind ∉ catalogue :=
  ⟨meets Part.reset (request 0x40 []) (by decide), meets Part.reset (request 0x05 []) (by decide)⟩

theorem witness_IdentityAndStatusRead :
    (∃ (s : State) (f : Frame), s.part.MayTake f ∧ f.kind = 0x01 ∧ f.payload = [])
      ∧ (∃ (s : State) (f : Frame), s.part.MayTake f ∧ f.kind = 0x01 ∧ f.payload ≠ [])
      ∧ (∃ (s : State) (f : Frame), s.part.MayTake f ∧ f.kind = 0x02 ∧ f.payload ≠ [])
      ∧ (∃ (s : State) (f : Frame), s.part.MayTake f ∧ f.kind = 0x02 ∧ f.payload = [] ∧ s.part.arbiter.wait = [])
      ∧ ∃ (s : State) (f : Frame), s.part.MayTake f ∧ f.kind = 0x02 ∧ f.payload = [] ∧ s.part.arbiter.wait.length = 32 :=
  ⟨meets Part.reset (request 0x01 []) (by decide), meets Part.reset (request 0x01 [0]) (by decide),
    meets Part.reset (request 0x02 [0]) (by decide), meets Part.reset (request 0x02 []) (by decide +kernel),
    meets (Part.reset.setWait (List.replicate 32 keyEntry)) (request 0x02 []) (by decide +kernel)⟩

theorem witness_NoticesTaken :
    (∃ (s : State) (f : Frame), s.part.MayTake f ∧ f.kind = 0x03 ∧ f.payload.length = 25)
      ∧ ∃ (s : State) (f : Frame), s.part.MayTake f ∧ f.kind = 0x03 ∧ f.payload.length = 26 :=
  ⟨meets Part.reset (request 0x03 (List.replicate 25 0)) (by decide),
    meets Part.reset (request 0x03 (List.replicate 26 255)) (by decide)⟩

/-- The part at reset with one record in its history. -/
def recorded : Part :=
  { Part.reset with arbiter := Part.reset.arbiter.fileEnd (aPlan 10 .direct) .late 25 }

theorem witness_HistoryRead :
    (∃ (s : State) (f : Frame), s.part.MayTake f ∧ f.kind = 0x04 ∧ f.payload.length = 0)
      ∧ (∃ (s : State) (f : Frame), s.part.MayTake f ∧ f.kind = 0x04 ∧ f.payload.length = 1 ∧ byteAt f.payload 0 = 2)
      ∧ (∃ (s : State) (f : Frame), s.part.MayTake f ∧ f.kind = 0x04 ∧ f.payload.length = 1 ∧ byteAt f.payload 0 = 0)
      ∧ ∃ (s : State) (f : Frame), s.part.MayTake f ∧ f.kind = 0x04 ∧ f.payload.length = 1 ∧ byteAt f.payload 0 = 1
          ∧ 0 < s.part.arbiter.history.length :=
  ⟨meets Part.reset (request 0x04 []) (by decide), meets Part.reset (request 0x04 [2]) (by decide),
    meets Part.reset (request 0x04 [0]) (by decide), meets recorded (request 0x04 [1]) (by decide +kernel)⟩

/-- A key's track in the default map (R42) is the one eight above its number, and every target has one track. -/
theorem defaultEntry_targets : ∀ t u : TrackNo, t ≠ u → (defaultEntry t).sameTarget (defaultEntry u) = false := by
  decide +kernel

theorem defaultEntry_legal : ∀ t : TrackNo, ((defaultEntry t).function ≠ .key → (defaultEntry t).key = 0)
    ∧ ((defaultEntry t).function.isExpression = false → (defaultEntry t).half = .bass) := by
  decide +kernel

theorem defaultMap_get (t : TrackNo) : defaultSettings.trackMap[t] = defaultEntry t := by
  simp [defaultSettings]

theorem defaults_legal : defaultSettings.legal := by
  refine ⟨⟨by decide, by decide, by decide, by decide, by decide, by decide, by decide, ⟨?_, ?_⟩, ?_⟩, ?_, ?_, ?_⟩
  · intro t u h
    simpa only [defaultMap_get] using defaultEntry_targets t u h
  · intro t
    rw [defaultMap_get]
    exact defaultEntry_legal t
  · intro i
    have h : defaultSettings.cueSlots[i] = defaultCueSlot := by simp [defaultSettings]
    rw [h]
    unfold CueSlot.legal
    decide +kernel
  · refine ⟨⟨by decide +kernel, by decide +kernel⟩, by decide, by decide, by decide, by decide, by decide, by decide,
      by decide, ?_⟩
    intro h
    cases h <;> decide +kernel
  · refine ⟨?_, by decide, by decide, by decide, by decide, by decide, by decide, by decide, by decide⟩
    intro k
    have h : defaultSettings.voicing[k] = defaultVoicing := by simp [defaultSettings]
    rw [h]
    unfold Voicing.legal
    decide +kernel
  · unfold Settings.lineLegal
    decide +kernel

theorem settingsSound_reset : SettingsSound Part.reset :=
  ⟨defaults_legal, defaults_legal, fun _ h => by cases h⟩

theorem witness_MapAndCueSlotRead :
    (∃ (s : State) (f : Frame), s.part.MayTake f ∧ f.kind = 0x21 ∧ f.payload.length = 2 ∧ byteAt f.payload 0 = 0x10
        ∧ byteAt f.payload 1 = (111 : TrackNo).val ∧ SettingsSound s.part)
      ∧ (∃ (s : State) (f : Frame), s.part.MayTake f ∧ f.kind = 0x21 ∧ f.payload.length = 2 ∧ byteAt f.payload 0 = 0x10
        ∧ byteAt f.payload 1 = 112)
      ∧ (∃ (s : State) (f : Frame), s.part.MayTake f ∧ f.kind = 0x21 ∧ f.payload.length = 2 ∧ byteAt f.payload 0 = 0x18
        ∧ byteAt f.payload 1 = (3 : Fin 4).val)
      ∧ ∃ (s : State) (f : Frame), s.part.MayTake f ∧ f.kind = 0x21 ∧ f.payload.length = 2 ∧ byteAt f.payload 0 = 0x18
        ∧ byteAt f.payload 1 = 4 :=
  ⟨meets Part.reset (request 0x21 [0x10, 111]) ⟨rfl, rfl, rfl, rfl, settingsSound_reset⟩,
    meets Part.reset (request 0x21 [0x10, 112]) (by decide), meets Part.reset (request 0x21 [0x18, 3]) (by decide),
    meets Part.reset (request 0x21 [0x18, 4]) (by decide)⟩

theorem witness_SettingRequestsChecked :
    (∃ (s : State) (f : Frame), s.part.MayTake f ∧ f.kind = 0x21 ∧ f.payload.length = 1)
      ∧ (∃ (s : State) (f : Frame), s.part.MayTake f ∧ f.kind = 0x21 ∧ 2 ≤ f.payload.length ∧ Item.ofCode (byteAt f.payload 0) = none)
      ∧ (∃ item, ∃ (s : State) (f : Frame), s.part.MayTake f ∧ f.kind = 0x21 ∧ f.payload.length = 3 ∧ byteAt f.payload 0 = Item.code item)
      ∧ (∃ item, ∃ (s : State) (f : Frame), s.part.MayTake f ∧ f.kind = 0x21 ∧ f.payload.length = 2 ∧ byteAt f.payload 0 = Item.code item)
      ∧ (∃ (s : State) (f : Frame), s.part.MayTake f ∧ f.kind = 0x20 ∧ f.payload.length = 1)
      ∧ (∃ (s : State) (f : Frame), s.part.MayTake f ∧ f.kind = 0x20 ∧ 2 ≤ f.payload.length ∧ Item.ofCode (byteAt f.payload 0) = none)
      ∧ ∃ item, ∃ (s : State) (f : Frame), s.part.MayTake f ∧ f.kind = 0x20 ∧ 2 ≤ f.payload.length ∧ byteAt f.payload 0 = Item.code item
          ∧ f.payload.length ≠ 2 + item.size :=
  ⟨meets Part.reset (request 0x21 [1]) (by decide), meets Part.reset (request 0x21 [2, 0]) (by decide),
    ⟨.ringLow, meets Part.reset (request 0x21 [1, 0, 0]) (by decide)⟩,
    ⟨.lineRestingMask, meets Part.reset (request 0x21 [0x62, 0]) (by decide)⟩,
    meets Part.reset (request 0x20 [1]) (by decide), meets Part.reset (request 0x20 [0x63, 0]) (by decide),
    ⟨.voicing, meets Part.reset (request 0x20 [0x30, 0, 0, 0]) (by decide)⟩⟩

theorem witness_PlainSettingWritten :
    (∃ (s : State) (f : Frame), s.part.MayTakeItem f 0x20 .trimLow ∧ Item.plainRange .trimLow = some (500, 1000) ∧ valueOf f = 499)
      ∧ (∃ (s : State) (f : Frame), s.part.MayTakeItem f 0x20 .starveHold ∧ Item.plainRange .starveHold = some (0, 5000) ∧ valueOf f = 5001)
      ∧ (∃ (s : State) (f : Frame), s.part.MayTakeItem f 0x20 .trimLow ∧ Item.plainRange .trimLow = some (500, 1000) ∧ valueOf f = 500)
      ∧ ∃ (s : State) (f : Frame), s.part.MayTakeItem f 0x20 .railSettle ∧ Item.plainRange .railSettle = some (5, 200) ∧ valueOf f = 200 :=
  ⟨meetsItem Part.reset (write .trimLow 499) (by decide +kernel),
    meetsItem Part.reset (write .starveHold 5001) (by decide +kernel),
    meetsItem Part.reset (write .trimLow 500) (by decide +kernel),
    meetsItem Part.reset (write .railSettle 200) (by decide +kernel)⟩

theorem witness_CheckedSettingWritten_scalars :
    (∃ (s : State) (f : Frame), s.part.MayTakeItem f 0x20 .splitKey ∧ s.part.inPlay = true)
      ∧ (∃ (s : State) (f : Frame), s.part.MayTakeItem f 0x20 .splitKey ∧ s.part.inPlay = false ∧ valueOf f = 19)
      ∧ (∃ (s : State) (f : Frame), s.part.MayTakeItem f 0x20 .splitKey ∧ s.part.inPlay = false ∧ valueOf f = 67)
      ∧ (∃ (s : State) (f : Frame), s.part.MayTakeItem f 0x20 .railOn ∧ valueOf f = 1023)
      ∧ (∃ (s : State) (f : Frame), s.part.MayTakeItem f 0x20 .railOn ∧ valueOf f ≤ 1022 ∧ s.part.settings.railOff = valueOf f)
      ∧ (∃ (s : State) (f : Frame), s.part.MayTakeItem f 0x20 .railOn ∧ valueOf f ≤ 1022 ∧ valueOf f + 1 = s.part.settings.railOff)
      ∧ (∃ (s : State) (f : Frame), s.part.MayTakeItem f 0x20 .railOff ∧ valueOf f = 0)
      ∧ (∃ (s : State) (f : Frame), s.part.MayTakeItem f 0x20 .railOff ∧ 1 ≤ valueOf f ∧ valueOf f ≤ 1023
          ∧ valueOf f = s.part.settings.railOn)
      ∧ (∃ (s : State) (f : Frame), s.part.MayTakeItem f 0x20 .railOff ∧ valueOf f = 1023 ∧ s.part.settings.railOn < valueOf f)
      ∧ (∃ (s : State) (f : Frame), s.part.MayTakeItem f 0x20 .linkSilence ∧ valueOf f = 49)
      ∧ (∃ (s : State) (f : Frame), s.part.MayTakeItem f 0x20 .linkSilence ∧ valueOf f = 0)
      ∧ ∃ (s : State) (f : Frame), s.part.MayTakeItem f 0x20 .linkSilence ∧ valueOf f = 5000 :=
  ⟨meetsItem (inState .running) (write .splitKey 44) (by decide +kernel),
    meetsItem Part.reset (write .splitKey 19) (by decide +kernel),
    meetsItem Part.reset (write .splitKey 67) (by decide +kernel),
    meetsItem Part.reset (write .railOn 1023) (by decide +kernel),
    meetsItem Part.reset (write .railOn 260) (by decide +kernel),
    meetsItem Part.reset (write .railOn 259) (by decide +kernel),
    meetsItem Part.reset (write .railOff 0) (by decide +kernel),
    meetsItem Part.reset (write .railOff 180) (by decide +kernel),
    meetsItem Part.reset (write .railOff 1023) (by decide +kernel),
    meetsItem Part.reset (write .linkSilence 49) (by decide +kernel),
    meetsItem Part.reset (write .linkSilence 0) (by decide +kernel),
    meetsItem Part.reset (write .linkSilence 5000) (by decide +kernel)⟩

/-- A WRITE SETTING of the default voicing with another floor, for a key. -/
def writeVoicing (key low : Nat) : Frame :=
  request 0x20 ([0x30, BitVec.ofNat 8 key] ++ ({ defaultVoicing with floor := low } : Voicing).bytes)

theorem witness_CheckedSettingWritten_indexed :
    (∃ (s : State) (f : Frame), s.part.MayTakeItem f 0x20 .stepTable ∧ byteAt f.payload 1 = 8)
      ∧ (∃ (s : State) (f : Frame), s.part.MayTakeItem f 0x20 .stepTable ∧ byteAt f.payload 1 = (7 : Fin 8).val ∧ valueOf f ≤ 1023
          ∧ ∃ j : Fin 8, j.val + 1 = (7 : Fin 8).val ∧ valueOf f + 1 = s.part.settings.stepTable[j])
      ∧ (∃ (s : State) (f : Frame), s.part.MayTakeItem f 0x20 .stepTable ∧ byteAt f.payload 1 = (0 : Fin 8).val ∧ valueOf f ≤ 1023
          ∧ ∃ j : Fin 8, (0 : Fin 8).val + 1 = j.val ∧ s.part.settings.stepTable[j] + 1 = valueOf f)
      ∧ (∃ (s : State) (f : Frame), s.part.MayTakeItem f 0x20 .stepTable ∧ byteAt f.payload 1 = (7 : Fin 8).val ∧ valueOf f = 1023
          ∧ (∀ j : Fin 8, j.val + 1 = (7 : Fin 8).val → s.part.settings.stepTable[j] ≤ valueOf f)
          ∧ ∀ j : Fin 8, (7 : Fin 8).val + 1 = j.val → valueOf f ≤ s.part.settings.stepTable[j])
      ∧ (∃ (s : State) (f : Frame), s.part.MayTakeItem f 0x20 .railScale ∧ byteAt f.payload 1 = 2)
      ∧ (∃ (s : State) (f : Frame), s.part.MayTakeItem f 0x20 .railScale ∧ byteAt f.payload 1 = Half.treble.code ∧ valueOf f = 2000)
      ∧ (∃ (s : State) (f : Frame), s.part.MayTakeItem f 0x20 .voicing ∧ byteAt f.payload 1 = 88)
      ∧ (∃ (s : State) (f : Frame), s.part.MayTakeItem f 0x20 .voicing ∧ byteAt f.payload 1 = (87 : KeyNo).val
          ∧ byteAt f.payload 2 + 256 * byteAt f.payload 3 = 401)
      ∧ ∃ (s : State) (f : Frame), s.part.MayTakeItem f 0x20 .voicing ∧ byteAt f.payload 1 = (87 : KeyNo).val
          ∧ byteAt f.payload 2 + 256 * byteAt f.payload 3 = 400 ∧ ({ defaultVoicing with floor := 400 } : Voicing).legal :=
  ⟨meetsItem Part.reset (writeAt .stepTable 8 0) (by decide +kernel),
    meetsItem Part.reset (writeAt .stepTable 7 719) (by decide +kernel),
    meetsItem Part.reset (writeAt .stepTable 0 201) (by decide +kernel),
    meetsItem Part.reset (writeAt .stepTable 7 1023) (by decide +kernel),
    meetsItem Part.reset (writeAt .railScale 2 1000) (by decide +kernel),
    meetsItem Part.reset (writeAt .railScale 1 2000) (by decide +kernel),
    meetsItem Part.reset (writeVoicing 88 40) (by decide +kernel),
    meetsItem Part.reset (writeVoicing 87 401) (by decide +kernel),
    meetsItem Part.reset (writeVoicing 87 400) ⟨rfl, by decide +kernel, by unfold Voicing.legal; decide⟩⟩

theorem witness_CheckedSettingWritten_budget :
    (∃ (s : State) (f : Frame), s.part.MayTakeItem f 0x20 .budgetUnits ∧ ∃ k, (s.part.key k).state = .kick)
      ∧ (∃ (s : State) (f : Frame), s.part.MayTakeItem f 0x20 .damperCost ∧ ∃ d, (s.part.pedal d).state = .lifting)
      ∧ (∃ (s : State) (f : Frame), s.part.MayTakeItem f 0x20 .railCost ∧ s.part.arbiter.wait ≠ [])
      ∧ (∃ (s : State) (f : Frame), s.part.MayTakeItem f 0x20 .budgetUnits ∧ (¬ ∃ k, (s.part.key k).state = .kick)
          ∧ s.part.pedals = PedalUnit.atReset ∧ s.part.arbiter.wait = [] ∧ valueOf f = 97)
      ∧ (∃ (s : State) (f : Frame), s.part.MayTakeItem f 0x20 .budgetUnits ∧ (¬ ∃ k, (s.part.key k).state = .kick)
          ∧ s.part.pedals = PedalUnit.atReset ∧ s.part.arbiter.wait = [] ∧ valueOf f = 7
          ∧ valueOf f < max s.part.settings.damperCost s.part.settings.railCost)
      ∧ ∃ (s : State) (f : Frame), s.part.MayTakeItem f 0x20 .railCost ∧ (¬ ∃ k, (s.part.key k).state = .kick)
          ∧ s.part.pedals = PedalUnit.atReset ∧ s.part.arbiter.wait = [] ∧ valueOf f = 16
          ∧ valueOf f ≤ s.part.settings.budgetUnits :=
  ⟨meetsItem (kicking .direct) (write .budgetUnits 40) ⟨10, by decide +kernel⟩,
    meetsItem (lifting .damper false) (write .damperCost 8) ⟨.damper, by decide +kernel⟩,
    meetsItem queued (write .railCost 4) (by decide +kernel),
    meetsItem Part.reset (write .budgetUnits 97) (by decide +kernel),
    meetsItem Part.reset (write .budgetUnits 7) (by decide +kernel),
    meetsItem Part.reset (write .railCost 16) (by decide +kernel)⟩

theorem witness_RingLowAndPedalLeadWritten :
    (∃ (s : State) (f : Frame), s.part.MayTakeItem f 0x20 .ringLow ∧ valueOf f = 15)
      ∧ (∃ (s : State) (f : Frame), s.part.MayTakeItem f 0x20 .ringLow ∧ valueOf f = 2000)
      ∧ (∃ (s : State) (f : Frame), s.part.MayTakeItem f 0x20 .pedalLead ∧ s.part.inPlay = true)
      ∧ (∃ (s : State) (f : Frame), s.part.MayTakeItem f 0x20 .pedalLead ∧ s.part.inPlay = false ∧ valueOf f = 65)
      ∧ ∃ (s : State) (f : Frame), s.part.MayTakeItem f 0x20 .pedalLead ∧ s.part.inPlay = false ∧ valueOf f = 64 :=
  ⟨meetsItem Part.reset (write .ringLow 15) (by decide +kernel),
    meetsItem Part.reset (write .ringLow 2000) (by decide +kernel),
    meetsItem (inState .starved) (write .pedalLead 0) (by decide +kernel),
    meetsItem Part.reset (write .pedalLead 65) (by decide +kernel),
    meetsItem Part.reset (write .pedalLead 64) (by decide +kernel)⟩

/-- A WRITE SETTING of a track map entry. -/
def writeEntry (index function key half source : Nat) : Frame :=
  request 0x20 [0x10, BitVec.ofNat 8 index, BitVec.ofNat 8 function, BitVec.ofNat 8 key, BitVec.ofNat 8 half,
    BitVec.ofNat 8 source]

theorem witness_TrackMapWritten :
    (∃ (s : State) (f : Frame), s.part.MayTakeItem f 0x20 .trackMap ∧ s.part.inPlay = true)
      ∧ (∃ (s : State) (f : Frame), s.part.MayTakeItem f 0x20 .trackMap ∧ s.part.inPlay = false ∧ byteAt f.payload 2 = 11)
      ∧ (∃ (s : State) (f : Frame), s.part.MayTakeItem f 0x20 .trackMap ∧ s.part.inPlay = false
          ∧ f.payload.drop 1 = [111, 1, 87, 0, 111] ∧ ∃ u : TrackNo, u ≠ 111
          ∧ s.part.settings.trackMap[u].sameTarget { function := .key, key := 87, half := .bass, source := 111 } = true)
      ∧ ∃ (s : State) (f : Frame), s.part.MayTakeItem f 0x20 .trackMap ∧ s.part.inPlay = false
          ∧ f.payload.drop 1 = [111, 0, 0, 0, 111] ∧ ∀ u : TrackNo, u ≠ 111 →
            s.part.settings.trackMap[u].sameTarget { function := .none, key := 0, half := .bass, source := 111 }
              = false :=
  ⟨meetsItem (inState .running) (writeEntry 0 0 0 0 0) (by decide +kernel),
    meetsItem Part.reset (writeEntry 0 11 0 0 0) (by decide +kernel),
    meetsItem Part.reset (writeEntry 111 1 87 0 111) ⟨rfl, rfl, 95, by decide, by decide +kernel⟩,
    meetsItem Part.reset (writeEntry 111 0 0 0 111)
      ⟨rfl, rfl, fun u _ => by simp [TrackEntry.sameTarget]⟩⟩

theorem witness_DebounceCountsWritten :
    (∃ (s : State) (f : Frame), s.part.MayTakeItem f 0x20 .onRows ∧ s.part.inPlay = true)
      ∧ (∃ (s : State) (f : Frame), s.part.MayTakeItem f 0x20 .offRows ∧ s.part.inPlay = false ∧ valueOf f = 9)
      ∧ (∃ (s : State) (f : Frame), s.part.MayTakeItem f 0x20 .onRows ∧ s.part.inPlay = false ∧ valueOf f = 1)
      ∧ ∃ (s : State) (f : Frame), s.part.MayTakeItem f 0x20 .offRows ∧ s.part.inPlay = false ∧ valueOf f = 8 :=
  ⟨meetsItem (inState .running) (write .onRows 2) (by decide +kernel),
    meetsItem Part.reset (write .offRows 9) (by decide +kernel),
    meetsItem Part.reset (write .onRows 1) (by decide +kernel),
    meetsItem Part.reset (write .offRows 8) (by decide +kernel)⟩

/-- A WRITE SETTING of a cue slot of track 0. -/
def writeSlot (index mask pattern hold action parameter : Nat) : Frame :=
  request 0x20 ([0x18, BitVec.ofNat 8 index] ++ littleEndian 14 pattern ++ littleEndian 14 mask
    ++ [BitVec.ofNat 8 hold, BitVec.ofNat 8 action] ++ littleEndian 2 parameter ++ [1])

theorem witness_CueSlotWrittenAndArmed :
    (∃ (s : State) (f : Frame), s.part.MayTakeItem f 0x20 .cueSlot ∧ byteAt f.payload 30 = 17)
      ∧ (∃ (s : State) (f : Frame), s.part.MayTakeItem f 0x20 .cueSlot ∧ f.payload.drop 30 = [1, 0, 0, 0, 1] ∧ byteAt f.payload 1 = 3
          ∧ fieldAt f.payload 2 14 = 1 ∧ fieldAt f.payload 16 14 = 2)
      ∧ (∃ (s : State) (f : Frame), s.part.MayTakeItem f 0x20 .cueSlot ∧ f.payload.drop 30 = [16, 3, 200, 0, 1] ∧ byteAt f.payload 1 = 3
          ∧ fieldAt f.payload 2 14 = 1 ∧ fieldAt f.payload 16 14 = 1)
      ∧ (∃ (s : State) (f : Frame), s.part.MayTake f ∧ f.kind = 0x22 ∧ f.payload ≠ [])
      ∧ ∃ (s : State) (f : Frame), s.part.MayTake f ∧ f.kind = 0x22 ∧ f.payload = [] :=
  ⟨meetsItem Part.reset (writeSlot 0 1 1 17 0 0) (by decide +kernel),
    meetsItem Part.reset (writeSlot 3 2 1 1 0 0) (by decide +kernel),
    meetsItem Part.reset (writeSlot 3 1 1 16 3 200) (by decide +kernel),
    meets Part.reset (request 0x22 [0]) (by decide), meets Part.reset (request 0x22 []) (by decide)⟩

/-- The part with its bass shade at a value, in RUNNING. -/
def shaded (shade : Nat) : Part :=
  (inState .running).setHalf .bass { HalfExpression.atReset defaultSettings with shade := shade }

/-- A rail's state. -/
def railIn (state : PedalState) : Part :=
  withPedal .bassRail (fun r => { r with state := state }) Part.reset

theorem witness_RailModeWritten_asks :
    (∃ (s : State) (f : Frame), s.part.MayTakeItem f 0x20 .railMode ∧ byteAt f.payload 1 = 2)
      ∧ (∃ (s : State) (f : Frame), s.part.MayTakeItem f 0x20 .railMode ∧ byteAt f.payload 1 = Half.bass.code ∧ valueOf f = 4)
      ∧ (∃ (s : State) (f : Frame), s.part.MayTakeItem f 0x20 .railMode ∧ byteAt f.payload 1 = Half.bass.code
          ∧ valueOf f = RailMode.auto.code ∧ s.part.inPlay = true
          ∧ (s.part.expression.halves.get .bass).shade = s.part.settings.railOn)
      ∧ (∃ (s : State) (f : Frame), s.part.MayTakeItem f 0x20 .railMode ∧ byteAt f.payload 1 = Half.bass.code
          ∧ valueOf f = RailMode.auto.code ∧ s.part.inPlay = true
          ∧ (s.part.expression.halves.get .bass).shade + 1 = s.part.settings.railOn)
      ∧ (∃ (s : State) (f : Frame), s.part.MayTakeItem f 0x20 .railMode ∧ byteAt f.payload 1 = Half.bass.code
          ∧ valueOf f = RailMode.auto.code ∧ s.part.inPlay = true
          ∧ s.part.settings.railOff + 1 = (s.part.expression.halves.get .bass).shade)
      ∧ (∃ (s : State) (f : Frame), s.part.MayTakeItem f 0x20 .railMode ∧ byteAt f.payload 1 = Half.bass.code
          ∧ valueOf f = RailMode.auto.code ∧ s.part.inPlay = false)
      ∧ ∃ (s : State) (f : Frame), s.part.MayTakeItem f 0x20 .railMode ∧ byteAt f.payload 1 = Half.treble.code
          ∧ valueOf f = RailMode.roll.code :=
  ⟨meetsItem Part.reset (writeAt .railMode 2 0) (by decide +kernel),
    meetsItem Part.reset (writeAt .railMode 0 4) (by decide +kernel),
    meetsItem (shaded 180) (writeAt .railMode 0 0) (by decide +kernel),
    meetsItem (shaded 179) (writeAt .railMode 0 0) (by decide +kernel),
    meetsItem (shaded 261) (writeAt .railMode 0 0) (by decide +kernel),
    meetsItem Part.reset (writeAt .railMode 0 0) (by decide +kernel),
    meetsItem Part.reset (writeAt .railMode 1 1) (by decide +kernel)⟩

theorem witness_RailModeWritten_moves :
    (∀ state : PedalState, ∃ (s : State) (f : Frame), s.part.MayTakeItem f 0x20 .railMode ∧ byteAt f.payload 1 = Half.bass.code
        ∧ valueOf f = RailMode.down.code ∧ (s.part.pedal (railOf .bass)).state = state)
      ∧ (∀ state : PedalState, ∃ (s : State) (f : Frame), s.part.MayTakeItem f 0x20 .railMode ∧ byteAt f.payload 1 = Half.bass.code
        ∧ valueOf f = RailMode.up.code ∧ (s.part.pedal (railOf .bass)).state = state)
      ∧ (∃ (s : State) (f : Frame), s.part.MayTakeItem f 0x20 .railMode ∧ valueOf f = RailMode.up.code
        ∧ (s.part.pedal (railOf .bass)).state = .lowered ∧ (s.part.pedal (railOf .bass)).faulted = true)
      ∧ (∃ (s : State) (f : Frame), s.part.MayTakeItem f 0x20 .railMode ∧ valueOf f = RailMode.up.code
        ∧ (s.part.pedal (railOf .bass)).state = .lowered ∧ (s.part.pedal (railOf .bass)).faulted = false
        ∧ s.part.arbiter.wait = []
        ∧ s.part.settings.railCost + s.part.arbiter.unitsInUse = s.part.settings.budgetUnits)
      ∧ (∃ (s : State) (f : Frame), s.part.MayTakeItem f 0x20 .railMode ∧ valueOf f = RailMode.down.code
        ∧ (s.part.pedal (railOf .bass)).state = .waiting ∧ BudgetSound s.part)
      ∧ ∃ (s : State) (f : Frame), s.part.MayTakeItem f 0x20 .railMode ∧ valueOf f = RailMode.up.code
        ∧ (s.part.pedal (railOf .bass)).state = .lowered ∧ (s.part.pedal (railOf .bass)).faulted = false
        ∧ BudgetSound s.part := by
  refine ⟨fun state => ?_, fun state => ?_, ?_, ?_, ?_, ?_⟩
  · exact meetsItem (railIn state) (writeAt .railMode 0 3) ⟨rfl, rfl, rfl⟩ (by decide +kernel) ⟨rfl, rfl⟩
  · exact meetsItem (railIn state) (writeAt .railMode 0 2) ⟨rfl, rfl, rfl⟩ (by decide +kernel) ⟨rfl, rfl⟩
  · exact meetsItem (withPedal .bassRail (fun r => { r with faulted := true }) Part.reset) (writeAt .railMode 0 2)
      (by decide +kernel)
  · exact meetsItem (Part.reset.setPlace 88 (some 36)) (writeAt .railMode 0 2) (by decide +kernel)
  · exact meetsItem (waiting .bassRail .lowered) (writeAt .railMode 0 3)
      ⟨rfl, rfl, budgetSound_of_checks (by decide +kernel)⟩
  · exact meetsItem Part.reset (writeAt .railMode 0 2) ⟨rfl, rfl, rfl, budgetSound_of_checks budgetChecks_reset⟩

/-- The part at reset with key 10 in RELEASE, resting, its guard complete and a plan pending. -/
def rested : Part :=
  withKey 10 (fun l => { l with guardDone := true }) (releasing (some (aPlan 10 .direct)) true)

theorem witness_GuardAndPwmWritten :
    (∃ (s : State) (f : Frame), s.part.MayTakeItem f 0x20 .repeatGuard ∧ valueOf f = 4)
      ∧ (∃ (s : State) (f : Frame), s.part.MayTakeItem f 0x20 .repeatGuard ∧ valueOf f = 5 ∧ (∀ k, (s.part.key k).pending = none)
          ∧ ∃ k, (s.part.key k).state = .release ∧ 20 * valueOf f = s.part.now - (s.part.key k).guardStarted)
      ∧ (∀ holds resting : Bool,
          ∃ (s : State) (f : Frame), s.part.MayTakeItem f 0x20 .repeatGuard ∧ valueOf f = 5 ∧ BudgetSound s.part
            ∧ (∀ j, ((s.part.key j).state = .release ∧ (s.part.key j).guardDone = false
                ∧ 20 * valueOf f ≤ s.part.now - (s.part.key j).guardStarted) ↔ j = 10)
            ∧ (s.part.key 10).pending.isSome = holds ∧ (s.part.key 10).resting = resting)
      ∧ (∃ (s : State) (f : Frame), s.part.MayTakeItem f 0x20 .pwmBase ∧ s.part.inPlay = true)
      ∧ (∃ (s : State) (f : Frame), s.part.MayTakeItem f 0x20 .pwmBase ∧ s.part.inPlay = false ∧ valueOf f = 33)
      ∧ ∃ (s : State) (f : Frame), s.part.MayTakeItem f 0x20 .pwmBase ∧ s.part.inPlay = false ∧ valueOf f = 32 :=
  ⟨meetsItem Part.reset (write .repeatGuard 4) (by decide +kernel),
    meetsItem { releasing none false with now := 100 } (write .repeatGuard 5)
      ⟨by decide +kernel, by decide +kernel, 10, by decide +kernel, by decide +kernel⟩,
    fun holds resting =>
      meetsItem { releasing (if holds then some (aPlan 10 .direct) else none) resting with now := 100 }
        (write .repeatGuard 5)
        ⟨rfl, budgetSound_of_checks (by revert holds resting; decide +kernel), by revert holds resting; decide +kernel,
          by revert holds resting; decide +kernel, by revert holds resting; decide +kernel⟩
        (by decide +kernel) (by revert holds resting; decide +kernel),
    meetsItem (inState .running) (write .pwmBase 16) (by decide +kernel),
    meetsItem Part.reset (write .pwmBase 33) (by decide +kernel),
    meetsItem Part.reset (write .pwmBase 32) (by decide +kernel)⟩

theorem witness_HeatLimitsWritten :
    (∃ (s : State) (f : Frame), s.part.MayTakeItem f 0x20 .heatSoft ∧ valueOf f = 999)
      ∧ (∃ (s : State) (f : Frame), s.part.MayTakeItem f 0x20 .heatHard ∧ valueOf f = 65001)
      ∧ (∃ (s : State) (f : Frame), s.part.MayTakeItem f 0x20 .heatSoft ∧ valueOf f = 60000 ∧ s.part.settings.heatHard < valueOf f + 1000)
      ∧ (∃ (s : State) (f : Frame), s.part.MayTakeItem f 0x20 .heatHard ∧ valueOf f = s.part.settings.heatSoft + 1000
          ∧ BudgetSound s.part)
      ∧ (∃ (s : State) (f : Frame), s.part.MayTakeItem f 0x20 .heatSoft ∧ valueOf f = 1000 ∧ valueOf f + 1000 ≤ s.part.settings.heatHard
          ∧ BudgetSound s.part)
      ∧ ∃ (s : State) (f : Frame), s.part.MayTakeItem f 0x20 .heatSoft ∧ BudgetSound s.part
          ∧ valueOf f + 1000 ≤ s.part.settings.heatHard ∧ (s.part.key 10).state = .release
          ∧ (s.part.key 10).guardDone = true ∧ (s.part.key 10).pending ≠ none ∧ (s.part.key 10).resting = true
          ∧ (s.part.key 10).heat + 1 = valueOf f :=
  ⟨meetsItem Part.reset (write .heatSoft 999) (by decide +kernel),
    meetsItem Part.reset (write .heatHard 65001) (by decide +kernel),
    meetsItem Part.reset (write .heatSoft 60000) (by decide +kernel),
    meetsItem Part.reset (write .heatHard 13000) ⟨by decide +kernel, budgetSound_of_checks budgetChecks_reset⟩,
    meetsItem Part.reset (write .heatSoft 1000)
      ⟨by decide +kernel, by decide +kernel, budgetSound_of_checks budgetChecks_reset⟩,
    meetsItem rested (write .heatSoft 12001)
      ⟨budgetSound_of_checks (by decide +kernel), by decide +kernel, by decide +kernel, by decide +kernel,
        by decide +kernel, by decide +kernel, by decide +kernel⟩⟩

theorem witness_PedalHoldsWritten :
    (∃ (s : State) (f : Frame), s.part.MayTakeItem f 0x20 .damperHoldFull ∧ valueOf f = 33)
      ∧ (∃ (s : State) (f : Frame), s.part.MayTakeItem f 0x20 .damperHoldFull ∧ 1 ≤ valueOf f ∧ valueOf f ≤ 32
          ∧ valueOf f + 1 = s.part.settings.damperHoldPart)
      ∧ (∃ (s : State) (f : Frame), s.part.MayTakeItem f 0x20 .damperHoldFull ∧ 1 ≤ valueOf f ∧ valueOf f ≤ 32
          ∧ valueOf f = s.part.settings.damperHoldPart)
      ∧ (∃ (s : State) (f : Frame), s.part.MayTakeItem f 0x20 .damperHoldPart ∧ 1 ≤ valueOf f ∧ valueOf f ≤ 32
          ∧ valueOf f = s.part.settings.damperHoldFull + 1)
      ∧ (∃ (s : State) (f : Frame), s.part.MayTakeItem f 0x20 .damperHoldPart ∧ 1 ≤ valueOf f ∧ valueOf f ≤ 32
          ∧ valueOf f = s.part.settings.damperHoldFull)
      ∧ ∃ (s : State) (f : Frame), s.part.MayTakeItem f 0x20 .railHold ∧ 1 ≤ valueOf f ∧ valueOf f = 32 :=
  ⟨meetsItem Part.reset (write .damperHoldFull 33) (by decide +kernel),
    meetsItem Part.reset (write .damperHoldFull 7) (by decide +kernel),
    meetsItem Part.reset (write .damperHoldFull 8) (by decide +kernel),
    meetsItem Part.reset (write .damperHoldPart 15) (by decide +kernel),
    meetsItem Part.reset (write .damperHoldPart 14) (by decide +kernel),
    meetsItem Part.reset (write .railHold 32) (by decide +kernel)⟩

theorem witness_MasksWritten :
    (∃ (s : State) (f : Frame), s.part.MayTakeItem f 0x20 .noticeMask ∧ valueOf f = 8192)
      ∧ (∃ (s : State) (f : Frame), s.part.MayTakeItem f 0x20 .noticeMask ∧ valueOf f = 8191)
      ∧ (∃ (s : State) (f : Frame), s.part.MayTakeItem f 0x20 .lineFaultMask ∧ byteAt f.payload 1 = 91)
      ∧ (∃ (s : State) (f : Frame), s.part.MayTakeItem f 0x20 .lineFaultMask ∧ byteAt f.payload 1 = 90 ∧ valueOf f = 1)
      ∧ (∃ (s : State) (f : Frame), s.part.MayTakeItem f 0x20 .lineRestingMask ∧ byteAt f.payload 1 = 87 ∧ valueOf f = 2)
      ∧ ∃ (s : State) (f : Frame), s.part.MayTakeItem f 0x20 .lineRestingMask ∧ byteAt f.payload 1 = 87 ∧ valueOf f = 0 :=
  ⟨meetsItem Part.reset (write .noticeMask 8192) (by decide +kernel),
    meetsItem Part.reset (write .noticeMask 8191) (by decide +kernel),
    meetsItem Part.reset (writeAt .lineFaultMask 91 1) (by decide +kernel),
    meetsItem Part.reset (writeAt .lineFaultMask 90 1) (by decide +kernel),
    meetsItem Part.reset (writeAt .lineRestingMask 87 2) (by decide +kernel),
    meetsItem Part.reset (writeAt .lineRestingMask 87 0) (by decide +kernel)⟩

theorem witness_SettingsSaved :
    (∃ (s : State) (f : Frame), s.part.MayTake f ∧ f.kind = 0x23 ∧ f.payload ≠ [])
      ∧ (∃ (s : State) (f : Frame), s.part.MayTake f ∧ f.kind = 0x23 ∧ f.payload = [] ∧ s.part.inPlay = true)
      ∧ (∃ (s : State) (f : Frame), s.part.MayTake f ∧ f.kind = 0x23 ∧ f.payload = [] ∧ s.part.inPlay = false)
      ∧ ∃ (s : State) (f : Frame) (u : Settings),
          s.part.power = .on ∧ s.part.saving = some u ∧ s.part.link.waiting.head? = some f :=
  ⟨meets Part.reset (request 0x23 [0]) (by decide), meets (inState .starved) (request 0x23 []) (by decide),
    meets Part.reset (request 0x23 []) (by decide), ⟨asking saving (request 0x23 []), _, _, rfl, rfl, rfl⟩⟩

theorem witness_SettingsRecalled :
    (∃ (s : State) (f : Frame), s.part.MayTake f ∧ f.kind = 0x24 ∧ f.payload ≠ [])
      ∧ (∃ (s : State) (f : Frame), s.part.MayTake f ∧ f.kind = 0x24 ∧ f.payload = [] ∧ ∃ k, (s.part.key k).state = .kick)
      ∧ (∃ (s : State) (f : Frame), s.part.MayTake f ∧ f.kind = 0x24 ∧ f.payload = [] ∧ s.part.inPlay = false
          ∧ (¬ ∃ k, (s.part.key k).state = .kick) ∧ s.part.pedals = PedalUnit.atReset ∧ s.part.arbiter.wait = []
          ∧ s.part.store.passes = false)
      ∧ ∃ (s : State) (f : Frame), s.part.MayTake f ∧ f.kind = 0x24 ∧ f.payload = [] ∧ s.part.inPlay = false
          ∧ (¬ ∃ k, (s.part.key k).state = .kick) ∧ s.part.pedals = PedalUnit.atReset ∧ s.part.arbiter.wait = []
          ∧ s.part.store.passes = true :=
  ⟨meets Part.reset (request 0x24 [0]) (by decide),
    meets (kicking .direct) (request 0x24 []) ⟨rfl, rfl, 10, by decide +kernel⟩,
    meets Part.reset (request 0x24 []) ⟨rfl, rfl, rfl, by decide +kernel, rfl, rfl, spoilt_fails _⟩,
    meets stored (request 0x24 []) ⟨rfl, rfl, rfl, by decide +kernel, rfl, rfl, whole_passes _⟩⟩

theorem witness_PartSoftReset :
    (∃ (s : State) (f : Frame), s.part.MayTake f ∧ f.kind = 0x3F ∧ f.payload ≠ [])
      ∧ ∃ (s : State) (f : Frame), s.part.MayTake f ∧ f.kind = 0x3F ∧ f.payload = [] ∧ BudgetSound s.part :=
  ⟨meets Part.reset (request 0x3F [0]) (by decide),
    meets queued (request 0x3F []) ⟨rfl, rfl, budgetSound_of_checks budgetChecks_queued⟩⟩

theorem witness_RollLoaded :
    (∃ (s : State) (f : Frame), s.part.MayTake f ∧ f.kind = 0x10 ∧ f.payload.length = 13)
      ∧ (∃ (s : State) (f : Frame), s.part.MayTake f ∧ f.kind = 0x10 ∧ f.payload.length = 14 ∧ s.part.inPlay = true)
      ∧ (∃ (s : State) (f : Frame), s.part.MayTake f ∧ f.kind = 0x10 ∧ f.payload.length = 14 ∧ s.part.inPlay = false
          ∧ fieldAt f.payload 10 2 = 201)
      ∧ ∃ (s : State) (f : Frame), s.part.MayTake f ∧ f.kind = 0x10 ∧ f.payload.length = 14 ∧ s.part.inPlay = false
          ∧ fieldAt f.payload 0 4 = 2147483646 ∧ fieldAt f.payload 4 4 = 2147483647 ∧ fieldAt f.payload 8 2 = 600
          ∧ fieldAt f.payload 10 2 = 200 ∧ fieldAt f.payload 12 2 = 2000 ∧ BudgetSound s.part :=
  ⟨meets Part.reset (request 0x10 (List.replicate 13 0)) (by decide),
    meets (inState .running) (load 0 0 0 70 0) (by decide +kernel),
    meets Part.reset (load 0 0 0 201 0) (by decide +kernel),
    meets Part.reset (load 2147483646 2147483647 600 200 2000)
      ⟨rfl, by decide +kernel, by decide +kernel, by decide +kernel, by decide +kernel, by decide +kernel,
        by decide +kernel, by decide +kernel, budgetSound_of_checks budgetChecks_reset⟩⟩

theorem witness_RowRecordsExpand :
    ∃ records : List RowRecord, RowRecord.run 1 ∈ records ∧ RowRecord.run 255 ∈ records
      ∧ ∀ n, RowRecord.run n ∈ records → 1 ≤ n ∧ n ≤ 255 :=
  ⟨[.mask 0, .run 1, .run 255, .mask (BitVec.allOnes 112)], by decide, by decide, fun n h => by
    simp at h
    omega⟩

/-- A roll loaded at row 1000, with an end row, a ring of this many rows, and the transport in this state. -/
def rolling (t : Transport) (final rows : Nat) : Part :=
  { inState t with
    feed := { (inState t).feed with
      row := if t = .running then 999 else 1000, endRow := final, taken := t == .running }
    pedals := { PedalUnit.atReset with lead := LeadDecoder.atRow 1000 }
    ring :=
      { rows := numberRows 1000 (List.replicate rows 0), nextExpected := 1000 + rows, reference := 0
        above := decide (256 ≤ rows) } }

/-- What the take of a row asks of the part it is made in. -/
def PlaySound (p : Part) : Prop :=
  SettingsSound p ∧ RingSound p ∧ FeedSound p ∧ LeadSound p ∧ BudgetSound p

/-- The ring, the feed position and the lead decoder agree, as a check. -/
def paperChecks (p : Part) : Bool :=
  decide (p.ring.rows.map StoredRow.number = List.range' (p.ring.nextExpected - p.ring.rows.length) p.ring.rows.length)
    && decide (p.ring.rows.length ≤ p.ring.nextExpected) && decide (p.ring.rows.length ≤ 2048)
    && decide (p.ring.nextExpected ≤ 2147483648)
    && (p.ring.above == decide (p.settings.ringLow ≤ p.ring.rows.length))
    && decide (p.feed.headRow + p.ring.rows.length = p.ring.nextExpected)
    && (!(p.feed.transport == .running) || p.feed.taken)
    && (!(p.feed.transport == .starved) || (!p.feed.taken && p.ring.rows.isEmpty))
    && !(p.feed.transport == .unloaded) && decide (p.feed.fraction ≤ 65535) && decide (p.feed.q ≤ 65535)
    && decide (p.feed.headRow ≤ p.pedals.lead.next) && decide (p.pedals.lead.next ≤ p.ring.nextExpected)

theorem playSound {p : Part}
    (hs : p.settings = defaultSettings ∧ p.store.settings = defaultSettings ∧ p.saving = none)
    (h : (paperChecks p && budgetChecks p) = true) : PlaySound p := by
  obtain ⟨h, hb⟩ := (Bool.and_eq_true _ _).mp h
  simp only [paperChecks, Bool.and_eq_true, decide_eq_true_eq, beq_iff_eq, Bool.or_eq_true, Bool.not_eq_true',
    List.isEmpty_iff] at h
  obtain ⟨⟨⟨⟨⟨⟨⟨⟨⟨⟨⟨⟨h1, h2⟩, h3⟩, h4⟩, h5⟩, h6⟩, h7⟩, h8⟩, h9⟩, h10⟩, h11⟩, h12⟩, h13⟩ := h
  refine ⟨⟨hs.1 ▸ defaults_legal, hs.2.1 ▸ defaults_legal, fun t ht => ?_⟩, ⟨⟨h1, h2, h3, h4⟩, by simp [h5]⟩,
    ⟨h6, fun ht => ?_, fun ht => ?_, fun ht => ?_, h10, h11⟩, ⟨h12, h13⟩, budgetSound_of_checks hb⟩
  · rw [hs.2.2] at ht
    cases ht
  · simpa [ht] using h7
  · simpa [ht] using h8
  · simp [ht] at h9

theorem witness_RowsFed_refused :
    (∃ (s : State) (f : Frame), s.part.MayTake f ∧ f.kind = 0x11 ∧ f.payload.length = 7)
      ∧ (∃ (s : State) (f : Frame), s.part.MayTake f ∧ f.kind = 0x11 ∧ 8 ≤ f.payload.length ∧ s.part.feed.transport = .unloaded)
      ∧ (∃ (s : State) (f : Frame), s.part.MayTake f ∧ f.kind = 0x11 ∧ 8 ≤ f.payload.length ∧ s.part.feed.transport = .loaded
          ∧ fieldAt f.payload 4 2 = 513)
      ∧ (∃ (s : State) (f : Frame), s.part.MayTake f ∧ f.kind = 0x11 ∧ 8 ≤ f.payload.length ∧ s.part.feed.transport = .loaded
          ∧ fieldAt f.payload 0 4 = 1000 ∧ fieldAt f.payload 4 2 = 6
          ∧ expandRecords (f.payload.drop 6).length s.part.ring.reference 6 (f.payload.drop 6) = none)
      ∧ ∃ (s : State) (f : Frame), s.part.MayTake f ∧ f.kind = 0x11 ∧ 8 ≤ f.payload.length ∧ s.part.feed.transport = .loaded
          ∧ fieldAt f.payload 0 4 = s.part.ring.nextExpected + 1 ∧ fieldAt f.payload 4 2 = 5
          ∧ ∃ holes, expandRecords (f.payload.drop 6).length s.part.ring.reference 5 (f.payload.drop 6) = some holes :=
  ⟨meets (rolling .loaded 0 0) (request 0x11 (List.replicate 7 0)) (by decide),
    meets Part.reset (feed 1000 5 firstRecords) (by decide +kernel),
    meets (rolling .loaded 0 0) (feed 1000 513 firstRecords) (by decide +kernel),
    meets (rolling .loaded 0 0) (feed 1000 6 firstRecords) (by decide +kernel),
    meets (rolling .loaded 0 0) (feed 1001 5 firstRecords)
      ⟨rfl, by decide +kernel, rfl, by decide +kernel, by decide +kernel, rowsOf 0
        [.mask (BitVec.ofNat 112 (2 ^ 12 + 2 ^ 96 + 2 ^ 97)), .run 3, .mask 0], by decide +kernel⟩⟩

/-- FEED ROWS of one run record. -/
def feedRun (first count : Nat) : Frame :=
  feed first count (littleEndian 2 (32768 + count))

theorem witness_RowsFed_stored :
    (∃ (s : State) (f : Frame), s.part.MayTake f ∧ f.kind = 0x11 ∧ 8 ≤ f.payload.length ∧ s.part.feed.transport = .loaded
        ∧ fieldAt f.payload 0 4 = s.part.ring.nextExpected ∧ fieldAt f.payload 4 2 = 2 ∧ s.part.feed.endRow = 1000
        ∧ expandRecords (f.payload.drop 6).length s.part.ring.reference 2 (f.payload.drop 6) = some [0, 0])
      ∧ (∃ (s : State) (f : Frame), s.part.MayTake f ∧ f.kind = 0x11 ∧ 8 ≤ f.payload.length ∧ s.part.feed.transport = .paused
        ∧ fieldAt f.payload 0 4 + 1 = s.part.ring.nextExpected ∧ fieldAt f.payload 4 2 = 2
        ∧ expandRecords (f.payload.drop 6).length s.part.ring.reference 2 (f.payload.drop 6) = some [0, 0])
      ∧ (∃ (s : State) (f : Frame), s.part.MayTake f ∧ f.kind = 0x11 ∧ 8 ≤ f.payload.length ∧ s.part.feed.transport = .running
        ∧ fieldAt f.payload 0 4 = s.part.ring.nextExpected ∧ fieldAt f.payload 4 2 = 2
        ∧ expandRecords (f.payload.drop 6).length s.part.ring.reference 2 (f.payload.drop 6) = some [0, 0]
        ∧ PlaySound s.part)
      ∧ ∃ (s : State) (f : Frame), s.part.MayTake f ∧ f.kind = 0x11 ∧ 8 ≤ f.payload.length ∧ s.part.feed.transport = .starved
        ∧ fieldAt f.payload 0 4 = s.part.ring.nextExpected ∧ fieldAt f.payload 4 2 = 1 ∧ s.part.ring.rows = []
        ∧ s.part.feed.endRow = 1000
        ∧ expandRecords (f.payload.drop 6).length s.part.ring.reference 1 (f.payload.drop 6) = some [0]
        ∧ PlaySound s.part :=
  ⟨meets (rolling .loaded 1000 0) (feedRun 1000 2) (by decide +kernel),
    meets (rolling .paused 0 2) (feedRun 1001 2) (by decide +kernel),
    meets (rolling .running 0 2) (feedRun 1002 2)
      ⟨rfl, by decide +kernel, rfl, by decide +kernel, by decide +kernel, by decide +kernel,
        playSound ⟨rfl, rfl, rfl⟩ (by decide +kernel)⟩,
    meets (rolling .starved 1000 0) (feedRun 1000 1)
      ⟨rfl, by decide +kernel, rfl, by decide +kernel, by decide +kernel, rfl, rfl, by decide +kernel,
        playSound ⟨rfl, rfl, rfl⟩ (by decide +kernel)⟩⟩

theorem witness_RunStarts :
    (∃ (s : State) (f : Frame), s.part.MayTake f ∧ f.kind = 0x12 ∧ f.payload ≠ [])
      ∧ (∃ (s : State) (f : Frame), s.part.MayTake f ∧ f.kind = 0x12 ∧ f.payload = [] ∧ s.part.inPlay = true)
      ∧ (∃ (s : State) (f : Frame), s.part.MayTake f ∧ f.kind = 0x12 ∧ f.payload = [] ∧ s.part.feed.transport = .ended)
      ∧ (∃ (s : State) (f : Frame), s.part.MayTake f ∧ f.kind = 0x12 ∧ f.payload = [] ∧ s.part.feed.transport = .paused
          ∧ s.part.feed.taken = true ∧ PlaySound s.part)
      ∧ (∃ (s : State) (f : Frame), s.part.MayTake f ∧ f.kind = 0x12 ∧ f.payload = [] ∧ s.part.feed.transport = .loaded
          ∧ s.part.feed.taken = false ∧ s.part.ring.rows = [] ∧ s.part.settings.starveHold = 0)
      ∧ (∃ (s : State) (f : Frame), s.part.MayTake f ∧ f.kind = 0x12 ∧ f.payload = [] ∧ s.part.feed.transport = .loaded
          ∧ s.part.feed.taken = false ∧ s.part.ring.rows = [] ∧ s.part.settings.starveHold ≠ 0)
      ∧ ∃ (s : State) (f : Frame), s.part.MayTake f ∧ f.kind = 0x12 ∧ f.payload = [] ∧ s.part.feed.transport = .loaded
          ∧ s.part.feed.taken = false ∧ PlaySound s.part ∧ ∃ row rest, s.part.ring.rows = row :: rest :=
  ⟨meets (inState .loaded) (request 0x12 [0]) (by decide), meets (inState .starved) (request 0x12 []) (by decide),
    meets (inState .ended) (request 0x12 []) (by decide),
    meets { rolling .running 0 2 with feed := { (rolling .running 0 2).feed with transport := .paused } }
      (request 0x12 []) ⟨rfl, rfl, rfl, rfl, playSound ⟨rfl, rfl, rfl⟩ (by decide +kernel)⟩,
    meets { inState .loaded with settings := { defaultSettings with starveHold := 0 } } (request 0x12 [])
      (by decide +kernel),
    meets (inState .loaded) (request 0x12 []) (by decide +kernel),
    meets (rolling .loaded 0 1) (request 0x12 [])
      ⟨rfl, rfl, rfl, rfl, playSound ⟨rfl, rfl, rfl⟩ (by decide +kernel), _, _, rfl⟩⟩

theorem witness_PauseReleases :
    (∃ (s : State) (f : Frame), s.part.MayTake f ∧ f.kind = 0x13 ∧ f.payload ≠ [])
      ∧ (∃ (s : State) (f : Frame), s.part.MayTake f ∧ f.kind = 0x13 ∧ f.payload = [] ∧ s.part.feed.transport = .paused)
      ∧ (∃ (s : State) (f : Frame), s.part.MayTake f ∧ f.kind = 0x13 ∧ f.payload = [] ∧ s.part.feed.transport = .loaded)
      ∧ ∃ (s : State) (f : Frame), s.part.MayTake f ∧ f.kind = 0x13 ∧ f.payload = [] ∧ s.part.inPlay = true ∧ BudgetSound s.part :=
  ⟨meets (inState .running) (request 0x13 [0]) (by decide), meets (inState .paused) (request 0x13 []) (by decide),
    meets (inState .loaded) (request 0x13 []) (by decide),
    meets { queued with feed := (inState .running).feed } (request 0x13 [])
      ⟨rfl, rfl, rfl, budgetSound_of_checks budgetChecks_queued⟩⟩

theorem witness_StopUnloads :
    (∃ (s : State) (f : Frame), s.part.MayTake f ∧ f.kind = 0x14 ∧ f.payload ≠ [])
      ∧ (∃ (s : State) (f : Frame), s.part.MayTake f ∧ f.kind = 0x14 ∧ f.payload = [] ∧ s.part.feed.transport = .unloaded)
      ∧ ∃ (s : State) (f : Frame), s.part.MayTake f ∧ f.kind = 0x14 ∧ f.payload = [] ∧ s.part.feed.transport ≠ .unloaded
          ∧ BudgetSound s.part :=
  ⟨meets (inState .running) (request 0x14 [0]) (by decide), meets Part.reset (request 0x14 []) (by decide),
    meets { queued with feed := (inState .running).feed } (request 0x14 [])
      ⟨rfl, rfl, by decide, budgetSound_of_checks budgetChecks_queued⟩⟩

/-- SET TEMPO with these flags, tempo and trim. -/
def tempo (flags tempo trim : Nat) : Frame :=
  request 0x15 ([BitVec.ofNat 8 flags] ++ littleEndian 2 tempo ++ littleEndian 2 trim)

theorem witness_TempoSet :
    (∃ (s : State) (f : Frame), s.part.MayTake f ∧ f.kind = 0x15 ∧ f.payload.length = 4)
      ∧ (∃ (s : State) (f : Frame), s.part.MayTake f ∧ f.kind = 0x15 ∧ f.payload.length = 5 ∧ s.part.feed.transport = .unloaded)
      ∧ (∃ (s : State) (f : Frame), s.part.MayTake f ∧ f.kind = 0x15 ∧ f.payload.length = 5 ∧ s.part.feed.transport = .loaded
          ∧ (byteAt f.payload 0).testBit 0 = true ∧ fieldAt f.payload 1 2 = 201)
      ∧ (∃ (s : State) (f : Frame), s.part.MayTake f ∧ f.kind = 0x15 ∧ f.payload.length = 5 ∧ s.part.feed.transport = .loaded
          ∧ (byteAt f.payload 0).testBit 0 = true ∧ fieldAt f.payload 1 2 = 10
          ∧ s.part.settings.trimLow ≤ s.part.settings.trimHigh)
      ∧ ∃ (s : State) (f : Frame), s.part.MayTake f ∧ f.kind = 0x15 ∧ f.payload.length = 5 ∧ s.part.feed.transport = .loaded
          ∧ (byteAt f.payload 0).testBit 0 = false ∧ (byteAt f.payload 0).testBit 1 = true
          ∧ s.part.settings.trimLow ≤ s.part.settings.trimHigh :=
  ⟨meets Part.reset (request 0x15 [0, 0, 0, 0]) (by decide), meets Part.reset (tempo 1 70 0) (by decide +kernel),
    meets (inState .loaded) (tempo 1 201 0) (by decide +kernel),
    meets (inState .loaded) (tempo 1 10 0) (by decide +kernel),
    meets (inState .loaded) (tempo 2 0 1101) (by decide +kernel)⟩

/-- A running part at a fraction, with an increment of 1. -/
def ticking (fraction rows : Nat) : State :=
  { pending := []
    part := { rolling .running 0 rows with
      feed := { (rolling .running 0 rows).feed with fraction := fraction, q := 1 } } }

theorem witness_FeedTickMoves :
    (∃ s : State, s.part.power = .on ∧ s.part.feed.transport ≠ .running)
      ∧ (∃ s : State, s.part.power = .on ∧ s.part.feed.transport = .running
          ∧ s.part.feed.fraction + s.part.feed.q = 65535)
      ∧ (∃ s : State, s.part.power = .on ∧ s.part.feed.transport = .running
          ∧ s.part.feed.fraction + s.part.feed.q = 65536 ∧ s.part.ring.rows = [] ∧ s.part.settings.starveHold ≠ 0)
      ∧ (∃ s : State, s.part.power = .on ∧ s.part.feed.transport = .running
          ∧ s.part.feed.fraction + s.part.feed.q = 65536 ∧ s.part.ring.rows = [] ∧ s.part.settings.starveHold = 0)
      ∧ ∃ (s : State) (row : StoredRow) (rest : List StoredRow), s.part.power = .on ∧ s.part.feed.transport = .running
          ∧ s.part.feed.fraction + s.part.feed.q = 65536 ∧ s.part.ring.rows = row :: rest ∧ PlaySound s.part :=
  ⟨⟨State.reset, rfl, by decide⟩, ⟨ticking 65534 0, rfl, rfl, rfl⟩, ⟨ticking 65535 0, rfl, rfl, rfl, rfl, by decide⟩,
    ⟨{ pending := [], part := { (ticking 65535 0).part with settings := { defaultSettings with starveHold := 0 } } }, rfl,
      rfl, rfl, rfl, rfl⟩,
    ⟨ticking 65535 1, _, _, rfl, rfl, rfl, rfl, playSound ⟨rfl, rfl, rfl⟩ (by decide +kernel)⟩⟩

theorem witness_StarveHoldExpires :
    (∃ s : State, s.part.power = .on ∧ s.part.feed.transport ≠ .starved)
      ∧ (∃ s : State, s.part.power = .on ∧ s.part.feed.transport = .starved ∧ s.part.feed.starve = none)
      ∧ (∃ (s : State) (timer : StarveTimer), s.part.power = .on ∧ s.part.feed.transport = .starved
          ∧ s.part.feed.starve = some timer ∧ s.part.pedals.damper.state ≠ .waiting
          ∧ ∃ k, (s.part.key k).state = .hold)
      ∧ ∀ origin : WaitOrigin, ∃ (s : State) (timer : StarveTimer), s.part.power = .on
          ∧ s.part.feed.transport = .starved ∧ s.part.feed.starve = some timer ∧ s.part.pedals.damper.state = .waiting
          ∧ s.part.pedals.damper.origin = some origin ∧ BudgetSound s.part :=
  ⟨⟨State.reset, rfl, by decide⟩, ⟨asking (inState .starved) (request 0 []), rfl, rfl, rfl⟩,
    ⟨asking { holding .roll with
        feed := { (inState .starved).feed with starve := some { started := 0, hold := 250 } } } (request 0 []), _, rfl,
      rfl, rfl, by decide, 10, by decide +kernel⟩,
    fun origin => ⟨asking { waiting .damper origin with
        feed := { (inState .starved).feed with starve := some { started := 0, hold := 250 } } } (request 0 []), _, rfl,
      rfl, rfl, rfl, rfl, budgetSound_of_checks (budgetChecks_waiting origin)⟩⟩

theorem witness_ExpressionTickGlides :
    (∃ s : State, s.part.power = .on ∧ s.part.feed.transport ≠ .running)
      ∧ (∃ s : State, s.part.power = .on ∧ s.part.feed.transport = .running
          ∧ s.part.settings.railMode.get .bass = .auto)
      ∧ ∃ s : State, s.part.power = .on ∧ s.part.feed.transport = .running
          ∧ ∀ h, s.part.settings.railMode.get h ≠ .auto :=
  ⟨⟨State.reset, rfl, by decide⟩, ⟨asking (inState .running) (request 0 []), rfl, rfl, rfl⟩,
    ⟨asking { inState .running with
        settings := { defaultSettings with railMode := { bass := .up, treble := .roll } } } (request 0 []), rfl, rfl,
      fun h => by cases h <;> decide⟩⟩

theorem witness_HeatTickCools :
    (∃ s : State, s.part.power = .on ∧ ∀ k, (s.part.key k).pending = none)
      ∧ ∃ (s : State) (plan : Plan), s.part.power = .on ∧ BudgetSound s.part ∧ (s.part.key 10).pending = some plan
          ∧ (s.part.key 10).resting = true
          ∧ ∀ j, ((s.part.key j).state = .release ∧ (s.part.key j).guardDone = true ∧ (s.part.key j).pending ≠ none
            ∧ (s.part.key j).heat - ((s.part.key j).heat + 63) / 64 < s.part.settings.heatSoft) ↔ j = 10 :=
  ⟨⟨State.reset, rfl, by decide +kernel⟩,
    ⟨asking rested (request 0 []), aPlan 10 .direct, rfl, budgetSound_of_checks (by decide +kernel), by decide +kernel,
      by decide +kernel, by decide +kernel⟩⟩

/-- The pair of chain bits of a line. -/
def pairOf (bits : BitVec 182) (m : LineNo) : Nat :=
  (bits.getLsbD (2 * m.val)).toNat + 2 * (bits.getLsbD (2 * m.val + 1)).toNat

theorem witness_ChainReadFaults :
    (∃ (s : State) (bits : BitVec 182), s.part.power = .on ∧ bits = 0)
      ∧ (∃ (s : State) (bits : BitVec 182), s.part.power = .on ∧ BudgetSound s.part ∧ pairOf bits (keyLineNo 0) ≠ 0
          ∧ pairOf bits (keyLineNo 11) ≠ 0 ∧ (s.part.key 11).state = .queued ∧ pairOf bits (keyLineNo 10) = 0
          ∧ (s.part.key 10).state ≠ .queued)
      ∧ (∃ (s : State) (bits : BitVec 182), s.part.power = .on ∧ BudgetSound s.part
          ∧ pairOf bits (pedalLineNo .trebleRail) ≠ 0 ∧ (s.part.pedal .trebleRail).fault = .none)
      ∧ ∃ (s : State) (bits : BitVec 182), s.part.power = .on ∧ BudgetSound s.part
          ∧ pairOf bits (pedalLineNo .damper) ≠ 0 ∧ (s.part.pedal .damper).fault ≠ .none :=
  ⟨⟨State.reset, 0, rfl, rfl⟩,
    ⟨asking queued (request 0 []), 1#182 ||| (3#182 <<< 22), rfl, budgetSound_of_checks budgetChecks_queued,
      by decide +kernel, by decide +kernel, by decide +kernel, by decide +kernel, by decide +kernel⟩,
    ⟨State.reset, 3#182 <<< 180, rfl, budgetSound_of_checks budgetChecks_reset, by decide +kernel, rfl⟩,
    ⟨asking (withPedal .damper (fun r => { r with faulted := true, fault := .overtemp }) Part.reset) (request 0 []),
      1#182 <<< 176, rfl, budgetSound_of_checks (by decide +kernel), by decide +kernel, by decide⟩⟩

/-- The part at reset with key 87 FAULTED. -/
def faultedKey : Part :=
  withKey 87 (fun l => { l with state := .faulted, fault := .openCoil }) Part.reset

/-- The part with the treble rail faulted. -/
def faultedRail (p : Part) : Part :=
  withPedal .trebleRail (fun r => { r with faulted := true, fault := .openCoil }) p

/-- The part with a line still reported faulty. -/
def reporting (m : LineNo) (p : Part) : Part :=
  { p with drives := { p.drives with reported := p.drives.reported.set m .openCoil } }

theorem witness_LineRestored :
    (∃ (s : State) (f : Frame), s.part.MayTake f ∧ f.kind = 0x33 ∧ f.payload.length = 0)
      ∧ (∃ (s : State) (f : Frame), s.part.MayTake f ∧ f.kind = 0x33 ∧ f.payload.length = 1 ∧ byteAt f.payload 0 = 91)
      ∧ (∃ (s : State) (f : Frame), s.part.MayTake f ∧ f.kind = 0x33 ∧ f.payload.length = 1 ∧ byteAt f.payload 0 = (87 : KeyNo).val
          ∧ (s.part.key 87).state ≠ .faulted)
      ∧ (∃ (s : State) (f : Frame), s.part.MayTake f ∧ f.kind = 0x33 ∧ f.payload.length = 1 ∧ byteAt f.payload 0 = (87 : KeyNo).val
          ∧ (s.part.key 87).state = .faulted ∧ s.part.drives.reported[keyLineNo 87] ≠ .none)
      ∧ (∃ (s : State) (f : Frame), s.part.MayTake f ∧ f.kind = 0x33 ∧ f.payload.length = 1 ∧ byteAt f.payload 0 = (87 : KeyNo).val
          ∧ (s.part.key 87).state = .faulted ∧ s.part.drives.reported[keyLineNo 87] = .none)
      ∧ (∃ (s : State) (f : Frame), s.part.MayTake f ∧ f.kind = 0x33 ∧ f.payload.length = 1
          ∧ byteAt f.payload 0 = (pedalLineNo .damper).val ∧ (s.part.pedal .damper).fault = .none)
      ∧ (∃ (s : State) (f : Frame), s.part.MayTake f ∧ f.kind = 0x33 ∧ f.payload.length = 1
          ∧ byteAt f.payload 0 = (pedalLineNo .trebleRail).val ∧ (s.part.pedal .trebleRail).fault ≠ .none
          ∧ s.part.drives.reported[pedalLineNo .trebleRail] ≠ .none)
      ∧ (∃ (s : State) (f : Frame), s.part.MayTake f ∧ f.kind = 0x33 ∧ f.payload.length = 1
          ∧ byteAt f.payload 0 = (pedalLineNo .trebleRail).val ∧ (s.part.pedal .trebleRail).fault ≠ .none
          ∧ s.part.drives.reported[pedalLineNo .trebleRail] = .none ∧ s.part.inPlay = false)
      ∧ ∃ (s : State) (f : Frame), s.part.MayTake f ∧ f.kind = 0x33 ∧ f.payload.length = 1
          ∧ byteAt f.payload 0 = (pedalLineNo .trebleRail).val ∧ (s.part.pedal .trebleRail).fault ≠ .none
          ∧ s.part.drives.reported[pedalLineNo .trebleRail] = .none ∧ s.part.inPlay = true :=
  ⟨meets Part.reset (request 0x33 []) (by decide +kernel), meets Part.reset (request 0x33 [91]) (by decide +kernel),
    meets Part.reset (request 0x33 [87]) (by decide +kernel),
    meets (reporting 87 faultedKey) (request 0x33 [87]) (by decide +kernel),
    meets faultedKey (request 0x33 [87]) (by decide +kernel), meets Part.reset (request 0x33 [88]) (by decide +kernel),
    meets (reporting 90 (faultedRail Part.reset)) (request 0x33 [90]) (by decide +kernel),
    meets (faultedRail Part.reset) (request 0x33 [90]) (by decide +kernel),
    meets (faultedRail (inState .running)) (request 0x33 [90]) (by decide +kernel)⟩

/-- STRIKE KEY with these fields. -/
def strike (key shade hold : Nat) : Frame :=
  request 0x30 ([BitVec.ofNat 8 key] ++ littleEndian 2 shade ++ littleEndian 2 hold)

theorem witness_KeyStruck_refused :
    (∃ (s : State) (f : Frame), s.part.MayTake f ∧ f.kind = 0x30 ∧ f.payload.length = 6)
      ∧ (∃ (s : State) (f : Frame), s.part.MayTake f ∧ f.kind = 0x30 ∧ f.payload.length = 5 ∧ s.part.inPlay = true)
      ∧ (∃ (s : State) (f : Frame), s.part.MayTake f ∧ f.kind = 0x30 ∧ f.payload.length = 5 ∧ s.part.inPlay = false
          ∧ byteAt f.payload 0 = 88)
      ∧ (∃ (s : State) (f : Frame), s.part.MayTake f ∧ f.kind = 0x30 ∧ f.payload.length = 5 ∧ s.part.inPlay = false
          ∧ fieldAt f.payload 1 2 = 1024)
      ∧ (∃ (s : State) (f : Frame), s.part.MayTake f ∧ f.kind = 0x30 ∧ f.payload.length = 5 ∧ s.part.inPlay = false
          ∧ byteAt f.payload 0 = (87 : KeyNo).val ∧ fieldAt f.payload 1 2 = 1023 ∧ (s.part.key 87).state = .faulted)
      ∧ ∃ (s : State) (f : Frame), s.part.MayTake f ∧ f.kind = 0x30 ∧ f.payload.length = 5 ∧ s.part.inPlay = false
          ∧ byteAt f.payload 0 = (10 : KeyNo).val ∧ fieldAt f.payload 1 2 = 1023 ∧ (s.part.key 10).state ≠ .faulted
          ∧ (s.part.key 10).resting = true :=
  ⟨meets Part.reset (request 0x30 (List.replicate 6 0)) (by decide +kernel),
    meets (inState .starved) (strike 0 0 0) (by decide +kernel), meets Part.reset (strike 88 0 0) (by decide +kernel),
    meets Part.reset (strike 87 1024 0) (by decide +kernel), meets faultedKey (strike 87 1023 0) (by decide +kernel),
    meets (releasing none true) (strike 10 1023 0) (by decide +kernel)⟩

theorem witness_KeyStruck_planned :
    (∃ (s : State) (f : Frame), s.part.MayTake f ∧ f.kind = 0x30 ∧ f.payload.length = 5 ∧ s.part.inPlay = false
        ∧ byteAt f.payload 0 = (87 : KeyNo).val ∧ fieldAt f.payload 1 2 = 1023 ∧ (s.part.key 87).state = .idle
        ∧ (s.part.key 87).resting = false ∧ s.part.arbiter.wait = []
        ∧ (s.part.settings.voicing[(87 : KeyNo)].kickDuty + 7) / 8 + s.part.arbiter.unitsInUse
          = s.part.settings.budgetUnits)
      ∧ (∃ (s : State) (f : Frame), s.part.MayTake f ∧ f.kind = 0x30 ∧ f.payload.length = 5 ∧ s.part.inPlay = false
        ∧ byteAt f.payload 0 = (10 : KeyNo).val ∧ fieldAt f.payload 1 2 = 0 ∧ (s.part.key 10).state = .kick
        ∧ (s.part.key 10).resting = false ∧ (s.part.key 10).pending = none)
      ∧ (∃ (s : State) (f : Frame), s.part.MayTake f ∧ f.kind = 0x30 ∧ f.payload.length = 5 ∧ s.part.inPlay = false
        ∧ byteAt f.payload 0 = (10 : KeyNo).val ∧ fieldAt f.payload 1 2 = 0 ∧ (s.part.key 10).state = .release
        ∧ (s.part.key 10).resting = false ∧ (s.part.key 10).pending = none)
      ∧ (∃ (s : State) (f : Frame), s.part.MayTake f ∧ f.kind = 0x30 ∧ f.payload.length = 5 ∧ s.part.inPlay = false
        ∧ byteAt f.payload 0 = (10 : KeyNo).val ∧ fieldAt f.payload 1 2 = 0 ∧ (s.part.key 10).state = .hold
        ∧ (s.part.key 10).resting = false ∧ (s.part.key 10).pending = none)
      ∧ (∃ (s : State) (f : Frame), s.part.MayTake f ∧ f.kind = 0x30 ∧ f.payload.length = 5 ∧ s.part.inPlay = false
        ∧ byteAt f.payload 0 = (11 : KeyNo).val ∧ fieldAt f.payload 1 2 = 0 ∧ (s.part.key 11).state = .queued
        ∧ (s.part.key 11).resting = false ∧ BudgetSound s.part)
      ∧ ∃ (s : State) (f : Frame), s.part.MayTake f ∧ f.kind = 0x30 ∧ f.payload.length = 5 ∧ s.part.inPlay = false
        ∧ byteAt f.payload 0 = (12 : KeyNo).val ∧ fieldAt f.payload 1 2 = 0 ∧ (s.part.key 12).state = .idle
        ∧ (s.part.key 12).resting = false ∧ s.part.arbiter.wait ≠ [] ∧ BudgetSound s.part :=
  ⟨meets (Part.reset.setPlace 88 (some 36)) (strike 87 1023 0) (by decide +kernel),
    meets (kicking .direct) (strike 10 0 5) (by decide +kernel),
    meets (releasing none false) (strike 10 0 5) (by decide +kernel),
    meets (holding .direct) (strike 10 0 5) (by decide +kernel),
    meets queued (strike 11 0 5)
      ⟨rfl, rfl, rfl, by decide +kernel, by decide +kernel, by decide +kernel, by decide +kernel,
        budgetSound_of_checks budgetChecks_queued⟩,
    meets queued (strike 12 0 5)
      ⟨rfl, rfl, rfl, by decide +kernel, by decide +kernel, by decide +kernel, by decide +kernel, by decide,
        budgetSound_of_checks budgetChecks_queued⟩⟩

/-- A roll's onset of a key with no accent, or the host's. -/
def onset (key : KeyNo) (origin : Origin) : Onset :=
  { key := key, half := .bass, origin := origin, onsetRow := none, shade := 512, accent := false, holdTime := none }

/-- A part whose budget of 4 is spent and whose list is full, of the keys 11 to 42. -/
def full : Part :=
  let keys := (List.finRange 88).filter fun k => decide (11 ≤ k.val ∧ k.val ≤ 42)
  keys.foldl (fun p k => withKey k (fun l => { l with state := .queued, queuedOrigin := some .direct }) p)
    ((spent keyEntry).setWait
      (keys.map fun k => { keyEntry with line := keyLineNo k, request := .strike (aPlan k .direct) }))

/-- A part in which key 11 waits at the head for 5 units, with 4 free. -/
def waitingForFive : Part :=
  let e := { keyEntry with cost := 5 }
  { queued.setWait [e] with settings := { defaultSettings with budgetUnits := 8, damperCost := 4, railCost := 4 } }

theorem budgetChecks_full : budgetChecks full = true := by decide +kernel

theorem witness_KeyStruck_drops :
    (∃ (o : Onset) (p : Part), BudgetSound p ∧ (p.key o.key).state = .faulted)
      ∧ ∃ (o : Onset) (p : Part), BudgetSound p ∧ (p.key o.key).state ≠ .faulted ∧ (p.key o.key).resting = true :=
  ⟨⟨onset 87 .roll, faultedKey, budgetSound_of_checks (by decide +kernel), by decide +kernel⟩,
    ⟨onset 10 .roll, rested, budgetSound_of_checks (by decide +kernel), by decide +kernel, by decide +kernel⟩⟩

theorem witness_KeyStruck_requests :
    (∃ (o : Onset) (p : Part), BudgetSound p ∧ (p.key o.key).resting = false ∧ (p.key o.key).state = .idle
        ∧ p.headFor (p.planned o).priority ∧ (p.planned o).cost + p.arbiter.unitsInUse ≤ p.settings.budgetUnits)
      ∧ (∃ (o : Onset) (p : Part), BudgetSound p ∧ (p.key o.key).resting = false ∧ (p.key o.key).state = .idle
        ∧ ¬ p.headFor (p.planned o).priority ∧ p.arbiter.wait.length < 32)
      ∧ (∃ (o : Onset) (p : Part) (last : WaitEntry) (victim : Plan), BudgetSound p ∧ (p.key o.key).resting = false
        ∧ (p.key o.key).state = .idle ∧ ¬ (p.planned o).cost + p.arbiter.unitsInUse ≤ p.settings.budgetUnits
        ∧ p.arbiter.wait.length = 32 ∧ p.arbiter.wait.getLast? = some last ∧ last.request = .strike victim
        ∧ (p.planned o).priority < last.priority)
      ∧ ∃ (o : Onset) (p : Part) (last : WaitEntry) (victim : Plan), BudgetSound p ∧ (p.key o.key).resting = false
        ∧ (p.key o.key).state = .idle ∧ ¬ p.headFor (p.planned o).priority ∧ p.arbiter.wait.length = 32
        ∧ p.arbiter.wait.getLast? = some last ∧ last.request = .strike victim
        ∧ last.priority = (p.planned o).priority :=
  let last : WaitEntry := { keyEntry with line := keyLineNo 42, request := .strike (aPlan 42 .direct) }
  ⟨⟨onset 12 .roll, Part.reset, budgetSound_of_checks budgetChecks_reset, by decide +kernel, by decide +kernel,
      by unfold Part.headFor; decide +kernel, by decide +kernel⟩,
    ⟨onset 12 .direct, queued, budgetSound_of_checks budgetChecks_queued, by decide +kernel, by decide +kernel,
      by unfold Part.headFor; decide +kernel, by decide +kernel⟩,
    ⟨onset 43 .roll, full, last, aPlan 42 .direct, budgetSound_of_checks budgetChecks_full, by decide +kernel,
      by decide +kernel, by decide +kernel, by decide +kernel, by decide +kernel, rfl, by decide +kernel⟩,
    ⟨onset 43 .direct, full, last, aPlan 42 .direct, budgetSound_of_checks budgetChecks_full, by decide +kernel,
      by decide +kernel, by unfold Part.headFor; decide +kernel, by decide +kernel, by decide +kernel, rfl,
      by decide +kernel⟩⟩

theorem witness_KeyStruck_kept :
    (∃ (o : Onset) (p : Part), BudgetSound p ∧ (p.key o.key).resting = false ∧ (p.key o.key).state = .kick
        ∧ (p.key o.key).pending = none)
      ∧ (∃ (o : Onset) (p : Part) (old : Plan), BudgetSound p ∧ (p.key o.key).resting = false
        ∧ (p.key o.key).state = .release ∧ (p.key o.key).pending = some old)
      ∧ (∃ (o : Onset) (p : Part), BudgetSound p ∧ (p.key o.key).resting = false ∧ (p.key o.key).state = .hold
        ∧ (p.key o.key).pending = none)
      ∧ (∃ (o : Onset) (p : Part), ∃ e ∈ p.arbiter.wait, ∃ old, BudgetSound p ∧ (p.key o.key).resting = false
        ∧ (p.key o.key).state = .queued ∧ e.line = keyLineNo o.key ∧ e.request = .strike old
        ∧ p.settings.budgetUnits < (p.planned o).cost + p.arbiter.unitsInUse)
      ∧ ∃ (o : Onset) (p : Part), ∃ e ∈ p.arbiter.wait, ∃ old, BudgetSound p ∧ (p.key o.key).resting = false
        ∧ (p.key o.key).state = .queued ∧ e.line = keyLineNo o.key ∧ e.request = .strike old
        ∧ p.arbiter.wait.head? = some e ∧ e.cost ≠ (p.planned o).cost
        ∧ (p.planned o).cost + p.arbiter.unitsInUse = p.settings.budgetUnits :=
  ⟨⟨onset 10 .roll, kicking .direct, budgetSound_of_checks budgetChecks_kicking, by decide +kernel, by decide +kernel,
      by decide +kernel⟩,
    ⟨onset 10 .roll, releasing (some (aPlan 10 .direct)) false, aPlan 10 .direct,
      budgetSound_of_checks (by decide +kernel), by decide +kernel, by decide +kernel, by decide +kernel⟩,
    ⟨onset 10 .roll, holding .direct, budgetSound_of_checks (by decide +kernel), by decide +kernel, by decide +kernel,
      by decide +kernel⟩,
    ⟨onset 11 .roll, queued, keyEntry, List.mem_singleton.mpr rfl, aPlan 11 .direct,
      budgetSound_of_checks budgetChecks_queued, by decide +kernel, by decide +kernel, rfl, rfl, by decide +kernel⟩,
    ⟨onset 11 .roll, waitingForFive, { keyEntry with cost := 5 }, List.mem_singleton.mpr rfl, aPlan 11 .direct,
      budgetSound_of_checks (by decide +kernel), by decide +kernel, by decide +kernel, rfl, rfl, rfl,
      by decide +kernel, by decide +kernel⟩⟩

theorem witness_ShadeBentAndSpread :
    ∃ c c' x low span : Nat, c ≤ c' ∧ c' = 3 ∧ x = 1023 ∧ 4 ≤ low ∧ low = 400 ∧ span = 600 :=
  ⟨0, 3, 1023, 400, 600, by decide⟩

/-- PLAY PATTERN with these fields. -/
def pattern (key time repeatCount : Nat) (steps : List Nat) : Frame :=
  request 0x31 ([BitVec.ofNat 8 key] ++ littleEndian 2 time ++ [BitVec.ofNat 8 repeatCount, BitVec.ofNat 8 steps.length]
    ++ steps.flatMap (littleEndian 2))

theorem witness_PatternPlayed_requests :
    (∃ (s : State) (f : Frame), s.part.MayTake f ∧ f.kind = 0x31 ∧ f.payload.length = 4)
      ∧ (∃ (s : State) (f : Frame), s.part.MayTake f ∧ f.kind = 0x31 ∧ f.payload.length = 5 + 2 * byteAt f.payload 4 ∧ s.part.inPlay = true)
      ∧ (∃ (s : State) (f : Frame), s.part.MayTake f ∧ f.kind = 0x31 ∧ f.payload.length = 5 + 2 * byteAt f.payload 4
          ∧ s.part.inPlay = false ∧ byteAt f.payload 4 = 17)
      ∧ (∃ (s : State) (f : Frame), s.part.MayTake f ∧ f.kind = 0x31 ∧ f.payload.length = 5 + 2 * byteAt f.payload 4
          ∧ s.part.inPlay = false ∧ f.payload = [87, 20, 0, 1, 1, 255, 3])
      ∧ (∃ (s : State) (f : Frame), s.part.MayTake f ∧ f.kind = 0x31 ∧ f.payload.length = 5 + 2 * byteAt f.payload 4
          ∧ s.part.inPlay = false ∧ f.payload = [87, 208, 7, 0, 1, 255, 255])
      ∧ ∃ (s : State) (f : Frame), s.part.MayTake f ∧ f.kind = 0x31 ∧ f.payload.length = 5 + 2 * byteAt f.payload 4
          ∧ s.part.inPlay = false ∧ byteAt f.payload 4 = 16 ∧ s.part.player ≠ none :=
  ⟨meets Part.reset (request 0x31 [0, 0, 0, 0]) (by decide +kernel),
    meets (inState .running) (pattern 87 20 1 [1023]) (by decide +kernel),
    meets Part.reset (pattern 87 20 1 (List.replicate 17 0)) (by decide +kernel),
    meets Part.reset (pattern 87 20 1 [1023]) (by decide +kernel),
    meets Part.reset (pattern 87 2000 0 [65535]) (by decide +kernel),
    meets { Part.reset with player := some (aPattern none 1) } (pattern 87 20 1 (List.replicate 16 0))
      (by decide +kernel)⟩

/-- The part at reset with a pattern playing. -/
def playing (current : Option Nat) : State :=
  { pending := [], part := { Part.reset with player := some (aPattern current 2) } }

theorem witness_PatternPlayed_steps :
    (∃ s : State, s.part.power = .on ∧ ∀ a i, s.part.player = some a → a.current ≠ some i)
      ∧ (∃ (s : State) (a : Pattern), s.part.power = .on ∧ s.part.player = some a ∧ a.current = none)
      ∧ (∃ s : State, s.part.power = .on ∧ ∀ a, s.part.player = some a → a.current ≠ none)
      ∧ (∃ (s : State) (a : Pattern) (i : Nat), s.part.power = .on ∧ s.part.player = some a ∧ a.current = some i
          ∧ a.steps.getD i none = none)
      ∧ ∃ (s : State) (a : Pattern) (i shade : Nat), s.part.power = .on ∧ s.part.player = some a ∧ a.current = some i
          ∧ a.steps.getD i none = some shade :=
  ⟨⟨State.reset, rfl, fun a i h => by cases h⟩, ⟨playing none, _, rfl, rfl, rfl⟩,
    ⟨playing (some 0), rfl, fun a h => by cases h; decide⟩, ⟨playing (some 1), _, 1, rfl, rfl, rfl, rfl⟩,
    ⟨playing (some 0), _, 0, 200, rfl, rfl, rfl, rfl⟩⟩

theorem witness_PatternCancelled :
    (∃ (s : State) (f : Frame), s.part.MayTake f ∧ f.kind = 0x32 ∧ f.payload.length = 1)
      ∧ (∃ (s : State) (f : Frame), s.part.MayTake f ∧ f.kind = 0x32 ∧ f.payload.length = 0 ∧ ∃ a, s.part.player = some a)
      ∧ ∃ (s : State) (f : Frame), s.part.MayTake f ∧ f.kind = 0x32 ∧ f.payload.length = 0 ∧ s.part.player = none :=
  ⟨meets Part.reset (request 0x32 [0]) (by decide), meets (playing none).part (request 0x32 []) ⟨rfl, rfl, _, rfl⟩,
    meets Part.reset (request 0x32 []) (by decide)⟩

theorem witness_KickRunsOut :
    (∃ (s : State) (k : KeyNo), s.part.power = .on ∧ (s.part.key k).state ≠ .kick)
      ∧ (∃ (s : State) (k : KeyNo) (plan : Plan), s.part.power = .on ∧ (s.part.key k).state = .kick
          ∧ (s.part.key k).plan = some plan ∧ (s.part.key k).short = false ∧ (s.part.key k).pending = none
          ∧ BudgetSound s.part)
      ∧ ∃ (s : State) (k : KeyNo) (plan : Plan), s.part.power = .on ∧ (s.part.key k).state = .kick
          ∧ (s.part.key k).plan = some plan ∧ (s.part.key k).short = true ∧ BudgetSound s.part :=
  ⟨⟨State.reset, 87, rfl, by decide +kernel⟩,
    ⟨asking (kicking .direct) (request 0 []), 10, aPlan 10 .direct, rfl, by decide +kernel, by decide +kernel,
      by decide +kernel, by decide +kernel, budgetSound_of_checks budgetChecks_kicking⟩,
    ⟨asking (withKey 10 (fun l => { l with short := true }) (kicking .direct)) (request 0 []), 10, aPlan 10 .direct,
      rfl, by decide +kernel, by decide +kernel, by decide +kernel, budgetSound_of_checks (by decide +kernel)⟩⟩

theorem witness_HoldAndGuardTimed_holds :
    (∃ (s : State) (k : KeyNo), s.part.power = .on ∧ (s.part.key k).state ≠ .hold)
      ∧ (∃ (s : State) (k : KeyNo) (plan : Plan), s.part.power = .on ∧ (s.part.key k).state = .hold
          ∧ (s.part.key k).plan = some plan ∧ plan.origin = .roll)
      ∧ (∃ (s : State) (k : KeyNo) (plan : Plan), s.part.power = .on ∧ (s.part.key k).state = .hold
          ∧ (s.part.key k).plan = some plan ∧ plan.origin ≠ .roll)
      ∧ ∃ (s : State) (k : KeyNo) (plan : Plan), s.part.power = .on ∧ (s.part.key k).state = .hold
          ∧ (s.part.key k).plan = some plan ∧ (s.part.key k).resting = false
          ∧ s.part.settings.heatHard = (s.part.key k).heat + plan.holdDuty / 4 :=
  ⟨⟨State.reset, 87, rfl, by decide +kernel⟩,
    ⟨asking (holding .roll) (request 0 []), 10, aPlan 10 .roll, rfl, by decide +kernel, by decide +kernel, by decide⟩,
    ⟨asking (holding .direct) (request 0 []), 10, aPlan 10 .direct, rfl, by decide +kernel, by decide +kernel,
      by decide⟩,
    ⟨asking (withKey 10 (fun l => { l with heat := 19998 }) (holding .direct)) (request 0 []), 10, aPlan 10 .direct,
      rfl, by decide +kernel, by decide +kernel, by decide +kernel, by decide +kernel⟩⟩

theorem witness_HoldAndGuardTimed_guards :
    (∃ (s : State) (k : KeyNo), s.part.power = .on ∧ (s.part.key k).state ≠ .release)
      ∧ (∃ (s : State) (k : KeyNo), s.part.power = .on ∧ (s.part.key k).state = .release
          ∧ (s.part.key k).guardDone = true)
      ∧ (∃ (s : State) (k : KeyNo), s.part.power = .on ∧ (s.part.key k).state = .release
          ∧ (s.part.key k).guardDone = false ∧ (s.part.key k).pending = none)
      ∧ (∃ (s : State) (k : KeyNo), s.part.power = .on ∧ (s.part.key k).state = .release
          ∧ (s.part.key k).guardDone = false ∧ (s.part.key k).pending ≠ none ∧ (s.part.key k).resting = true)
      ∧ ∃ (s : State) (k : KeyNo) (plan : Plan), s.part.power = .on ∧ (s.part.key k).state = .release
          ∧ (s.part.key k).guardDone = false ∧ (s.part.key k).pending = some plan ∧ plan.line = k
          ∧ (s.part.key k).resting = false ∧ s.part.arbiter.wait = []
          ∧ plan.cost + s.part.arbiter.unitsInUse = s.part.settings.budgetUnits ∧ BudgetSound s.part :=
  ⟨⟨State.reset, 87, rfl, by decide +kernel⟩,
    ⟨asking (withKey 10 (fun l => { l with guardDone := true }) (releasing none false)) (request 0 []), 10, rfl,
      by decide +kernel, by decide +kernel⟩,
    ⟨asking (releasing none false) (request 0 []), 10, rfl, by decide +kernel, by decide +kernel, by decide +kernel⟩,
    ⟨asking (releasing (some (aPlan 10 .direct)) true) (request 0 []), 10, rfl, by decide +kernel, by decide +kernel,
      by decide +kernel, by decide +kernel⟩,
    ⟨asking { releasing (some (aPlan 10 .direct)) false with
        settings := { defaultSettings with budgetUnits := 4, damperCost := 4 } } (request 0 []), 10, aPlan 10 .direct,
      rfl, by decide +kernel, by decide +kernel, by decide +kernel, by decide, by decide +kernel, rfl,
      by decide +kernel, budgetSound_of_checks (by decide +kernel)⟩⟩

theorem witness_WaitDeadlinePasses :
    (∃ (s : State) (m : LineNo), s.part.power = .on ∧ ¬ s.part.hasEntry m)
      ∧ (∃ (s : State) (k : KeyNo), ∃ e ∈ s.part.arbiter.wait, s.part.power = .on ∧ e.line = keyLineNo k
          ∧ BudgetSound s.part)
      ∧ ∀ origin : WaitOrigin, ∃ (s : State) (d : Pedal), ∃ e ∈ s.part.arbiter.wait, s.part.power = .on
          ∧ e.line = pedalLineNo d ∧ (s.part.pedal d).origin = some origin ∧ BudgetSound s.part := by
  refine ⟨⟨State.reset, 90, rfl, ?_⟩, ⟨asking queued (request 0 []), 11, keyEntry, ?_⟩, fun origin => ?_⟩
  · rintro ⟨e, h, -⟩
    cases h
  · exact ⟨List.mem_singleton.mpr rfl, rfl, rfl, budgetSound_of_checks budgetChecks_queued⟩
  · exact ⟨asking (waiting .damper origin) (request 0 []), .damper, pedalEntry .damper, List.mem_singleton.mpr rfl, rfl,
      rfl, rfl, budgetSound_of_checks (budgetChecks_waiting origin)⟩

theorem witness_PedalTimersEnd :
    (∃ (s : State) (d : Pedal), s.part.power = .on ∧ (s.part.pedal d).state ≠ .lifting
        ∧ (s.part.pedal d).state ≠ .dropping)
      ∧ (∃ (s : State) (d : Pedal), s.part.power = .on ∧ (s.part.pedal d).state = .dropping)
      ∧ ∀ mark : Bool, ∃ (s : State) (d : Pedal), s.part.power = .on ∧ (s.part.pedal d).state = .lifting
          ∧ (s.part.pedal d).dropMark = mark ∧ BudgetSound s.part := by
  refine ⟨⟨State.reset, .damper, rfl, by decide, by decide⟩, ⟨asking (railIn .dropping) (request 0 []), .bassRail, rfl, rfl⟩,
    fun mark => ⟨asking (lifting .damper mark) (request 0 []), .damper, rfl, rfl, rfl, ?_⟩⟩
  cases mark <;> exact budgetSound_of_checks (by decide +kernel)

/-! ### Witnesses of what every step keeps: a step from reset, and the invariant there -/

/-- A step that can be taken from reset. -/
theorem step_from_reset : ∃ t, step { State.reset with pending := [.powerFail] } = .next t :=
  ⟨_, rfl⟩

theorem ringSound_reset : RingSound Part.reset := by
  unfold RingSound RowRing.sound
  decide +kernel

theorem feedSound_reset : FeedSound Part.reset := by
  unfold FeedSound
  decide +kernel

theorem shadesSound_reset : ShadesSound Part.reset := by
  intro h
  cases h <;> decide +kernel

theorem heatSound_reset : HeatSound Part.reset := by
  unfold HeatSound
  decide +kernel

theorem witness_SettingsStaySound :
    ∃ s t : State, SettingsSound s.part ∧ step s = .next t :=
  ⟨{ State.reset with pending := [.powerFail] }, _, settingsSound_reset, rfl⟩

theorem witness_RollStaysSound :
    ∃ s t : State, SettingsSound s.part ∧ RingSound s.part ∧ FeedSound s.part ∧ ShadesSound s.part ∧ LeadSound s.part
      ∧ step s = .next t :=
  ⟨{ State.reset with pending := [.powerFail] }, _, settingsSound_reset, ringSound_reset, feedSound_reset,
    shadesSound_reset, by unfold LeadSound; decide +kernel, rfl⟩

theorem witness_HistoryStaysSound : ∃ s t : State, s.part.arbiter.historySound ∧ step s = .next t :=
  ⟨{ State.reset with pending := [.powerFail] }, _, by unfold KickArbiter.historySound; decide +kernel, rfl⟩

theorem witness_BudgetStaysKept : ∃ s t : State, BudgetSound s.part ∧ s.part.arbiter.wait ≠ [] ∧ step s = .next t :=
  ⟨{ pending := [.powerFail], part := queued }, _, budgetSound_of_checks budgetChecks_queued, by decide, rfl⟩

theorem witness_DrivesStaySound : ∃ s t : State, BudgetSound s.part ∧ DriveSound s.part ∧ step s = .next t := by
  refine ⟨{ State.reset with pending := [.powerFail] }, _, budgetSound_of_checks budgetChecks_reset, fun k => ?_, rfl⟩
  have h : Part.reset.key k = KeyLine.atReset defaultSettings := by simp [Part.key, Part.reset]
  change (_ → _ → (Part.reset.key k).drive.duty = none) ∧ ∀ plan, (Part.reset.key k).plan = some plan → _
  rw [h]
  exact ⟨fun _ _ => rfl, fun plan hp => by cases hp⟩

theorem witness_HeatStaysSound : ∃ s t : State, SettingsSound s.part ∧ HeatSound s.part ∧ step s = .next t :=
  ⟨{ State.reset with pending := [.powerFail] }, _, settingsSound_reset, heatSound_reset, rfl⟩

theorem witness_LinkStaysSound : ∃ s t : State, LinkSound s.part ∧ step s = .next t :=
  ⟨{ State.reset with pending := [.powerFail] }, _, ⟨.inl rfl, by decide +kernel, by decide +kernel⟩, rfl⟩

theorem witness_RowEventsActed_handed :
    (∃ (p : Part) (t : TrackNo), p.settings.trackMap[t].function = .none)
      ∧ (∃ (p : Part) (t : TrackNo), p.settings.trackMap[t].function = .key ∧ mapLegal p.settings.trackMap)
      ∧ (∃ (p : Part) (t : TrackNo), p.settings.trackMap[t].function.isExpression = true)
      ∧ ∀ f : TrackFunction, f = .damperLift ∨ f = .damperFeather ∨ f = .soft →
          ∃ (p : Part) (t : TrackNo), p.settings.trackMap[t].function = f := by
  have pick : ∀ f : TrackFunction, (∃ t, (defaultEntry t).function = f) →
      ∃ (p : Part) (t : TrackNo), p.settings.trackMap[t].function = f := fun f ⟨t, h⟩ =>
    ⟨Part.reset, t, by rw [show Part.reset.settings.trackMap[t] = defaultEntry t from defaultMap_get t]; exact h⟩
  refine ⟨pick .none (by decide +kernel), ?_, ?_, ?_⟩
  · obtain ⟨t, h⟩ : ∃ t, (defaultEntry t).function = .key := by decide +kernel
    refine ⟨Part.reset, t, ?_, defaults_legal.1.2.2.2.2.2.2.2.1⟩
    rw [show Part.reset.settings.trackMap[t] = defaultEntry t from defaultMap_get t]
    exact h
  · obtain ⟨p, t, h⟩ := pick .swell (by decide +kernel)
    exact ⟨p, t, by rw [h]; rfl⟩
  · rintro f (rfl | rfl | rfl) <;> exact pick _ (by decide +kernel)

theorem witness_RowEventsActed_noteOff :
    (∃ (k : KeyNo) (p : Part), BudgetSound p ∧ (p.key k).state = .idle)
      ∧ (∀ origin : Origin, ∃ (k : KeyNo) (p : Part), BudgetSound p ∧ (p.key k).state = .queued
          ∧ (p.key k).queuedOrigin = some origin)
      ∧ (∃ (k : KeyNo) (p : Part) (plan : Plan), BudgetSound p ∧ (p.key k).state = .release
          ∧ (p.key k).pending = some plan ∧ plan.origin = .roll)
      ∧ (∃ (k : KeyNo) (p : Part), BudgetSound p ∧ (p.key k).state = .release ∧ (p.key k).pending = none)
      ∧ ∀ origin : Origin, (∃ (k : KeyNo) (p : Part) (plan : Plan), BudgetSound p ∧ (p.key k).state = .kick
            ∧ (p.key k).pending = none ∧ (p.key k).plan = some plan ∧ plan.origin = origin)
          ∧ ∃ (k : KeyNo) (p : Part) (plan : Plan), BudgetSound p ∧ (p.key k).state = .hold
            ∧ (p.key k).plan = some plan ∧ plan.origin = origin := by
  refine ⟨⟨87, Part.reset, budgetSound_of_checks budgetChecks_reset, by decide +kernel⟩, fun origin => ?_,
    ⟨10, releasing (some (aPlan 10 .roll)) false, aPlan 10 .roll, budgetSound_of_checks (by decide +kernel),
      by decide +kernel, by decide +kernel, rfl⟩,
    ⟨10, releasing none false, budgetSound_of_checks (by decide +kernel), by decide +kernel, by decide +kernel⟩,
    fun origin => ⟨⟨10, kicking origin, aPlan 10 origin, ?_⟩, ⟨10, holding origin, aPlan 10 origin, ?_⟩⟩⟩
  · refine ⟨11, withKey 11 (fun l => { l with queuedOrigin := some origin }) queued, ?_⟩
    cases origin <;> exact ⟨budgetSound_of_checks (by decide +kernel), by decide +kernel, by decide +kernel⟩
  · cases origin <;> exact ⟨budgetSound_of_checks (by decide +kernel), by decide +kernel, by decide +kernel,
      by decide +kernel, rfl⟩
  · cases origin <;> exact ⟨budgetSound_of_checks (by decide +kernel), by decide +kernel, by decide +kernel, rfl⟩

/-- The damper with its record changed, the budget kept. -/
def damperIn (state : PedalState) (depth : Depth) : Part :=
  withPedal .damper (fun r => { r with state := state, depth := depth }) Part.reset

theorem witness_RowEventsActed_pedals :
    (∀ faulted : Bool, ∃ p : Part, BudgetSound p ∧ (p.pedal .damper).state = .lowered
        ∧ (p.pedal .damper).faulted = faulted)
      ∧ (∃ p : Part, BudgetSound p ∧ (p.pedal .damper).state = .dropping)
      ∧ (∀ origin : WaitOrigin, ∃ p : Part, BudgetSound p ∧ (p.pedal .damper).state = .waiting
        ∧ (p.pedal .damper).origin = some origin)
      ∧ (∃ p : Part, BudgetSound p ∧ (p.pedal .damper).state = .lifting)
      ∧ (∀ depth : Depth, ∃ p : Part, BudgetSound p ∧ (p.pedal .damper).state = .raised
        ∧ (p.pedal .damper).depth = depth)
      ∧ (∃ p : Part, BudgetSound p ∧ (p.pedal .damper).state = .lowered
        ∧ p.settings.budgetUnits < p.settings.damperCost + p.arbiter.unitsInUse ∧ p.arbiter.wait.length < 32)
      ∧ ∃ (p : Part) (last : WaitEntry) (victim : Plan), BudgetSound p ∧ (p.pedal .damper).state = .lowered
        ∧ p.settings.budgetUnits < p.settings.damperCost + p.arbiter.unitsInUse ∧ p.arbiter.wait.length = 32
        ∧ p.arbiter.wait.getLast? = some last ∧ last.request = .strike victim := by
  refine ⟨fun b => ⟨withPedal .damper (fun r => { r with faulted := b }) Part.reset, ?_⟩,
    ⟨damperIn .dropping .full, budgetSound_of_checks (by decide +kernel), rfl⟩,
    fun origin => ⟨waiting .damper origin, budgetSound_of_checks (budgetChecks_waiting origin), rfl, rfl⟩,
    ⟨lifting .damper false, budgetSound_of_checks (by decide +kernel), rfl⟩,
    fun depth => ⟨damperIn .raised depth, ?_⟩,
    ⟨queued, budgetSound_of_checks budgetChecks_queued, rfl, by decide +kernel, by decide +kernel⟩,
    ⟨full, { keyEntry with line := keyLineNo 42, request := .strike (aPlan 42 .direct) }, aPlan 42 .direct,
      budgetSound_of_checks budgetChecks_full, by decide +kernel, by decide +kernel, by decide +kernel,
      by decide +kernel, rfl⟩⟩
  · cases b <;> exact ⟨budgetSound_of_checks (by decide +kernel), rfl, rfl⟩
  · cases depth <;> exact ⟨budgetSound_of_checks (by decide +kernel), rfl, rfl⟩

end Sys2Proof.Tests
end

section
/-! PROOFS. READ SETTING of an item, and the values of TrackMap and CueSlot (R41, R61, R172). -/

namespace Sys2Proof.Machine

/-! ### An index and a payload of two bytes -/

/-- A number of the range is itself. -/
theorem below_val {bound : Nat} (i : Fin bound) : below bound i.val = some i := by
  simp [below]

/-- A number at or beyond the bound is none of the range. -/
theorem below_eq_none {bound n : Nat} (h : bound ≤ n) : below bound n = none := by
  simp [below, h]

/-- A number in one byte is its low byte. -/
theorem littleEndian_one (n : Nat) : littleEndian 1 n = [BitVec.ofNat 8 n] := rfl

/-- A payload of two bytes is its item code and its index. -/
theorem payload_eq_of_length_two {bs : List Byte} (h : bs.length = 2) :
    bs = [BitVec.ofNat 8 (byteAt bs 0), BitVec.ofNat 8 (byteAt bs 1)] := by
  obtain ⟨code, index, rfl⟩ := List.length_eq_two.mp h
  simp [byteAt]

/-! ### The value of an indexed item -/

/-- READ SETTING of an entry of the track map reads the stored entry (R41). -/
theorem readItem_trackMap (t : TrackNo) (p : Part) :
    readItem .trackMap t.val p = some p.settings.trackMap[t].bytes := by
  simp [readItem, below_val]

theorem readItem_trackMap_beyond {index : Nat} (h : 112 ≤ index) (p : Part) : readItem .trackMap index p = none := by
  simp [readItem, below_eq_none h]

/-- READ SETTING of a cue slot reads the stored fields and the three values that software cannot write (R61). -/
theorem readItem_cueSlot (i : Fin 4) (p : Part) : readItem .cueSlot i.val p = some (cueSlotReading i p) := by
  simp [readItem, below_val]

theorem readItem_cueSlot_beyond {index : Nat} (h : 4 ≤ index) (p : Part) : readItem .cueSlot index p = none := by
  simp [readItem, below_eq_none h]

/-! ### The reply of READ SETTING -/

theorem rowOf_readSetting {f : Frame} (h : f.kind = 0x21) : rowOf f = .readSetting := by
  simp [rowOf, h]

/-- READ SETTING completes with the part as it was, whatever it answers. -/
theorem exec_readSetting {s : State} {f : Frame} (h : s.part.MayTake f) (hk : f.kind = 0x21) :
    exec .readSetting s = .next (s.withPart (s.part.replied f (readSettingReply f.payload s.part))) :=
  takeRequest_answer h (rowOf_readSetting hk)

section
variable {payload : List Byte} {item : Item} {p : Part}

/-- A well formed READ SETTING of an item answers OK, what was sent, and the item's value. -/
theorem readSettingReply_of_value {value : List Byte} (hl : payload.length = 2) (hc : byteAt payload 0 = item.code)
    (hv : readItem item (byteAt payload 1) p = some value) :
    readSettingReply payload p
      = [0, BitVec.ofNat 8 item.code, BitVec.ofNat 8 (byteAt payload 1)] ++ value := by
  have hpayload : payload = [BitVec.ofNat 8 item.code, BitVec.ofNat 8 (byteAt payload 1)] :=
    hc ▸ payload_eq_of_length_two hl
  have hreply : readSettingReply payload p = [0] ++ payload ++ value := by
    simp [readSettingReply, hl, itemOf, hc, Item.ofCode_code, hv, Result.bytes, Result.code, littleEndian_one]
  rw [hreply]
  exact congrArg ([0] ++ · ++ value) hpayload

/-- A well formed READ SETTING at an index where the item has no value answers RANGE alone. -/
theorem readSettingReply_of_beyond (hl : payload.length = 2) (hc : byteAt payload 0 = item.code)
    (hv : readItem item (byteAt payload 1) p = none) : readSettingReply payload p = [4] := by
  simp [readSettingReply, hl, itemOf, hc, Item.ofCode_code, hv, Result.bytes, Result.code, littleEndian_one]

end

section
variable {s : State} {f : Frame} {item : Item}

/-- READ SETTING of an item at an index where it has this value. -/
theorem exec_readSetting_of_value {value : List Byte} (h : s.part.MayTake f) (hk : f.kind = 0x21)
    (hl : f.payload.length = 2) (hc : byteAt f.payload 0 = item.code)
    (hv : readItem item (byteAt f.payload 1) s.part = some value) :
    exec .readSetting s = .next (s.withPart (s.part.replied f
      ([0, BitVec.ofNat 8 item.code, BitVec.ofNat 8 (byteAt f.payload 1)] ++ value))) := by
  rw [exec_readSetting h hk, readSettingReply_of_value hl hc hv]

/-- READ SETTING of an item at an index where it has none is refused with RANGE. -/
theorem refuses_readSetting_of_beyond (h : s.part.MayTake f) (hk : f.kind = 0x21) (hl : f.payload.length = 2)
    (hc : byteAt f.payload 0 = item.code) (hv : readItem item (byteAt f.payload 1) s.part = none) :
    Refuses .readSetting s f 4 := by
  rw [Refuses, exec_readSetting h hk, readSettingReply_of_beyond hl hc hv]

end

/-! ### The stored entries, and the values as bytes -/

/-- An entry of a sound part's working map holds its unused fields as 0 (R37). -/
theorem trackMap_legal_of_sound {p : Part} (h : SettingsSound p) (t : TrackNo) : p.settings.trackMap[t].legal := by
  obtain ⟨⟨⟨-, -, -, -, -, -, -, ⟨-, entries⟩, -⟩, -⟩, -⟩ := h
  exact entries t

theorem trackEntry_bytes_eq (e : TrackEntry) :
    e.bytes = [BitVec.ofNat 8 e.function.code, BitVec.ofNat 8 e.key.val, BitVec.ofNat 8 e.half.code,
      BitVec.ofNat 8 e.source.val] := rfl

theorem cueSlotReading_eq (i : Fin 4) (p : Part) :
    cueSlotReading i p
      = littleEndian 14 p.settings.cueSlots[i].pattern.toNat ++ littleEndian 14 p.settings.cueSlots[i].mask.toNat
        ++ [BitVec.ofNat 8 p.settings.cueSlots[i].holdRows, BitVec.ofNat 8 p.settings.cueSlots[i].action.code]
        ++ littleEndian 2 p.settings.cueSlots[i].parameter
        ++ [if p.settings.cueSlots[i].once then 1 else 0, BitVec.ofNat 8 p.cues.runs[i].count,
          if p.cues.runs[i].spent then 1 else 0, if p.cues.valid then 1 else 0] := by
  simp [cueSlotReading, CueSlot.bytes, flagByte, littleEndian_one]

/-- Settles O15: the value READ SETTING finds at the index, or that it finds none, decides its one reply. -/
theorem mapAndCueSlotRead : Obligations.MapAndCueSlotRead := by
  intro s f hf hk hl
  refine ⟨fun t hc ht sound => ?_, fun hc hi => ?_, fun i hc hi => ?_, fun hc hi => ?_⟩
  · obtain ⟨hkey, hhalf⟩ := trackMap_legal_of_sound sound t
    have hv : readItem .trackMap (byteAt f.payload 1) s.part = some s.part.settings.trackMap[t].bytes := by
      rw [ht, readItem_trackMap]
    refine ⟨hkey, hhalf, ?_⟩
    rw [exec_readSetting_of_value (item := .trackMap) hf hk hl hc hv, ht, trackEntry_bytes_eq]
    rfl
  · exact refuses_readSetting_of_beyond (item := .trackMap) hf hk hl hc (readItem_trackMap_beyond hi _)
  · have hv := hi ▸ readItem_cueSlot i s.part
    have hcode : BitVec.ofNat 8 Item.cueSlot.code = 0x18 := rfl
    rw [exec_readSetting_of_value (item := .cueSlot) hf hk hl hc hv, hi, cueSlotReading_eq, hcode]
    simp only [List.append_assoc]
  · exact refuses_readSetting_of_beyond (item := .cueSlot) hf hk hl hc (readItem_cueSlot_beyond hi _)

end Sys2Proof.Machine
end

section
/-! PROOFS. The kick computation's bend and spread (R94). -/

namespace Sys2Proof.Machine

/-! ### Stage 3: the bend sags the middle of the range -/

theorem bentShade_eq (c x : Nat) : bentShade c x = ((4 - c) * x * 1023 + c * x * x) / 4092 := rfl

/-- The bend `c` takes `c * x * (1023 - x)` from the dividend of the straight curve: nothing at the two ends of the
range, and more for each larger bend. -/
theorem bentShade_eq_sag {c x : Nat} (hc : c ≤ 3) (hx : x ≤ 1023) :
    bentShade c x = (4092 * x - c * x * (1023 - x)) / 4092 := by
  have hsag : (4 - c) * x * 1023 + c * x * x + c * x * (1023 - x) = 4092 * x := by
    have hc4 : c ≤ 4 := by omega
    zify [hc4, hx]
    ring
  rw [bentShade_eq, ← hsag, Nat.add_sub_cancel]

theorem bentShade_zero_bend (x : Nat) : bentShade 0 x = x := by
  rw [bentShade_eq]
  omega

theorem bentShade_antitone_bend {c c' x : Nat} (h : c ≤ c') (hc' : c' ≤ 3) (hx : x ≤ 1023) :
    bentShade c' x ≤ bentShade c x := by
  rw [bentShade_eq_sag hc' hx, bentShade_eq_sag (h.trans hc') hx]
  gcongr

theorem bentShade_zero_shade {c : Nat} (hc : c ≤ 3) : bentShade c 0 = 0 := by
  simp [bentShade_eq_sag hc]

theorem bentShade_full_shade {c : Nat} (hc : c ≤ 3) : bentShade c 1023 = 1023 := by
  simp [bentShade_eq_sag hc]

/-- A bent shade is a shade: no bend raises it above the straight curve. -/
theorem bentShade_le {c x : Nat} (hc : c ≤ 3) (hx : x ≤ 1023) : bentShade c x ≤ 1023 :=
  calc bentShade c x ≤ bentShade 0 x := bentShade_antitone_bend c.zero_le hc hx
    _ = x := bentShade_zero_bend x
    _ ≤ 1023 := hx

/-! ### Stage 4: the spread stays in the key's range -/

theorem spreadKick_eq (low span bent : Nat) : spreadKick low span bent = low + span * bent / 1023 := rfl

theorem le_spreadKick (low span bent : Nat) : low ≤ spreadKick low span bent :=
  Nat.le_add_right low _

theorem spreadKick_le {bent : Nat} (low span : Nat) (h : bent ≤ 1023) : spreadKick low span bent ≤ low + span := by
  have hpart : span * bent / 1023 ≤ span :=
    Nat.div_le_of_le_mul (Nat.mul_comm span 1023 ▸ Nat.mul_le_mul_left span h)
  exact Nat.add_le_add_left hpart low

/-- Settles O45: the sag of the bend gives stage 3, and a bent shade of at most 1023 keeps stage 4 in the key's
range. -/
theorem shadeBentAndSpread : Obligations.ShadeBentAndSpread := by
  refine ⟨bentShade_eq, bentShade_zero_bend, fun _ _ _ => bentShade_antitone_bend,
    fun c hc => ⟨bentShade_zero_shade hc, bentShade_full_shade hc⟩, fun _ _ => bentShade_le, spreadKick_eq,
    fun low span c x hc hx hlow hfloor hspan => ?_, by decide⟩
  have hge : low ≤ spreadKick low span (bentShade c x) := le_spreadKick low span _
  have hle : spreadKick low span (bentShade c x) ≤ low + span := spreadKick_le low span (bentShade_le hc hx)
  exact ⟨hge, hle, hlow.trans hge, by omega⟩

end Sys2Proof.Machine
end

section
/-! PROOFS. CANCEL PATTERN (R107). -/

namespace Sys2Proof.Machine

theorem rowOf_cancelPattern {f : Frame} (h : f.kind = 0x32) : rowOf f = .cancelPattern := by
  simp [rowOf, h]

/-- CANCEL PATTERN completes with the part and the reply that the player decides, in every transport state. -/
theorem exec_cancelPattern {s : State} {f : Frame} (h : s.part.MayTake f) (hk : f.kind = 0x32) :
    exec .cancelPattern s = .next (s.withPart
      ((cancelPattern f.payload s.part).2.replied f (cancelPattern f.payload s.part).1)) :=
  takeRequest_answer h (rowOf_cancelPattern hk)

section
variable {payload : List Byte} {p : Part}

theorem cancelPattern_of_length_ne (hl : payload.length ≠ 0) : cancelPattern payload p = ([9], p) :=
  if_pos hl

theorem cancelPattern_of_playing {a : Pattern} (hl : payload.length = 0) (ha : p.player = some a) :
    cancelPattern payload p = ([0, 1] ++ littleEndian 2 a.stepsTaken, { p with player := none }) := by
  rw [cancelPattern, if_neg (not_not.mpr hl), ha]
  rfl

theorem cancelPattern_of_idle (hl : payload.length = 0) (hp : p.player = none) :
    cancelPattern payload p = ([0, 0, 0, 0], p) := by
  have hsame : cancelPlayer p = p := by rw [cancelPlayer, ← hp]
  rw [cancelPattern, if_neg (not_not.mpr hl), hp, hsame]
  rfl

end

/-- Settles O47: the payload's length and the player decide the one reply, and only a pattern in progress is lost. -/
theorem patternCancelled : Obligations.PatternCancelled := by
  intro s f hf hk
  refine ⟨fun hl => ?refused, fun a hl ha => ?playing, fun hl hp => ?idle⟩
  case refused => rw [Refuses, exec_cancelPattern hf hk, cancelPattern_of_length_ne hl]
  case playing => rw [Completes, exec_cancelPattern hf hk, cancelPattern_of_playing hl ha]
  case idle => rw [Completes, exec_cancelPattern hf hk, cancelPattern_of_idle hl hp]

end Sys2Proof.Machine
end

section
/-! PROOFS. IDENTIFY and READ STATUS (R171): where each field of the status snapshot stands. -/

namespace Sys2Proof.Machine

/-! ### Fields of a payload that is written part by part -/

/-- A field that lies in the first part of a payload is read there. -/
@[simp] theorem fieldAt_append_left {a : List Byte} {i w : Nat} (h : i + w ≤ a.length) (b : List Byte) :
    fieldAt (a ++ b) i w = fieldAt a i w := by
  have hpast : w - (a.length - i) = 0 := by omega
  have hin : i - a.length = 0 := by omega
  simp [fieldAt, List.drop_append, List.take_append, hpast]

/-- A field that lies behind the first part of a payload is read in the rest. -/
@[simp] theorem fieldAt_append_right {a : List Byte} {i : Nat} (h : a.length ≤ i) (b : List Byte) (w : Nat) :
    fieldAt (a ++ b) i w = fieldAt b (i - a.length) w := by
  simp [fieldAt, List.drop_append, List.drop_eq_nil_of_le h]

/-- The same, for a field counted from a place behind the first part. -/
theorem fieldAt_append_past {a : List Byte} {n : Nat} (h : a.length ≤ n) (b : List Byte) (j w : Nat) :
    fieldAt (a ++ b) (n + j) w = fieldAt b (n - a.length + j) w := by
  rw [fieldAt_append_right (Nat.le_add_right_of_le h), Nat.sub_add_comm h]

@[simp] theorem fieldAt_littleEndian (w n : Nat) : fieldAt (littleEndian w n) 0 w = n % 256 ^ w := by
  simpa using fieldAt_append [] [] w n

section
variable {α : Type} {write : α → List Byte} {size : Nat}

/-- Records of one size, one after the other. -/
theorem length_flatMap_of_size (hs : ∀ a, (write a).length = size) (as : List α) :
    (as.flatMap write).length = size * as.length := by
  induction as with
  | nil => rfl
  | cons a as ih => rw [List.flatMap_cons, List.length_append, hs, ih, List.length_cons, Nat.mul_succ, Nat.add_comm]

/-- A field of the record `i` among records of one size is read in that record. -/
theorem fieldAt_flatMap_of_size (hs : ∀ a, (write a).length = size) {j w : Nat} (hj : j + w ≤ size) (as : List α)
    (i : Nat) (hi : i < as.length) : fieldAt (as.flatMap write) (size * i + j) w = fieldAt (write as[i]) j w := by
  induction as generalizing i with
  | nil => simp at hi
  | cons a as ih =>
    rw [List.flatMap_cons]
    cases i with
    | zero =>
      rw [Nat.mul_zero, Nat.zero_add, fieldAt_append_left (by rw [hs]; exact hj)]
      rfl
    | succ i =>
      have hrest : size * (i + 1) + j - (write a).length = size * i + j := by rw [hs, Nat.mul_succ]; omega
      rw [fieldAt_append_right (by rw [hs, Nat.mul_succ]; omega), hrest, ih i (Nat.lt_of_succ_lt_succ hi)]
      rfl

end

/-! ### Values that one byte holds -/

/-- A flag's byte is a field like the others. -/
theorem flagByte_bytes (b : Bool) : [flagByte b] = littleEndian 1 b.toNat := by
  cases b <;> rfl

/-- A bit of a flags byte weighs its power of two. -/
theorem bitIf_eq (b : Bool) (bit : Nat) : bitIf b bit = 2 ^ bit * b.toNat := by
  cases b <;> simp [bitIf]

theorem toNat_lt_byte (b : Bool) : b.toNat < 256 :=
  b.toNat_lt.trans (by decide)

theorem Transport.code_lt (t : Transport) : t.code < 256 := by
  cases t <;> decide

theorem RailMode.code_lt (m : RailMode) : m.code < 256 := by
  cases m <;> decide

theorem PedalState.code_lt (x : PedalState) : x.code < 256 := by
  cases x <;> decide

theorem KeyState.code_lt (x : KeyState) : x.code < 256 := by
  cases x <;> decide

theorem KeyLine.faultCode_lt (l : KeyLine) : l.faultCode < 256 := by
  unfold KeyLine.faultCode
  split
  · cases l.fault <;> decide
  · decide

theorem levelBits_eq (x : HalfExpression) :
    levelBits x
      = x.levels.step1.toNat + 2 * x.levels.step2.toNat + 4 * x.levels.step4.toNat + 8 * x.levels.swell.toNat
        + 16 * x.levels.quick.toNat + 32 * x.levels.accent.toNat + 64 * x.autoUp.toNat := by
  simp [levelBits, bitIf_eq]

theorem levelBits_lt (x : HalfExpression) : levelBits x < 256 := by
  rw [levelBits_eq]
  have := x.levels.step1.toNat_le
  have := x.levels.step2.toNat_le
  have := x.levels.step4.toNat_le
  have := x.levels.swell.toNat_le
  have := x.levels.quick.toNat_le
  have := x.levels.accent.toNat_le
  have := x.autoUp.toNat_le
  omega

theorem pedalMarks_lt (faulted part : Bool) : 128 * faulted.toNat + 64 * part.toNat < 256 := by
  have := faulted.toNat_le
  have := part.toNat_le
  omega

/-- A saturated count fits its four bytes. -/
theorem saturate_lt (n : Nat) : saturate n < 2 ^ 32 := by
  simp only [saturate, Config.countMax]
  omega

/-! ### The parts of the snapshot -/

@[simp] theorem transportStatus_length (f : FeedClock) : (transportStatus f).length = 17 := by
  simp [transportStatus]

@[simp] theorem ringStatus_length (p : Part) : (ringStatus p).length = 10 := by
  simp [ringStatus]

@[simp] theorem halfStatus_length (h : Half) (p : Part) : (halfStatus h p).length = 5 := by
  simp [halfStatus]

theorem halfStatus_eq (h : Half) (p : Part) :
    halfStatus h p
      = littleEndian 2 (p.expression.halves.get h).shade
        ++ (littleEndian 1 (p.expression.halves.get h).swelled.toNat
        ++ (littleEndian 1 (p.settings.railMode.get h).code
        ++ littleEndian 1 (levelBits (p.expression.halves.get h)))) := by
  simp only [halfStatus, flagByte_bytes, List.append_assoc]

@[simp] theorem pedalStatus_length (d : Pedal) (p : Part) : (pedalStatus d p).length = 2 := by
  simp [pedalStatus]

theorem entryStatus_length (now : Time) (e : WaitEntry) : (entryStatus now e).length = 4 := by
  simp [entryStatus]

theorem keyStatus_length (l : KeyLine) : (keyStatus l).length = 4 := by
  simp [keyStatus]

/-- The counters of the snapshot, in their order. -/
def counters (p : Part) : List Nat :=
  [p.tracks.specks, p.tracks.patches, p.link.discarded, p.link.overruns] ++ p.arbiter.outcomes.toList
    ++ [p.arbiter.latePedals, p.arbiter.withdrawals, p.drives.holdCuts, p.feed.starveReleases]

theorem counterStatus_eq (p : Part) : counterStatus p = (counters p).flatMap (littleEndian 4) := rfl

/-- The eight outcomes behind the first four counters. -/
theorem counters_outcome (p : Part) (i : Fin 8) : (counters p)[4 + i.val]? = some p.arbiter.outcomes[i] := by
  rw [counters, List.append_assoc, List.getElem?_append_right (Nat.le_add_right 4 _),
    List.getElem?_append_left (by simp)]
  simp

/-- The four counters behind the outcomes. -/
theorem counters_last (p : Part) (i : Nat) :
    (counters p)[12 + i]?
      = [p.arbiter.latePedals, p.arbiter.withdrawals, p.drives.holdCuts, p.feed.starveReleases][i]? := by
  rw [counters, List.getElem?_append_right (by simp)]
  simp

theorem counters_length (p : Part) : (counters p).length = 16 := by
  simp [counters]

/-- The first 46 bytes of the snapshot, whose places do not hang on the wait list. -/
def fixedStatus (p : Part) : List Byte :=
  Result.ok.bytes ++ (transportStatus p.feed ++ (ringStatus p ++ (halfStatus .bass p ++ (halfStatus .treble p
    ++ (pedalStatus .damper p ++ (pedalStatus .bassRail p ++ (pedalStatus .trebleRail p
    ++ (littleEndian 1 p.arbiter.unitsInUse ++ littleEndian 1 p.arbiter.wait.length))))))))

theorem fixedStatus_length (p : Part) : (fixedStatus p).length = 46 := by
  simp [fixedStatus, Result.bytes]

theorem statusSnapshot_eq (p : Part) :
    statusSnapshot p
      = fixedStatus p ++ (p.arbiter.wait.flatMap (entryStatus p.now)
        ++ (p.drives.keys.toList.flatMap keyStatus ++ counterStatus p)) := by
  simp only [statusSnapshot, fixedStatus, arbiterStatus, List.append_assoc]

theorem waitStatus_length (p : Part) :
    (p.arbiter.wait.flatMap (entryStatus p.now)).length = 4 * p.arbiter.wait.length :=
  length_flatMap_of_size (entryStatus_length p.now) _

theorem keysStatus_length (p : Part) : (p.drives.keys.toList.flatMap keyStatus).length = 352 := by
  rw [length_flatMap_of_size keyStatus_length, Vector.length_toList]

theorem counterStatus_length (p : Part) : (counterStatus p).length = 64 := by
  rw [counterStatus_eq, length_flatMap_of_size (littleEndian_length 4), counters_length]

theorem statusSnapshot_length (p : Part) : (statusSnapshot p).length = 462 + 4 * p.arbiter.wait.length := by
  simp only [statusSnapshot_eq, List.length_append, fixedStatus_length, waitStatus_length, keysStatus_length,
    counterStatus_length]
  omega

/-! ### Where the parts stand -/

section
variable {at_ i j w : Nat} (p : Part)

theorem fieldAt_statusSnapshot_fixed (h : i + w ≤ 46) :
    fieldAt (statusSnapshot p) i w = fieldAt (fixedStatus p) i w := by
  rw [statusSnapshot_eq, fieldAt_append_left (by rw [fixedStatus_length]; exact h)]

/-- The place of a half's five bytes. -/
def halfPlace : Half → Nat
  | .bass => 28
  | .treble => 33

theorem fieldAt_statusSnapshot_half (half : Half) (hj : j + w ≤ 5) (h : at_ = halfPlace half + j) :
    fieldAt (statusSnapshot p) at_ w = fieldAt (halfStatus half p) j w := by
  have hlast : halfPlace half ≤ 33 := by cases half <;> decide
  rw [h, fieldAt_statusSnapshot_fixed p (by omega)]
  cases half <;> simp [halfPlace, fixedStatus, Result.bytes, fieldAt_append_past, hj]

/-- The place of a pedal's two bytes. -/
def pedalPlace : Pedal → Nat
  | .damper => 38
  | .bassRail => 40
  | .trebleRail => 42

theorem fieldAt_statusSnapshot_pedal (d : Pedal) (hj : j + w ≤ 2) (h : at_ = pedalPlace d + j) :
    fieldAt (statusSnapshot p) at_ w = fieldAt (pedalStatus d p) j w := by
  have hlast : pedalPlace d ≤ 42 := by cases d <;> decide
  rw [h, fieldAt_statusSnapshot_fixed p (by omega)]
  cases d <;> simp [pedalPlace, fixedStatus, Result.bytes, fieldAt_append_past, hj]

theorem fieldAt_statusSnapshot_entry (hi : i < p.arbiter.wait.length) (hj : j + w ≤ 4) (h : at_ = 46 + 4 * i + j) :
    fieldAt (statusSnapshot p) at_ w = fieldAt (entryStatus p.now p.arbiter.wait[i]) j w := by
  have hplace : at_ - 46 = 4 * i + j := by omega
  rw [statusSnapshot_eq, fieldAt_append_right (by rw [fixedStatus_length]; omega), fixedStatus_length, hplace,
    fieldAt_append_left (by rw [waitStatus_length]; omega),
    fieldAt_flatMap_of_size (entryStatus_length p.now) hj _ i hi]

theorem fieldAt_statusSnapshot_key (k : KeyNo) (hj : j + w ≤ 4)
    (h : at_ = 46 + 4 * p.arbiter.wait.length + 4 * k.val + j) :
    fieldAt (statusSnapshot p) at_ w = fieldAt (keyStatus (p.key k)) j w := by
  have hplace : at_ - 46 - 4 * p.arbiter.wait.length = 4 * k.val + j := by omega
  have hk : k.val < p.drives.keys.toList.length := by simp
  rw [statusSnapshot_eq, fieldAt_append_right (by rw [fixedStatus_length]; omega), fixedStatus_length,
    fieldAt_append_right (by rw [waitStatus_length]; omega), waitStatus_length, hplace,
    fieldAt_append_left (by rw [keysStatus_length]; omega),
    fieldAt_flatMap_of_size keyStatus_length hj _ k.val hk]
  rfl

theorem fieldAt_statusSnapshot_counter {n : Nat} (hn : (counters p)[i]? = some n)
    (h : at_ = 398 + 4 * p.arbiter.wait.length + 4 * i) : fieldAt (statusSnapshot p) at_ 4 = n % 2 ^ 32 := by
  obtain ⟨hi, hget⟩ := List.getElem?_eq_some_iff.mp hn
  have hplace : at_ - 46 - 4 * p.arbiter.wait.length - 352 = 4 * i + 0 := by omega
  rw [statusSnapshot_eq, fieldAt_append_right (by rw [fixedStatus_length]; omega), fixedStatus_length,
    fieldAt_append_right (by rw [waitStatus_length]; omega), waitStatus_length,
    fieldAt_append_right (by rw [keysStatus_length]; omega), keysStatus_length, hplace, counterStatus_eq,
    fieldAt_flatMap_of_size (littleEndian_length 4) (Nat.le_refl 4) _ i hi, hget, fieldAt_littleEndian]
  rfl

/-! ### The fields -/

/-- Transport, head row, fraction, Q, T, S and d, behind the result. -/
theorem statusSnapshot_transport :
    let r := statusSnapshot p
    fieldAt r 0 1 = 0 ∧ fieldAt r 1 1 = p.feed.transport.code ∧ fieldAt r 2 4 = p.feed.headRow % 2 ^ 32
      ∧ fieldAt r 6 2 = p.feed.fraction % 2 ^ 16 ∧ fieldAt r 8 2 = p.feed.q % 2 ^ 16
      ∧ fieldAt r 10 2 = p.feed.tempo % 2 ^ 16 ∧ fieldAt r 12 2 = p.feed.trim % 2 ^ 16
      ∧ fieldAt r 14 4 = min p.feed.rowsTaken (2 ^ 32 - 1) := by
  have hcode : p.feed.transport.code % 256 = p.feed.transport.code := Nat.mod_eq_of_lt p.feed.transport.code_lt
  have hrows : saturate p.feed.rowsTaken % 2 ^ 32 = min p.feed.rowsTaken (2 ^ 32 - 1) :=
    Nat.mod_eq_of_lt (saturate_lt p.feed.rowsTaken)
  simpa [fieldAt_statusSnapshot_fixed, fixedStatus, transportStatus, Result.bytes, Result.code, hcode] using hrows

/-- Ring occupancy, next-expected and L. -/
theorem statusSnapshot_ring :
    let r := statusSnapshot p
    fieldAt r 18 2 = p.ring.rows.length % 2 ^ 16 ∧ fieldAt r 20 4 = p.ring.nextExpected % 2 ^ 32
      ∧ fieldAt r 24 4 = p.pedals.lead.next % 2 ^ 32 := by
  simp [fieldAt_statusSnapshot_fixed, fixedStatus, ringStatus, Result.bytes]

/-- A half: shade, swelled flag, rail mode, and the six levels with the auto demand. -/
theorem statusSnapshot_half (h : Half) :
    let r := statusSnapshot p
    let x := p.expression.halves.get h
    fieldAt r (halfPlace h) 2 = x.shade % 2 ^ 16 ∧ fieldAt r (halfPlace h + 2) 1 = x.swelled.toNat
      ∧ fieldAt r (halfPlace h + 3) 1 = (p.settings.railMode.get h).code
      ∧ fieldAt r (halfPlace h + 4) 1
        = x.levels.step1.toNat + 2 * x.levels.step2.toNat + 4 * x.levels.step4.toNat + 8 * x.levels.swell.toNat
          + 16 * x.levels.quick.toNat + 32 * x.levels.accent.toNat + 64 * x.autoUp.toNat := by
  intro r x
  rw [← levelBits_eq]
  refine ⟨?shade, ?swelled, ?mode, ?levels⟩
  case shade =>
    rw [fieldAt_statusSnapshot_half p h (j := 0) (by omega) (by omega)]
    simp [halfStatus_eq, x]
  case swelled =>
    rw [fieldAt_statusSnapshot_half p h (by omega) rfl]
    simp [halfStatus_eq, x, Nat.mod_eq_of_lt, toNat_lt_byte]
  case mode =>
    rw [fieldAt_statusSnapshot_half p h (by omega) rfl]
    simp [halfStatus_eq, Nat.mod_eq_of_lt, RailMode.code_lt]
  case levels =>
    rw [fieldAt_statusSnapshot_half p h (by omega) rfl]
    simp [halfStatus_eq, x, Nat.mod_eq_of_lt, levelBits_lt]

/-- A pedal: its state and its marks. -/
theorem statusSnapshot_pedal (d : Pedal) :
    let r := statusSnapshot p
    let x := p.pedal d
    fieldAt r (pedalPlace d) 1 = x.state.code
      ∧ fieldAt r (pedalPlace d + 1) 1
        = 128 * x.faulted.toNat + 64 * (d == Pedal.damper && x.depth == Depth.part).toNat := by
  intro r x
  refine ⟨?state, ?marks⟩
  case state =>
    rw [fieldAt_statusSnapshot_pedal p d (j := 0) (by omega) (by omega)]
    simp [pedalStatus, x, Nat.mod_eq_of_lt, PedalState.code_lt]
  case marks =>
    rw [fieldAt_statusSnapshot_pedal p d (by omega) rfl]
    simp [pedalStatus, bitIf_eq, x, Nat.mod_eq_of_lt, pedalMarks_lt]

/-- The units in use and the number of entries. -/
theorem statusSnapshot_arbiter :
    let r := statusSnapshot p
    fieldAt r 44 1 = p.arbiter.unitsInUse % 2 ^ 8 ∧ fieldAt r 45 1 = p.arbiter.wait.length % 2 ^ 8 := by
  simp [fieldAt_statusSnapshot_fixed, fixedStatus, Result.bytes]

/-- The entry `i` of the wait list: line, priority, cost and age. -/
theorem statusSnapshot_entry (i : Nat) (hi : i < p.arbiter.wait.length) :
    let r := statusSnapshot p
    let e := p.arbiter.wait[i]
    fieldAt r (46 + 4 * i) 1 = e.line.val ∧ fieldAt r (47 + 4 * i) 1 = e.priority % 2 ^ 8
      ∧ fieldAt r (48 + 4 * i) 1 = e.cost % 2 ^ 8
      ∧ fieldAt r (49 + 4 * i) 1 = min ((p.now - e.entered) / 20) 255 := by
  intro r e
  refine ⟨?line, ?priority, ?cost, ?age⟩
  case line =>
    have hline : e.line.val < 256 := e.line.isLt.trans (by decide)
    rw [fieldAt_statusSnapshot_entry p hi (j := 0) (by omega) (by omega)]
    simp [entryStatus, e, Nat.mod_eq_of_lt hline]
  case priority =>
    rw [fieldAt_statusSnapshot_entry p hi (j := 1) (by omega) (by omega)]
    simp [entryStatus, e]
  case cost =>
    rw [fieldAt_statusSnapshot_entry p hi (j := 2) (by omega) (by omega)]
    simp [entryStatus, e]
  case age =>
    rw [fieldAt_statusSnapshot_entry p hi (j := 3) (by omega) (by omega)]
    simp [entryStatus, e, wholeMs]

/-- A key line: state, fault kind and H. -/
theorem statusSnapshot_key (k : KeyNo) :
    let r := statusSnapshot p
    let at_ := 46 + 4 * p.arbiter.wait.length + 4 * k.val
    fieldAt r at_ 1 = (p.key k).state.code ∧ fieldAt r (at_ + 1) 1 = (p.key k).faultCode
      ∧ fieldAt r (at_ + 2) 2 = (p.key k).heat % 2 ^ 16 := by
  intro r at_
  refine ⟨?state, ?fault, ?heat⟩
  case state =>
    rw [fieldAt_statusSnapshot_key p k (j := 0) (by omega) (by omega)]
    simp [keyStatus, Nat.mod_eq_of_lt, KeyState.code_lt]
  case fault =>
    rw [fieldAt_statusSnapshot_key p k (by omega) rfl]
    simp [keyStatus, Nat.mod_eq_of_lt, KeyLine.faultCode_lt]
  case heat =>
    rw [fieldAt_statusSnapshot_key p k (by omega) rfl]
    simp [keyStatus]

/-- The sixteen counters, the eight outcomes among them. -/
theorem statusSnapshot_counters :
    let r := statusSnapshot p
    let at_ := 398 + 4 * p.arbiter.wait.length
    fieldAt r at_ 4 = p.tracks.specks % 2 ^ 32 ∧ fieldAt r (at_ + 4) 4 = p.tracks.patches % 2 ^ 32
      ∧ fieldAt r (at_ + 8) 4 = p.link.discarded % 2 ^ 32 ∧ fieldAt r (at_ + 12) 4 = p.link.overruns % 2 ^ 32
      ∧ (∀ i : Fin 8, fieldAt r (at_ + 16 + 4 * i.val) 4 = p.arbiter.outcomes[i] % 2 ^ 32)
      ∧ fieldAt r (at_ + 48) 4 = p.arbiter.latePedals % 2 ^ 32
      ∧ fieldAt r (at_ + 52) 4 = p.arbiter.withdrawals % 2 ^ 32
      ∧ fieldAt r (at_ + 56) 4 = p.drives.holdCuts % 2 ^ 32
      ∧ fieldAt r (at_ + 60) 4 = p.feed.starveReleases % 2 ^ 32 := by
  intro r at_
  refine ⟨?specks, ?patches, ?discarded, ?overruns, fun i => ?outcome, ?late, ?withdrawn, ?cuts, ?releases⟩
  case specks => exact fieldAt_statusSnapshot_counter p (i := 0) rfl rfl
  case patches => exact fieldAt_statusSnapshot_counter p (i := 1) rfl rfl
  case discarded => exact fieldAt_statusSnapshot_counter p (i := 2) rfl rfl
  case overruns => exact fieldAt_statusSnapshot_counter p (i := 3) rfl rfl
  case outcome => exact fieldAt_statusSnapshot_counter p (counters_outcome p i) (by omega)
  case late => exact fieldAt_statusSnapshot_counter p (counters_last p 0) rfl
  case withdrawn => exact fieldAt_statusSnapshot_counter p (counters_last p 1) rfl
  case cuts => exact fieldAt_statusSnapshot_counter p (counters_last p 2) rfl
  case releases => exact fieldAt_statusSnapshot_counter p (counters_last p 3) rfl

end

/-! ### The two requests -/

section
variable {s : State} {f : Frame} {c : Instr} {read : Part → List Byte}

/-- A request with no payload that only reads answers what it reads, and nothing else changes. -/
theorem takeRequest_read (h : s.part.MayTake f) (hr : rowOf f = c) (hp : f.payload = []) :
    takeRequest c (answer (fixedLength 0 fun _ p => (read p, p))) s
      = .next (s.withPart (s.part.replied f (read s.part))) := by
  rw [takeRequest_answer h hr, fixedLength, if_pos (List.length_eq_zero_iff.mpr hp)]

/-- Any payload on such a request is refused with LENGTH (R165). -/
theorem takeRequest_read_of_payload (h : s.part.MayTake f) (hr : rowOf f = c) (hp : f.payload ≠ []) :
    takeRequest c (answer (fixedLength 0 fun _ p => (read p, p))) s = .next (s.withPart (s.part.replied f [9])) := by
  rw [takeRequest_answer h hr, fixedLength, if_neg (mt List.length_eq_zero_iff.mp hp)]
  rfl

end

theorem rowOf_identify {f : Frame} (h : f.kind = 0x01) : rowOf f = .identify := by
  simp [rowOf, h]

theorem rowOf_readStatus {f : Frame} (h : f.kind = 0x02) : rowOf f = .readStatus := by
  simp [rowOf, h]

theorem identity_eq : identity = [0, 0x88, 0x4B, 1, 112, 91, 0, 8, 32, 64, 4] := rfl

/-- Settles O12: both requests only read, and each field of the snapshot is read in the part of it that carries it. -/
theorem identityAndStatusRead : Obligations.IdentityAndStatusRead := by
  intro s f hf
  refine ⟨fun hk hp => ?identify, fun hk hp => takeRequest_read_of_payload hf (rowOf_identify hk) hp,
    fun hk hp => takeRequest_read_of_payload hf (rowOf_readStatus hk) hp, fun hk hp => ?status⟩
  case identify =>
    rw [← identity_eq]
    exact takeRequest_read (read := fun _ => identity) hf (rowOf_identify hk) hp
  case status =>
    have hlen := statusSnapshot_length s.part
    obtain ⟨result, transport, headRow, fraction, q, tempo, trim, rowsTaken⟩ := statusSnapshot_transport s.part
    obtain ⟨occupancy, nextExpected, lead⟩ := statusSnapshot_ring s.part
    obtain ⟨units, waiting⟩ := statusSnapshot_arbiter s.part
    refine ⟨statusSnapshot s.part, takeRequest_read hf (rowOf_readStatus hk) hp, hlen, fun hfull => ?_, result,
      transport, headRow, fraction, q, tempo, trim, rowsTaken, occupancy, nextExpected, lead, fun h => ?_, fun d => ?_,
      units, waiting, statusSnapshot_entry s.part, statusSnapshot_key s.part, statusSnapshot_counters s.part⟩
    · rw [hlen, hfull]
    · cases h with
      | bass => exact statusSnapshot_half s.part .bass
      | treble => exact statusSnapshot_half s.part .treble
    · cases d with
      | damper => exact statusSnapshot_pedal s.part .damper
      | bassRail => exact statusSnapshot_pedal s.part .bassRail
      | trebleRail => exact statusSnapshot_pedal s.part .trebleRail

end Sys2Proof.Machine
end

section
/-! PROOFS. The queue of commands, the supply and nRESET, and the requests that no command takes (R165, R173, R175). -/

namespace Sys2Proof.Machine

/-! ### The step -/

/-- Settles O1: a step is the front command's, or the idle step's. -/
theorem stepTakesFrontCommand : Obligations.StepTakesFrontCommand := by
  refine ⟨fun _ _ _ => rfl, fun c p h => ?_, fun p h => ?_⟩
  · change idleStep _ = _
    simp only [idleStep, h]
  · change idleStep _ = _
    simp only [idleStep, h, passTime]

/-! ### Commands that come at the wrong moment -/

/-- A command of a line that the part does not have stops (log entry 10). -/
theorem exec_malformed {c : Instr} (h : ¬ c.WellFormed) (s : State) : exec c s = .fault .noSuchLine := by
  cases c <;> simp only [Instr.WellFormed, Instr.wellFormed, decide_eq_true_eq, not_lt, not_true_eq_false] at h
  case kickEnd line => simp only [exec, execKickEnd, onKeyLine, below_eq_none h]
  case holdHeatGain line => simp only [exec, execHoldHeatGain, onKeyLine, below_eq_none h]
  case holdDeadline line => simp only [exec, execHoldDeadline, onKeyLine, below_eq_none h]
  case guardEnd line => simp only [exec, execGuardEnd, onKeyLine, below_eq_none h]
  case waitDeadline line => simp only [exec, execWaitDeadline, onLine, below_eq_none h]

/-- The command of a key line acts on that line's key. -/
theorem onKeyLine_val (k : KeyNo) (act : KeyNo → Part → Part) (s : State) :
    onKeyLine k.val act s = whileOn (act k) s := by
  simp only [onKeyLine, below_val]

/-- The command of a line acts on that line. -/
theorem onLine_val (m : LineNo) (act : LineNo → Part → Part) (s : State) :
    onLine m.val act s = whileOn (act m) s := by
  simp only [onLine, below_val]

section
variable {s : State} (off : s.part.power ≠ .on)
include off

theorem onKeyLine_off {line : Nat} (h : line < 88) (act : KeyNo → Part → Part) : onKeyLine line act s = .next s :=
  (onKeyLine_val ⟨line, h⟩ act s).trans (whileOn_off off)

theorem onLine_off {line : Nat} (h : line < 91) (act : LineNo → Part → Part) : onLine line act s = .next s :=
  (onLine_val ⟨line, h⟩ act s).trans (whileOn_off off)

end

/-- A request's command takes no request but its own (R165; log entry 4). -/
theorem exec_of_no_request {c : Instr} {s : State} (hc : takesRequest c = true)
    (h : ∀ f, s.part.MayTake f → rowOf f ≠ c) : exec c s = .next s := by
  cases c <;> simp only [takesRequest, Bool.false_eq_true] at hc
  all_goals exact takeRequest_of_none h

/-- A part that does not run takes PIN_RESET and POWER_FAIL alone (R175; log entry 6). -/
theorem exec_off {c : Instr} {s : State} (off : s.part.power ≠ .on) (wf : c.WellFormed) (hfail : c ≠ .powerFail)
    (hreset : ∀ r1 r0, c ≠ .pinReset r1 r0) : exec c s = .next s := by
  by_cases hc : takesRequest c = true
  · exact exec_of_no_request hc fun _ h => absurd h.1 off
  cases c <;> simp only [takesRequest, not_true_eq_false] at hc
  case powerFail => exact absurd rfl hfail
  case pinReset r1 r0 => exact absurd rfl (hreset r1 r0)
  case kickEnd => exact onKeyLine_off off (of_decide_eq_true wf) _
  case holdHeatGain => exact onKeyLine_off off (of_decide_eq_true wf) _
  case holdDeadline => exact onKeyLine_off off (of_decide_eq_true wf) _
  case guardEnd => exact onKeyLine_off off (of_decide_eq_true wf) _
  case waitDeadline => exact onLine_off off (of_decide_eq_true wf) _
  case resetAsserted =>
    simp only [exec, execResetAsserted]
    exact whileOn_off off
  all_goals exact whileOn_off off

/-- Settles O4, clause by clause: a line the part has not, a part that does not run, a request that is not the
command's. -/
theorem commandsNeedTheirMoment : Obligations.CommandsNeedTheirMoment :=
  fun s _ => ⟨fun h => exec_malformed h s, fun wf off => exec_off off wf, exec_of_no_request⟩

/-! ### Requests of an unknown kind -/

/-- A kind outside the catalogue has no row but UNKNOWN_KIND (section 10.5). -/
theorem rowOf_unknown {f : Frame} (h : f.kind ∉ catalogue) : rowOf f = .unknownKind := by
  simp [catalogue, ← BitVec.toNat_inj] at h
  unfold rowOf
  split <;> simp_all

/-- Settles O11: the command finds its request and places the reply of R165. -/
theorem unknownKindAnswered : Obligations.UnknownKindAnswered :=
  fun _ _ h hk => takeRequest_of_mayTake h (rowOf_unknown hk)

/-! ### The end of all activity (R173, R175) -/

theorem spoilt_fails (t : Settings) : (StoreImage.spoilt t).passes = false := by
  have apart : ∀ c : BitVec 32, (~~~c == c) = false := fun c => by
    rw [beq_eq_false_iff_ne]
    intro h
    have := congrArg (fun x : BitVec 32 => x.getLsbD 0) h
    simp at this
  exact apart _

/-- A part with no save under way has none to cut. -/
theorem cutSave_of_none {p : Part} (h : p.saving = none) : cutSave p = p := by
  simp only [cutSave, h]

/-- A save that is cut leaves an image that fails its check (log entry 26). -/
theorem cutSave_of_some {p : Part} {u : Settings} (h : p.saving = some u) :
    cutSave p = { p with saving := none, store := StoreImage.spoilt u } := by
  simp only [cutSave, h]

/-- With or without a save under way, a cut moves the store and the save alone. -/
theorem cutSave_eq (p : Part) : cutSave p = { p with saving := none, store := (cutSave p).store } := by
  cases h : p.saving with
  | none => rw [cutSave_of_none h, ← h]
  | some u => rw [cutSave_of_some h]

/-- The part whose activity ends with its power in this state. -/
def Part.halted (p : Part) (power : Power) : Part :=
  { cutSave p with power := power }

/-- A part that does not run drives nothing, idles its link, and has cut its save. -/
theorem halted_activity (p : Part) {power : Power} (h : power ≠ .on) :
    (∀ line ns, (p.halted power).drv line ns = false) ∧ (∀ ns, (p.halted power).txd ns = true)
      ∧ (p.halted power).saving = none
      ∧ (∀ u, p.saving = some u → (p.halted power).store.settings = u ∧ (p.halted power).store.passes = false)
      ∧ (p.saving = none → (p.halted power).store = p.store)
      ∧ p.halted power = { p with power := power, saving := none, store := (p.halted power).store } := by
  refine ⟨fun _ _ => if_neg h, fun ns => ?_, ?_, fun u hu => ?_, fun hn => ?_, ?_⟩
  · unfold Part.txd
    split
    · exact if_neg h
    · rfl
  · change (cutSave p).saving = none
    rw [cutSave_eq]
  · change (cutSave p).store.settings = u ∧ (cutSave p).store.passes = false
    rw [cutSave_of_some hu]
    exact ⟨rfl, spoilt_fails u⟩
  · change (cutSave p).store = p.store
    rw [cutSave_of_none hn]
  · exact congrArg (fun q : Part => { q with power := power }) (cutSave_eq p)

/-- Settles O3: both commands halt the part. -/
theorem powerAndResetEndActivity : Obligations.PowerAndResetEndActivity := by
  intro s c hc
  rcases hc with rfl | ⟨rfl, on⟩
  · obtain ⟨hdrv, htxd, hsave, hcut, hkeep, heq⟩ := halted_activity s.part (power := .off) (by decide)
    exact ⟨s.withPart (s.part.halted .off), rfl, rfl, hdrv, htxd, hsave, hcut, hkeep, congrArg s.withPart heq⟩
  · obtain ⟨hdrv, htxd, hsave, hcut, hkeep, heq⟩ := halted_activity s.part (power := .held) (by decide)
    have step : exec .resetAsserted s = .next (s.withPart (s.part.halted .held)) := by
      simp only [exec, execResetAsserted]
      exact whileOn_on on
    exact ⟨s.withPart (s.part.halted .held), step, rfl, hdrv, htxd, hsave, hcut, hkeep,
      congrArg s.withPart heq⟩

end Sys2Proof.Machine
end

section
/-! PROOFS. The receiver: what a scan of received bytes finds, a byte at a time and a frame at a time (R162 to R164). -/

namespace Sys2Proof.Machine

/-! ### Fields of a candidate that more bytes follow -/

/-- A field that the first bytes hold is not moved by what comes behind them. -/
theorem fieldAt_append_of_le {bs : List Byte} {i w : Nat} (h : i + w ≤ bs.length) (rest : List Byte) :
    fieldAt (bs ++ rest) i w = fieldAt bs i w := by
  unfold fieldAt
  rw [List.drop_append_of_le_length (by omega), List.take_append_of_le_length (by simp; omega)]

/-! ### What a candidate's bytes have come to -/

/-- The reading of a candidate, its cases side by side (R163). -/
theorem readCandidate_eq (bs : List Byte) :
    readCandidate bs =
      if bs.length < 4 then .growing .header
      else if 1024 < fieldAt bs 2 2 then .discarded
      else if bs.length < fieldAt bs 2 2 + 4 then .growing .payload
      else if bs.length < fieldAt bs 2 2 + 6 then .growing .check
      else if (crc16 (bs.take (fieldAt bs 2 2 + 4))).toNat = fieldAt bs (fieldAt bs 2 2 + 4) 2 then
        .good { kind := bs.getD 0 0, tag := bs.getD 1 0, payload := (bs.drop 4).take (fieldAt bs 2 2) }
          (fieldAt bs 2 2 + 6)
      else .discarded := rfl

/-- A candidate that needs more bytes is growing. -/
theorem readCandidate_of_needsMore {bs : List Byte} (h : NeedsMore bs) : ∃ state, readCandidate bs = .growing state := by
  rw [readCandidate_eq]
  rcases h with h | ⟨hl, hn⟩
  · exact ⟨_, if_pos h⟩
  · rw [if_neg (show ¬ 1024 < _ by omega), if_pos (show bs.length < _ + 6 from hn)]
    split_ifs <;> exact ⟨_, rfl⟩

/-- A growing candidate needs more bytes. -/
theorem needsMore_of_growing {bs : List Byte} {state : HuntState} (h : readCandidate bs = .growing state) :
    NeedsMore bs := by
  rw [readCandidate_eq] at h
  unfold NeedsMore
  split_ifs at h <;> omega

/-- A candidate too long, or whose check fails, is discarded, whatever comes behind it. -/
theorem readCandidate_of_condemned {bs : List Byte} (h : Condemned bs) (rest : List Byte) :
    readCandidate (bs ++ rest) = .discarded := by
  obtain ⟨h4, h⟩ := h
  have size : fieldAt (bs ++ rest) 2 2 = fieldAt bs 2 2 := fieldAt_append_of_le (by omega) rest
  have long : ¬ (bs ++ rest).length < 4 := by simp; omega
  rw [readCandidate_eq, if_neg long, size]
  rcases h with h | ⟨hl, hcheck⟩
  · exact if_pos h
  · have body : (bs ++ rest).take (fieldAt bs 2 2 + 4) = bs.take (fieldAt bs 2 2 + 4) :=
      List.take_append_of_le_length (by omega)
    have check : fieldAt (bs ++ rest) (fieldAt bs 2 2 + 4) 2 = fieldAt bs (fieldAt bs 2 2 + 4) 2 :=
      fieldAt_append_of_le (by omega) rest
    have whole : bs.length ≤ (bs ++ rest).length := by simp
    rw [body, check]
    split_ifs <;> first | rfl | omega

/-- A discarded candidate is one to discard once its first bytes have come. -/
theorem condemned_of_discarded {bs : List Byte} (h : readCandidate bs = .discarded) :
    ∃ front rest, bs = front ++ rest ∧ Condemned front := by
  rw [readCandidate_eq] at h
  split_ifs at h with h4 hlong h5 h6 hcheck
  · exact ⟨bs, [], by simp, by omega, .inl hlong⟩
  · have hlen : (bs.take (fieldAt bs 2 2 + 6)).length = fieldAt bs 2 2 + 6 := by simp; omega
    have split := List.take_append_drop (fieldAt bs 2 2 + 6) bs
    have size : fieldAt (bs.take (fieldAt bs 2 2 + 6)) 2 2 = fieldAt bs 2 2 := by
      rw [← fieldAt_append_of_le (by omega) (bs.drop (fieldAt bs 2 2 + 6)), split]
    have check : fieldAt (bs.take (fieldAt bs 2 2 + 6)) (fieldAt bs 2 2 + 4) 2 = fieldAt bs (fieldAt bs 2 2 + 4) 2 := by
      rw [← fieldAt_append_of_le (by omega) (bs.drop (fieldAt bs 2 2 + 6)), split]
    refine ⟨_, _, split.symm, by omega, .inr ⟨by rw [size, hlen], ?_⟩⟩
    rw [size, check, List.take_take, min_eq_left (by omega)]
    exact hcheck

/-! ### A whole frame -/

/-- The bytes of a frame behind its sync. -/
def Frame.tail (f : Frame) : List Byte :=
  f.body ++ littleEndian 2 (crc16 f.body).toNat

theorem Frame.bytes_eq (f : Frame) : f.bytes = syncByte :: f.tail := rfl

theorem Frame.body_length (f : Frame) : f.body.length = f.payload.length + 4 := by
  simp [Frame.body]
  omega

theorem Frame.tail_length (f : Frame) : f.tail.length = f.payload.length + 6 := by
  simp [Frame.tail, Frame.body_length]

section
variable {f : Frame} (h : f.payload.length ≤ 1024)
include h

/-- The length field of a frame is the length of its payload. -/
theorem fieldAt_tail_length (rest : List Byte) : fieldAt (f.tail ++ rest) 2 2 = f.payload.length := by
  have : f.tail ++ rest = [f.kind, f.tag] ++ (littleEndian 2 f.payload.length
      ++ (f.payload ++ (littleEndian 2 (crc16 f.body).toNat ++ rest))) := by
    simp [Frame.tail, Frame.body]
  rw [this]
  exact (fieldAt_append [f.kind, f.tag] _ 2 _).trans (Nat.mod_eq_of_lt (by omega))

/-- The bytes of a frame behind its sync are read as the frame, whatever comes behind them. -/
theorem readCandidate_tail (rest : List Byte) :
    readCandidate (f.tail ++ rest) = .good f (f.payload.length + 6) := by
  have size := fieldAt_tail_length h rest
  have long : (f.tail ++ rest).length = f.payload.length + 6 + rest.length := by simp [Frame.tail_length]
  have front : f.tail ++ rest = f.body ++ (littleEndian 2 (crc16 f.body).toNat ++ rest) := by simp [Frame.tail]
  have body : (f.tail ++ rest).take (f.payload.length + 4) = f.body := by
    rw [front, ← Frame.body_length, List.take_left]
  have check : fieldAt (f.tail ++ rest) (f.payload.length + 4) 2 = (crc16 f.body).toNat := by
    rw [front, ← Frame.body_length, fieldAt_append]
    exact Nat.mod_eq_of_lt (crc16 f.body).isLt
  have payload : ((f.tail ++ rest).drop 4).take f.payload.length = f.payload := by
    simp [Frame.tail, Frame.body, littleEndian]
  rw [readCandidate_eq, size, body, check, payload]
  rw [if_neg (by omega), if_neg (by omega), if_neg (by omega), if_neg (by omega), if_pos rfl]
  rfl

/-- A frame that has not come whole needs more bytes. -/
theorem needsMore_of_prefix {bs : List Byte} (hp : bs <+: f.tail) (hl : bs.length < f.tail.length) : NeedsMore bs := by
  obtain ⟨rest, hrest⟩ := hp
  by_cases h4 : bs.length < 4
  · exact .inl h4
  · have size : fieldAt bs 2 2 = f.payload.length := by
      rw [← fieldAt_append_of_le (by omega) rest, hrest, ← List.append_nil f.tail, fieldAt_tail_length h]
    rw [Frame.tail_length] at hl
    exact .inr ⟨by omega, by omega⟩

end

/-- A good candidate begins with the bytes of the frame it is read as. -/
theorem tail_of_good {bs : List Byte} {f : Frame} {used : Nat} (h : readCandidate bs = .good f used) :
    f.payload.length ≤ 1024 ∧ used = f.payload.length + 6 ∧ ∃ rest, bs = f.tail ++ rest := by
  rw [readCandidate_eq] at h
  split_ifs at h with h4 hlong h5 h6 hcheck
  simp only [Candidate.good.injEq] at h
  obtain ⟨rfl, rfl⟩ := h
  generalize hn : fieldAt bs 2 2 = n at *
  have hp : ((bs.drop 4).take n).length = n := by simp; omega
  obtain ⟨kind, tag, l0, l1, more, rfl⟩ : ∃ a b c d more, bs = a :: b :: c :: d :: more := by
    match bs, h4 with
    | a :: b :: c :: d :: more, _ => exact ⟨a, b, c, d, more, rfl⟩
    | [], h4 | [_], h4 | [_, _], h4 | [_, _, _], h4 => simp at h4
  simp only [List.drop_succ_cons, List.drop_zero, List.length_cons] at hp h6
  have size : littleEndian 2 n = [l0, l1] := by
    rw [← hn]
    exact littleEndian_fromLittleEndian [l0, l1]
  have body : ({ kind := kind, tag := tag, payload := more.take n } : Frame).body
      = (kind :: tag :: l0 :: l1 :: more).take (n + 4) := by
    simp [Frame.body, hp, size]
  have two : (more.drop n).take 2 = littleEndian 2 (fieldAt (kind :: tag :: l0 :: l1 :: more) (n + 4) 2) := by
    have hl : ((more.drop n).take 2).length = 2 := by simp; omega
    have := littleEndian_fromLittleEndian ((more.drop n).take 2)
    rw [hl] at this
    simp [fieldAt, this]
  refine ⟨by change ((more.take n)).length ≤ 1024; omega, by change n + 6 = (more.take n).length + 6; omega,
    more.drop (n + 2), ?_⟩
  change _ = Frame.tail { kind := kind, tag := tag, payload := more.take n } ++ _
  rw [Frame.tail, body, hcheck, ← two]
  have : (more.drop n).take 2 ++ more.drop (n + 2) = more.drop n := by
    rw [← List.drop_drop, List.take_append_drop]
  simp [this]

/-! ### The scan -/

theorem scanBytes_skip (bs rest : List Byte) : scanBytes bs.length (bs ++ rest) = scanBytes 0 rest := by
  induction bs with
  | nil => rfl
  | cons b bs ih => exact ih

/-- A byte that is no sync is passed over in HUNT. -/
theorem scanBytes_of_ne {b : Byte} (h : b ≠ 0x7E) (bs : List Byte) : scanBytes 0 (b :: bs) = scanBytes 0 bs := by
  simp only [scanBytes]
  exact if_neg h

theorem scanBytes_of_growing {bs : List Byte} (h : NeedsMore bs) :
    scanBytes 0 (0x7E :: bs) = { candidate := 0x7E :: bs, good := [], discarded := 0 } := by
  obtain ⟨state, hs⟩ := readCandidate_of_needsMore h
  simp only [scanBytes, syncByte, if_pos, hs]

theorem scanBytes_of_condemned {bs : List Byte} (h : Condemned bs) (rest : List Byte) :
    scanBytes 0 (0x7E :: (bs ++ rest)) = (scanBytes 0 (bs ++ rest)).withDiscard := by
  simp only [scanBytes, syncByte, if_pos, readCandidate_of_condemned h]

theorem scanBytes_of_whole {f : Frame} (h : f.payload.length ≤ 1024) (rest : List Byte) :
    scanBytes 0 (f.bytes ++ rest) = (scanBytes 0 rest).withGood f := by
  rw [Frame.bytes_eq, List.cons_append]
  simp only [scanBytes, if_pos, readCandidate_tail h]
  rw [← Frame.tail_length, scanBytes_skip]

/-- The scan of bytes is their hunt (R163). -/
theorem scanBytes_of_hunted {bs left : List Byte} {frames : List Frame} {lost : Nat} (h : Hunted bs frames left lost) :
    scanBytes 0 bs = { candidate := left, good := frames, discarded := lost } := by
  induction h with
  | nothing => rfl
  | dropped hb _ ih => rw [scanBytes_of_ne hb, ih]
  | growing hn => exact scanBytes_of_growing hn
  | condemned hc _ ih => rw [scanBytes_of_condemned hc, ih, Scan.withDiscard]
  | whole hf _ ih => rw [scanBytes_of_whole hf, ih, Scan.withGood]

/-- Every list of bytes has a hunt (R163). -/
theorem exists_hunted (bs : List Byte) : ∃ frames left lost, Hunted bs frames left lost := by
  induction hn : bs.length using Nat.strongRecOn generalizing bs with
  | _ n ih =>
    match bs with
    | [] => exact ⟨[], [], 0, .nothing⟩
    | b :: bs =>
      have hlen : bs.length < n := by simp at hn; omega
      by_cases hb : b = 0x7E
      · subst hb
        cases hc : readCandidate bs with
        | growing state => exact ⟨[], _, 0, .growing (needsMore_of_growing hc)⟩
        | discarded =>
          obtain ⟨frames, left, lost, hh⟩ := ih _ hlen bs rfl
          obtain ⟨front, rest, rfl, hf⟩ := condemned_of_discarded hc
          exact ⟨frames, left, lost + 1, .condemned hf hh⟩
        | good f used =>
          obtain ⟨hf, -, rest, rfl⟩ := tail_of_good hc
          obtain ⟨frames, left, lost, hh⟩ := ih rest.length (by simp at hlen; omega) rest rfl
          exact ⟨f :: frames, left, lost, .whole hf hh⟩
      · obtain ⟨frames, left, lost, hh⟩ := ih _ hlen bs rfl
        exact ⟨frames, left, lost, .dropped hb hh⟩

/-! ### The part after a scan -/

/-- A scan is taken as the outcome of the hunt (R163). -/
theorem takeScan_eq (frames : List Frame) (left : List Byte) (lost : Nat) (p : Part) :
    takeScan { candidate := left, good := frames, discarded := lost } p
      = ({ p with link := p.link.hunted frames left p.now } : Part).discarding lost := by
  have hunted : p.link.scanned { candidate := left, good := frames, discarded := lost } p.now
      = p.link.hunted frames left p.now := by
    cases frames <;> rfl
  simp only [takeScan, hunted]
  rfl

/-- A byte that the buffer has room for is hunted behind the candidate. -/
theorem acceptByte_of_hunted {p : Part} {b : Byte} {frames : List Frame} {left : List Byte} {lost : Nat}
    (room : p.link.buffered < 4096) (h : Hunted (p.link.candidate ++ [b]) frames left lost) :
    acceptByte b p = ({ p with link := p.link.hunted frames left p.now } : Part).discarding lost := by
  rw [acceptByte, if_neg (by simp [Config.linkBytes]; omega), scanBytes_of_hunted h, takeScan_eq]

/-- A gap hunts through what stands behind the sync. -/
theorem expireGap_of_hunted {p : Part} {bs : List Byte} {frames : List Frame} {left : List Byte} {lost : Nat}
    (hc : p.link.candidate = 0x7E :: bs) (h : Hunted bs frames left lost) :
    expireGap p = ({ p with link := p.link.hunted frames left p.now } : Part).discarding (lost + 1) := by
  simp only [expireGap, hc, scanBytes_of_hunted h, Scan.withDiscard, takeScan_eq]

/-- Bytes without a sync leave nothing of a hunt. -/
theorem hunted_of_no_sync {bs : List Byte} (h : (0x7E : Byte) ∉ bs) : Hunted bs [] [] 0 := by
  induction bs with
  | nil => exact .nothing
  | cons b bs ih => exact .dropped (fun e => h (by simp [e])) (ih fun hm => h (.tail b hm))

/-- A hunt that finds nothing returns to HUNT with what waits, and the timers, as they were. -/
theorem hunted_nothing (l : LinkPort) (now : Time) : l.hunted [] [] now = { l with candidate := [] } := by
  simp [LinkPort.hunted]

/-- A candidate under reception has its gap timer started. -/
theorem hunted_growing (l : LinkPort) (b : Byte) (bs : List Byte) (now : Time) :
    l.hunted [] (b :: bs) now = { l with candidate := b :: bs, gapStarted := now } := by
  simp [LinkPort.hunted]

/-- A frame alone waits behind the others, and the silence timer restarts. -/
theorem hunted_frame (l : LinkPort) (f : Frame) (now : Time) :
    l.hunted [f] [] now = { l with
      candidate := [], waiting := l.waiting ++ [f], silenceStarted := now, silenceRunning := true } := by
  simp [LinkPort.hunted]

@[simp] theorem discarding_zero (p : Part) : p.discarding 0 = p := rfl

theorem discarding_one (p : Part) :
    p.discarding 1 = raise .frameErrors
      { p with link := { p.link with discarded := min (p.link.discarded + 1) 4294967295 } } := rfl

/-! ### Commands of the receiver -/

section
variable {s : State} (on : s.part.power = .on)
include on

theorem exec_receiveByte (b : Byte) : exec (.receiveByte b true) s = .next (s.withPart (acceptByte b s.part)) :=
  whileOn_on on

theorem exec_gapTimerExpiry : exec .gapTimerExpiry s = .next (s.withPart (expireGap s.part)) :=
  whileOn_on on

end

/-- Settles O5: a byte that completes nothing, by the room and the candidate. -/
theorem byteReceived : Obligations.ByteReceived := by
  intro s b on
  refine ⟨whileOn_on on, fun full => ?_, fun room hc hb => ?_, fun room hc hb => ?_, fun bs room hc more => ?_⟩ <;>
    rw [exec_receiveByte on]
  · exact congrArg (fun q => Host.Outcome.next (s.withPart q)) (if_pos full)
  · have hunt : Hunted (s.part.link.candidate ++ [b]) [] [] 0 := by
      rw [hc]
      exact .dropped hb .nothing
    rw [acceptByte_of_hunted room hunt, hunted_nothing, discarding_zero, ← hc]
    rfl
  · subst hb
    have hunt : Hunted (s.part.link.candidate ++ [0x7E]) [] [0x7E] 0 := by
      rw [hc]
      exact .growing (.inl (by simp))
    rw [acceptByte_of_hunted room hunt, hunted_growing, discarding_zero]
  · have hunt : Hunted (s.part.link.candidate ++ [b]) [] (0x7E :: (bs ++ [b])) 0 := by
      rw [hc]
      exact .growing more
    rw [acceptByte_of_hunted room hunt, hunted_growing, discarding_zero]

/-- Settles O7: every candidate is hunted through, and the hunt says what is left of it. -/
theorem candidateDiscarded : Obligations.CandidateDiscarded := by
  intro s on
  refine ⟨fun hc => ?_, fun bs hc none => ?_, fun bs b room hc none bad => ?_, exists_hunted,
    fun bs frames left lost hc h => ?_, fun b frames left lost room h => ?_⟩
  · rw [exec_gapTimerExpiry on]
    simp only [expireGap, hc]
    rfl
  · rw [exec_gapTimerExpiry on, expireGap_of_hunted hc (hunted_of_no_sync none), hunted_nothing, discarding_one]
  · have hunt : Hunted (s.part.link.candidate ++ [b]) [] [] 1 := by
      rw [hc, List.cons_append, ← List.append_nil (bs ++ [b])]
      exact .condemned bad (by rw [List.append_nil]; exact hunted_of_no_sync none)
    rw [exec_receiveByte on, acceptByte_of_hunted room hunt, hunted_nothing, discarding_one]
  · rw [exec_gapTimerExpiry on, expireGap_of_hunted hc h]
  · rw [exec_receiveByte on, acceptByte_of_hunted room h]

/-! ### A frame byte by byte -/

/-- The state with these bytes of a frame under reception. -/
def State.receiving (s : State) (bs : List Byte) : State :=
  s.withPart { s.part with link := { s.part.link with candidate := bs, gapStarted := s.part.now } }

/-- The state with a frame received whole in HUNT. -/
def State.received (s : State) (f : Frame) : State :=
  s.withPart { s.part with link := { s.part.link with
    candidate := []
    waiting := s.part.link.waiting ++ [f]
    gapStarted := s.part.now
    silenceStarted := s.part.now
    silenceRunning := true } }

section
variable {s : State} {f : Frame} (on : s.part.power = .on) (h : f.payload.length ≤ 1024)
include on h

/-- A further byte of a frame leaves it under reception, and the last one has it wait. -/
theorem exec_receiving {front : List Byte} {b : Byte} {behind : List Byte} (hf : f.tail = front ++ b :: behind)
    (room : ((s.receiving (syncByte :: front)).part.link.buffered) < 4096) :
    exec (.receiveByte b true) (s.receiving (syncByte :: front))
      = .next (if behind = [] then s.received f else s.receiving (syncByte :: (front ++ [b]))) := by
  have on' : (s.receiving (syncByte :: front)).part.power = .on := on
  rw [exec_receiveByte on']
  split
  · next hb =>
    have hunt : Hunted (syncByte :: front ++ [b]) [f] [] 0 := by
      have whole : syncByte :: front ++ [b] = f.bytes ++ [] := by
        rw [Frame.bytes_eq, hf, hb, List.append_nil, List.cons_append]
      rw [whole]
      exact .whole h .nothing
    rw [acceptByte_of_hunted room hunt, hunted_frame, discarding_zero]
    rfl
  · next hb =>
    have more : NeedsMore (front ++ [b]) := by
      refine needsMore_of_prefix h ⟨behind, by rw [hf]; simp⟩ ?_
      have := List.length_pos_iff.2 hb
      rw [hf]
      simp
      omega
    have hunt : Hunted (syncByte :: front ++ [b]) [] (syncByte :: (front ++ [b])) 0 := .growing more
    rw [acceptByte_of_hunted room hunt, hunted_growing, discarding_zero]
    rfl

/-- The rest of a frame under reception completes it. -/
theorem execAll_receiving (room : (s.part.link.waiting.map Frame.size).sum + (f.payload.length + 7) ≤ 4096)
    (behind : List Byte) (front : List Byte) (hf : f.tail = front ++ behind) (some : behind ≠ []) :
    execAll (behind.map fun b => Instr.receiveByte b true) (s.receiving (syncByte :: front))
      = .next (s.received f) := by
  induction behind generalizing front with
  | nil => exact absurd rfl some
  | cons b behind ih =>
    have hroom : (s.receiving (syncByte :: front)).part.link.buffered < 4096 := by
      have := congrArg List.length hf
      rw [Frame.tail_length] at this
      change (syncByte :: front).length + (s.part.link.waiting.map Frame.size).sum < 4096
      simp at this ⊢
      omega
    simp only [List.map_cons, execAll, exec_receiving on h hf hroom]
    split
    · next hb => rw [hb]; rfl
    · next hb => exact ih (front ++ [b]) (by rw [hf]; simp) hb

end

/-- Settles O6, by induction on the bytes still to come. -/
theorem frameReceivedWhole : Obligations.FrameReceivedWhole := by
  intro s f on hc h room
  have room' : (s.part.link.waiting.map Frame.size).sum + (f.payload.length + 7) ≤ 4096 := by
    simpa [LinkPort.buffered, hc] using room
  have first : exec (.receiveByte syncByte true) s = .next (s.receiving (syncByte :: [])) :=
    (byteReceived s syncByte on).2.2.2.1 (by omega) hc rfl
  rw [Frame.bytes_eq, List.map_cons, execAll, first]
  have some : f.tail ≠ [] := List.ne_nil_of_length_pos (by rw [Frame.tail_length]; omega)
  refine (execAll_receiving on h room' f.tail [] rfl some).trans ?_
  rw [State.received, ← hc]

end Sys2Proof.Machine
end

section
/-! PROOFS. The notice flags and their masks, TAKE NOTICES, and the transmit queue (R166, R168 to R170). -/

namespace Sys2Proof.Machine

/-! ### One member of a set of bits -/

section
variable {w : Nat} (s m : BitVec w) {i : Nat} (h : i < w)
include h

theorem getLsbD_one_shift (j : Nat) : (1#w <<< i).getLsbD j = decide (j = i) := by
  by_cases hj : j = i
  · subst hj
    simp [h]
  · simp [hj]
    omega

/-- A set meets one member exactly when it has it. -/
theorem and_one_shift_bne_zero : ((s &&& 1#w <<< i) != 0) = s.getLsbD i := by
  have both : s &&& 1#w <<< i = if s.getLsbD i then 1#w <<< i else 0 := by
    ext j hj
    rw [← BitVec.getLsbD_eq_getElem, BitVec.getLsbD_and, getLsbD_one_shift h]
    by_cases hji : j = i
    · subst hji
      cases hs : s.getLsbD j
      · simp
      · simp only [Bool.true_and, if_pos]
        rw [← BitVec.getLsbD_eq_getElem, getLsbD_one_shift h]
        simp
    · cases s.getLsbD i
      · simp [hji]
      · simp only [hji, decide_false, Bool.and_false, if_pos]
        rw [← BitVec.getLsbD_eq_getElem, getLsbD_one_shift h]
        simp [hji]
  have nonzero : (1#w <<< i) ≠ 0 := fun e => by
    have := congrArg (fun x : BitVec w => x.getLsbD i) e
    simp [getLsbD_one_shift h] at this
  rw [both]
  cases s.getLsbD i
  · simp
  · simpa using nonzero

/-- A set that gains a member meets a mask where it met it before, or where the mask has the member. -/
theorem or_one_shift_and_bne_zero :
    (((s ||| 1#w <<< i) &&& m) != 0) = ((s &&& m) != 0 || m.getLsbD i) := by
  have split : (s ||| 1#w <<< i) &&& m = (s &&& m) ||| (m &&& 1#w <<< i) := by
    ext j
    simp only [BitVec.getElem_and, BitVec.getElem_or]
    cases s[j] <;> cases m[j] <;> simp
  have : ∀ a b : BitVec w, ((a ||| b) != 0) = (a != 0 || b != 0) := fun a b => by
    rw [Bool.eq_iff_iff]
    simp only [bne_iff_ne, Bool.or_eq_true, ne_eq, ← not_and_or]
    exact not_congr BitVec.or_eq_zero_iff
  rw [split, this, and_one_shift_bne_zero m h]

theorem getLsbD_or_one_shift (j : Nat) : (s ||| 1#w <<< i).getLsbD j = (s.getLsbD j || decide (j = i)) := by
  rw [BitVec.getLsbD_or, getLsbD_one_shift h]

end

/-! ### The flag of each source (R168) -/

theorem NoticeSource.bit_lt (src : NoticeSource) : src.bit < 13 := by
  cases src <;> decide

theorem NoticeSource.bit_inj {a b : NoticeSource} (h : a.bit = b.bit) : a = b := by
  cases a <;> cases b <;> simp_all [NoticeSource.bit]

theorem flag_eq_getLsbD (n : Notices) (src : NoticeSource) : n.flag src = n.flags.getLsbD src.bit :=
  and_one_shift_bne_zero n.flags src.bit_lt

theorem flagIf_getLsbD (c : Bool) (src : NoticeSource) (i : Nat) :
    (flagIf c src).getLsbD i = (c && decide (i = src.bit)) := by
  cases c
  · simp [flagIf]
  · exact getLsbD_one_shift src.bit_lt i

theorem flags_getLsbD (n : Notices) {i : Nat} (hi : i < 13) :
    n.flags.getLsbD i = ((n.plain.getLsbD i && !setSources.getLsbD i) || (n.cueSet != 0 && decide (i = 6))
      || ((n.faultSet &&& n.faultMask) != 0 && decide (i = 10))
      || ((n.restingSet &&& n.restingMask) != 0 && decide (i = 11))) := by
  simp only [Notices.flags, BitVec.getLsbD_or, BitVec.getLsbD_and, BitVec.getLsbD_not, flagIf_getLsbD, hi, decide_true,
    Bool.true_and]
  rfl

/-- Does the source carry a set? -/
def NoticeSource.hasSet (src : NoticeSource) : Bool :=
  src == .cueFired || src == .lineFault || src == .lineResting

theorem hasSet_eq_false {src : NoticeSource} (h1 : src ≠ .cueFired) (h2 : src ≠ .lineFault) (h3 : src ≠ .lineResting) :
    src.hasSet = false := by
  cases src
  case cueFired => exact absurd rfl h1
  case lineFault => exact absurd rfl h2
  case lineResting => exact absurd rfl h3
  all_goals rfl

/-- The flag of a source without a set is its own bit. -/
theorem flag_plain (n : Notices) {src : NoticeSource} (h : src.hasSet = false) :
    n.flag src = n.plain.getLsbD src.bit := by
  rw [flag_eq_getLsbD, flags_getLsbD n src.bit_lt]
  cases src
  case cueFired | lineFault | lineResting => exact nomatch h
  all_goals simp [NoticeSource.bit, setSources, NoticeSource.mask]

theorem flag_cueFired (n : Notices) : n.flag .cueFired = (n.cueSet != 0) := by
  rw [flag_eq_getLsbD, flags_getLsbD n (NoticeSource.bit_lt _)]
  simp [NoticeSource.bit, setSources, NoticeSource.mask]

theorem flag_lineFault (n : Notices) : n.flag .lineFault = ((n.faultSet &&& n.faultMask) != 0) := by
  rw [flag_eq_getLsbD, flags_getLsbD n (NoticeSource.bit_lt _)]
  simp [NoticeSource.bit, setSources, NoticeSource.mask]

theorem flag_lineResting (n : Notices) : n.flag .lineResting = ((n.restingSet &&& n.restingMask) != 0) := by
  rw [flag_eq_getLsbD, flags_getLsbD n (NoticeSource.bit_lt _)]
  simp [NoticeSource.bit, setSources, NoticeSource.mask]

/-- Two notices with one plain bit, set and line mask for a source have one flag for it. -/
theorem flag_congr {n m : Notices} {src : NoticeSource}
    (plain : src.hasSet = false → n.plain.getLsbD src.bit = m.plain.getLsbD src.bit)
    (cue : src = .cueFired → (n.cueSet != 0) = (m.cueSet != 0))
    (fault : src = .lineFault → ((n.faultSet &&& n.faultMask) != 0) = ((m.faultSet &&& m.faultMask) != 0))
    (resting : src = .lineResting → ((n.restingSet &&& n.restingMask) != 0) = ((m.restingSet &&& m.restingMask) != 0)) :
    n.flag src = m.flag src := by
  by_cases h1 : src = .cueFired
  · rw [h1, flag_cueFired, flag_cueFired, cue h1]
  by_cases h2 : src = .lineFault
  · rw [h2, flag_lineFault, flag_lineFault, fault h2]
  by_cases h3 : src = .lineResting
  · rw [h3, flag_lineResting, flag_lineResting, resting h3]
  have := hasSet_eq_false h1 h2 h3
  rw [flag_plain n this, flag_plain m this, plain this]

/-! ### Asking for a notice frame (R166, R169) -/

/-- The Link Port asked for a notice frame if the condition holds. -/
theorem askNotice_if (l : LinkPort) (c : Prop) [Decidable c] :
    (if c then l.askNotice else l)
      = { l with noticeAsked := l.noticeAsked || (decide c && !decide (TransmitItem.notice ∈ l.queue)) } := by
  by_cases hc : c
  · by_cases hq : TransmitItem.notice ∈ l.queue <;> simp [hc, hq, LinkPort.askNotice]
  · simp [hc]

theorem updateNotices_eq (f : Notices → Notices) (p : Part) :
    updateNotices f p = { p with
      notices := f p.notices
      link := { p.link with noticeAsked := p.link.noticeAsked
        || (p.notices.summary == 0 && (f p.notices).summary != 0 && !decide (TransmitItem.notice ∈ p.link.queue)) } } := by
  have condition : decide (p.notices.summary = 0 ∧ (f p.notices).summary ≠ 0)
      = (p.notices.summary == 0 && (f p.notices).summary != 0) := by
    rw [Bool.eq_iff_iff]
    simp
  rw [updateNotices, askNotice_if, condition]

/-! ### Raises (R168) -/

theorem raise_flag (p : Part) {src : NoticeSource} (h : src.hasSet = false) (other : NoticeSource) :
    (raise src p).notices.flag other = (p.notices.flag other || other == src) := by
  change ({ p.notices with plain := p.notices.plain ||| src.mask } : Notices).flag other = _
  by_cases ho : other.hasSet = false
  · rw [flag_plain _ ho, flag_plain _ ho]
    refine (getLsbD_or_one_shift p.notices.plain src.bit_lt other.bit).trans (congrArg _ ?_)
    rw [Bool.eq_iff_iff, decide_eq_true_iff, beq_iff_eq]
    exact ⟨NoticeSource.bit_inj, congrArg _⟩
  · have apart : (other == src) = false := beq_eq_false_iff_ne.2 fun e => ho (e ▸ h)
    rw [apart, Bool.or_false]
    exact flag_congr (fun e => absurd e ho) (fun _ => rfl) (fun _ => rfl) (fun _ => rfl)

theorem raiseCueFired_flag (p : Part) (i : Fin 4) (other : NoticeSource) :
    (raiseCueFired i p).notices.flag other = (p.notices.flag other || other == .cueFired) := by
  change ({ p.notices with cueSet := p.notices.cueSet ||| 1#4 <<< i.val } : Notices).flag other = _
  by_cases ho : other = .cueFired
  · have gained : p.notices.cueSet ||| 1#4 <<< i.val ≠ 0 := fun e => by
      have := congrArg (fun x : BitVec 4 => x.getLsbD i.val) e
      simp at this
    subst ho
    rw [flag_cueFired]
    simpa using gained
  · rw [beq_eq_false_iff_ne.2 ho, Bool.or_false]
    exact flag_congr (fun _ => rfl) (fun e => absurd e ho) (fun _ => rfl) (fun _ => rfl)

theorem raiseLineFault_flag (p : Part) (m : LineNo) (other : NoticeSource) :
    (raiseLineFault m p).notices.flag other
      = (p.notices.flag other || (other == .lineFault && p.notices.faultMask.getLsbD m.val)) := by
  change ({ p.notices with faultSet := p.notices.faultSet ||| 1#91 <<< m.val } : Notices).flag other = _
  by_cases ho : other = .lineFault
  · subst ho
    rw [flag_lineFault, flag_lineFault, or_one_shift_and_bne_zero _ _ m.isLt]
    rfl
  · rw [beq_eq_false_iff_ne.2 ho, Bool.false_and, Bool.or_false]
    exact flag_congr (fun _ => rfl) (fun _ => rfl) (fun e => absurd e ho) (fun _ => rfl)

theorem raiseLineResting_flag (p : Part) (k : KeyNo) (other : NoticeSource) :
    (raiseLineResting k p).notices.flag other
      = (p.notices.flag other || (other == .lineResting && p.notices.restingMask.getLsbD k.val)) := by
  change ({ p.notices with restingSet := p.notices.restingSet ||| 1#88 <<< k.val } : Notices).flag other = _
  by_cases ho : other = .lineResting
  · subst ho
    rw [flag_lineResting, flag_lineResting, or_one_shift_and_bne_zero _ _ k.isLt]
    rfl
  · rw [beq_eq_false_iff_ne.2 ho, Bool.false_and, Bool.or_false]
    exact flag_congr (fun _ => rfl) (fun _ => rfl) (fun _ => rfl) (fun e => absurd e ho)

/-- The members of a set that gains one, by their numbers. -/
theorem mem_or_one_shift {w : Nat} (s : BitVec w) (i j : Fin w) :
    (s ||| 1#w <<< i.val).getLsbD j.val = (s.getLsbD j.val || j == i) := by
  rw [getLsbD_or_one_shift s i.isLt]
  congr 1
  rw [Bool.eq_iff_iff, decide_eq_true_iff, beq_iff_eq, Fin.ext_iff]

/-- Settles O10: each kind of raise by its flag, its set and its frame. -/
theorem raiseSetsFlag : Obligations.RaiseSetsFlag := by
  refine ⟨fun p src h1 h2 h3 => ⟨raise_flag p (hasSet_eq_false h1 h2 h3), updateNotices_eq _ p⟩,
    fun p i => ⟨fun j => ?_, raiseCueFired_flag p i, updateNotices_eq _ p⟩,
    fun p m => ⟨fun n => ?_, raiseLineFault_flag p m, updateNotices_eq _ p⟩,
    fun p k => ⟨fun n => ?_, raiseLineResting_flag p k, updateNotices_eq _ p⟩⟩
  · exact mem_or_one_shift p.notices.cueSet i j
  · exact mem_or_one_shift p.notices.faultSet m n
  · exact mem_or_one_shift p.notices.restingSet k n

/-! ### TAKE NOTICES (R170) -/

theorem rowOf_takeNotices {f : Frame} (h : f.kind = 0x03) : rowOf f = .takeNotices := by
  simp [rowOf, h]

/-- What is left of a set, member by member. -/
theorem leftOf_getLsbD {w : Nat} (whole : Bool) (named s : BitVec w) {i : Nat} (h : i < w) :
    (leftOf whole named s).getLsbD i = (s.getLsbD i && !whole && !named.getLsbD i) := by
  cases whole
  · simp [leftOf, h]
  · simp [leftOf]

/-- The asking that step 4 of R170 makes. -/
theorem askIfPending_eq (p : Part) :
    askIfPending p = { p with link := { p.link with noticeAsked := p.link.noticeAsked
      || (p.notices.summary != 0 && !decide (TransmitItem.notice ∈ p.link.queue)) } } := by
  have condition : (p.notices.summary != 0) = decide ¬ p.notices.summary = 0 := by
    rw [Bool.eq_iff_iff]
    simp
  rw [condition, ← askNotice_if, askIfPending, ite_not]
  split <;> rfl

theorem getLsbD_ofNat_lt {w n i : Nat} (h : i < w) : (BitVec.ofNat w n).getLsbD i = n.testBit i := by
  rw [BitVec.getLsbD_ofNat, decide_eq_true h, Bool.true_and]

/-- Settles O13: the reply of the notices as they stood, and what the names clear. -/
theorem noticesTaken : Obligations.NoticesTaken := by
  intro s f h hk
  have taken := takeRequest_answer (act := takeNoticeNames) h (rowOf_takeNotices hk)
  refine ⟨fun hl => ?_, fun hl => ⟨(takeNoticeNames f.payload s.part).2, ?_, ?_, ?_, ?_, ?_, ?_⟩⟩
  · rw [Refuses, exec, execTakeNotices, taken, takeNoticeNames, if_pos hl]
    rfl
  · rw [exec, execTakeNotices, taken, takeNoticeNames, if_neg (not_not_intro hl)]
    simp [Notices.payload, Result.bytes, Result.code, littleEndian_one]
  all_goals rw [takeNoticeNames, if_neg (not_not_intro hl), askIfPending_eq]
  · rfl
  · intro src h1 h2 h3
    have plain := hasSet_eq_false h1 h2 h3
    rw [flag_plain _ plain, flag_plain _ plain]
    simp only [Notices.cleared, NoticeNames.read, BitVec.getLsbD_and, BitVec.getLsbD_not, src.bit_lt, decide_true,
      Bool.true_and, getLsbD_ofNat_lt src.bit_lt]
  · intro i
    refine (leftOf_getLsbD _ _ _ i.isLt).trans ?_
    simp only [NoticeNames.read, namesSource, getLsbD_ofNat_lt i.isLt, getLsbD_ofNat_lt (NoticeSource.bit_lt _)]
    rfl
  · intro m
    refine (leftOf_getLsbD _ _ _ m.isLt).trans ?_
    simp only [NoticeNames.read, namesSource, getLsbD_ofNat_lt m.isLt, getLsbD_ofNat_lt (NoticeSource.bit_lt _)]
    rfl
  · intro k
    refine (leftOf_getLsbD _ _ _ k.isLt).trans ?_
    simp only [NoticeNames.read, namesSource, getLsbD_ofNat_lt k.isLt, getLsbD_ofNat_lt (NoticeSource.bit_lt _)]
    rfl

/-! ### The transmit queue (R166) -/

section
variable {s : State} (on : s.part.power = .on)
include on

theorem exec_sendFrame :
    exec .sendFrame s = .next (s.withPart (if s.part.link.unsent s.part.now = 0 then sendNext s.part else s.part)) := by
  refine (whileOn_on on).trans ?_
  by_cases h : s.part.link.unsent s.part.now = 0 <;> simp [Part.lineFree, h]

theorem exec_noticeFramePlace : exec .noticeFramePlace s = .next (s.withPart (placeNotice s.part)) :=
  whileOn_on on

end

/-- Settles O9: the front of the queue is sent when TXD is free, and a notice frame is placed when there is room. -/
theorem transmitQueueSends : Obligations.TransmitQueueSends := by
  intro s on
  refine ⟨fun h => ?_, fun bytes rest hq free => ?_, fun rest hq free => ?_, fun asked room => ?_, fun h => ?_⟩
  · rw [exec_sendFrame on]
    split
    · next free =>
      have empty := h.resolve_right (not_not_intro free)
      simp only [sendNext, empty]
      rfl
    · rfl
  · rw [exec_sendFrame on, if_pos free]
    simp only [sendNext, hq]
    rfl
  · rw [exec_sendFrame on, if_pos free]
    simp only [sendNext, hq]
    rfl
  · have placeable : s.part.noticePlaceable = true := by
      simp [Part.noticePlaceable, asked, Config.noticeFrameBytes, room]
    rw [exec_noticeFramePlace on, placeNotice, if_pos placeable]
    rfl
  · have not_placeable : ¬ s.part.noticePlaceable = true := by
      simp only [Part.noticePlaceable, Config.noticeFrameBytes, Bool.and_eq_true]
      rintro ⟨asked, room⟩
      rcases h with h | h
      · rw [h] at asked
        exact Bool.false_ne_true asked
      · have := of_decide_eq_true room
        omega
    rw [exec_noticeFramePlace on, placeNotice, if_neg not_placeable]
    rfl

end Sys2Proof.Machine
end

section
/-! PROOFS. The budget, line by line: what a line's record, its place in the grant table and its entry have to do with each
other, and which updates keep it (R108, R111, R114, R127, R148). -/

namespace Sys2Proof.Machine

/-! ### The lines are the key lines and the pedal lines -/

@[simp] theorem lineKey_keyLineNo (k : KeyNo) : lineKey (keyLineNo k) = .inl k := by
  simp [lineKey, keyLineNo]

@[simp] theorem lineKey_pedalLineNo (d : Pedal) : lineKey (pedalLineNo d) = .inr d := by
  cases d <;> rfl

theorem line_cases (m : LineNo) : (∃ k, m = keyLineNo k) ∨ ∃ d, m = pedalLineNo d := by
  by_cases h : m.val < 88
  · exact .inl ⟨⟨m.val, h⟩, rfl⟩
  · have : m.val = 88 ∨ m.val = 89 ∨ m.val = 90 := by have := m.isLt; omega
    rcases this with h | h | h
    · exact .inr ⟨.damper, Fin.ext h⟩
    · exact .inr ⟨.bassRail, Fin.ext h⟩
    · exact .inr ⟨.trebleRail, Fin.ext h⟩

theorem keyLineNo_inj {k j : KeyNo} : keyLineNo k = keyLineNo j ↔ k = j := by
  simp [keyLineNo, Fin.ext_iff]

theorem pedalLineNo_inj {d e : Pedal} : pedalLineNo d = pedalLineNo e ↔ d = e := by
  constructor
  · cases d <;> cases e <;> simp [pedalLineNo, Fin.ext_iff]
  · exact congrArg _

theorem pedalLineNo_ge (d : Pedal) : 88 ≤ (pedalLineNo d).val := by
  cases d <;> decide

theorem keyLineNo_ne_pedalLineNo (k : KeyNo) (d : Pedal) : keyLineNo k ≠ pedalLineNo d := fun h => by
  have := pedalLineNo_ge d
  rw [← h] at this
  exact absurd k.isLt (not_lt.2 this)

theorem exists_pedalLineNo {m : LineNo} (h : 88 ≤ m.val) : ∃ d, m = pedalLineNo d := by
  rcases line_cases m with ⟨k, rfl⟩ | hd
  · exact absurd k.isLt (not_lt.2 h)
  · exact hd

/-! ### What the budget sees of a line -/

/-- What the budget sees of a key line. -/
def KeyLine.view (l : KeyLine) : KeyState × Option Plan × Option Plan × Option Nat × Bool :=
  (l.state, l.plan, l.pending, l.drive.duty, l.state == .queued && l.resting)

/-- What the budget sees of a pedal. -/
def PedalRecord.view (r : PedalRecord) : PedalState × Option WaitOrigin :=
  (r.state, r.origin)

/-- What the budget sees of a line's record. -/
def Part.lineView (p : Part) (m : LineNo) :
    (KeyState × Option Plan × Option Plan × Option Nat × Bool) ⊕ (PedalState × Option WaitOrigin) :=
  match lineKey m with
  | .inl k => .inl (p.key k).view
  | .inr d => .inr (p.pedal d).view

@[simp] theorem lineView_keyLineNo (p : Part) (k : KeyNo) : p.lineView (keyLineNo k) = .inl (p.key k).view := by
  simp [Part.lineView]

@[simp] theorem lineView_pedalLineNo (p : Part) (d : Pedal) : p.lineView (pedalLineNo d) = .inr (p.pedal d).view := by
  simp [Part.lineView]

/-- A key coil is driven in KICK and HOLD alone, at the duties of the plan in hand (R130, R132). -/
def KeyLine.DutySound (l : KeyLine) : Prop :=
  (l.state ≠ .kick → l.state ≠ .hold → l.drive.duty = none)
    ∧ ∀ plan, l.plan = some plan →
        (l.state = .kick → l.drive.duty = some plan.kickDuty) ∧ (l.state = .hold → l.drive.duty = some plan.holdDuty)

/-- A key line agrees with the arbiter and, if `dr` asks for it, is driven by its plan. One argument serves the budget
alone and the budget with the drives. -/
def KeyGood (dr : Bool) (p : Part) (k : KeyNo) : Prop :=
  KeySound p k ∧ (dr = true → (p.key k).DutySound)

/-- A line's record agrees with the arbiter. -/
def LineSound (dr : Bool) (p : Part) (m : LineNo) : Prop :=
  match lineKey m with
  | .inl k => KeyGood dr p k
  | .inr d => PedalSound p d

@[simp] theorem lineSound_keyLineNo (dr : Bool) (p : Part) (k : KeyNo) :
    LineSound dr p (keyLineNo k) ↔ KeyGood dr p k := by
  simp [LineSound]

@[simp] theorem lineSound_pedalLineNo (dr : Bool) (p : Part) (d : Pedal) :
    LineSound dr p (pedalLineNo d) ↔ PedalSound p d := by
  simp [LineSound]

/-- The line stands in `q` as it stands in `p`, for all that the budget sees of it. -/
structure LineKept (p q : Part) (m : LineNo) : Prop where
  grant : q.arbiter.grants[m] = p.arbiter.grants[m]
  entry : q.hasEntry m ↔ p.hasEntry m
  view : q.lineView m = p.lineView m

theorem KeyLine.view_eq {l m : KeyLine} :
    l.view = m.view ↔ l.state = m.state ∧ l.plan = m.plan ∧ l.pending = m.pending ∧ l.drive.duty = m.drive.duty
      ∧ (m.state = .queued → l.resting = m.resting) := by
  simp only [KeyLine.view, Prod.mk.injEq]
  constructor
  · rintro ⟨h1, h2, h3, h4, h5⟩
    exact ⟨h1, h2, h3, h4, fun h => by simpa [h1, h] using h5⟩
  · rintro ⟨h1, h2, h3, h4, h5⟩
    refine ⟨h1, h2, h3, h4, ?_⟩
    rw [h1]
    by_cases h : m.state = .queued
    · rw [h5 h]
    · rw [beq_eq_false_iff_ne.2 h, Bool.false_and, Bool.false_and]

/-- A line that is kept stays sound. -/
theorem LineKept.sound {dr : Bool} {p q : Part} {m : LineNo} (h : LineKept p q m) (hs : LineSound dr p m) :
    LineSound dr q m := by
  obtain ⟨hg, he, hv⟩ := h
  rcases line_cases m with ⟨k, rfl⟩ | ⟨d, rfl⟩
  · rw [lineView_keyLineNo, lineView_keyLineNo, Sum.inl.injEq, KeyLine.view_eq] at hv
    obtain ⟨h1, h2, h3, h4, h5⟩ := hv
    rw [lineSound_keyLineNo] at hs ⊢
    obtain ⟨⟨kick, queued, plan, pending, own, pendingOwn, rests⟩, duty⟩ := hs
    unfold KeyGood KeySound KeyLine.DutySound at *
    simp only [h1, h2, h3, h4, hg, he]
    refine ⟨⟨kick, queued, plan, pending, own, pendingOwn, fun hq => ?_⟩, duty⟩
    rw [h5 hq]
    exact rests hq
  · simp only [lineView_pedalLineNo, Sum.inr.injEq, PedalRecord.view, Prod.mk.injEq] at hv
    rw [lineSound_pedalLineNo] at hs ⊢
    unfold PedalSound at hs ⊢
    simpa only [hv.1, hv.2, hg, he] using hs

/-! ### The parts of a kept budget -/

/-- A list that a part may hold (R111), whether its head fits or not. -/
def listSound (w : List WaitEntry) : Prop :=
  w.length ≤ 32 ∧ (w.map WaitEntry.line).Nodup ∧ w.Pairwise (fun a b => a.priority ≤ b.priority) ∧ ∀ e ∈ w, e.sound

theorem listSound.sublist {v w : List WaitEntry} (h : listSound w) (hs : v.Sublist w) : listSound v :=
  ⟨hs.length_le.trans h.1, h.2.1.sublist (hs.map _), h.2.2.1.sublist hs, fun e he => h.2.2.2 e (hs.subset he)⟩

/-- The head of the list does not fit in the free units (R114). -/
def HeadWaits (p : Part) : Prop :=
  ∀ e, p.arbiter.wait.head? = some e → p.settings.budgetUnits < e.cost + p.arbiter.unitsInUse

/-- The budget is kept but for two matters: the head of the list may fit, and the lines in `ex` may have any record, while
they hold no units and have no entry. It is what stands in the middle of an operation. -/
structure BudgetBut (dr : Bool) (ex : LineNo → Prop) (p : Part) : Prop where
  units : p.arbiter.unitsInUse ≤ p.settings.budgetUnits
  list : listSound p.arbiter.wait
  lines : ∀ m, ¬ ex m → LineSound dr p m
  free : ∀ m, ex m → p.arbiter.grants[m] = none ∧ ¬ p.hasEntry m

/-- No line is left out. -/
def noLine : LineNo → Prop := fun _ => False

/-- The budget is kept, with the drives if `dr` asks for it. -/
def Good (dr : Bool) (p : Part) : Prop := BudgetBut dr noLine p ∧ HeadWaits p

/-- The budget, line by line. -/
theorem good_iff {dr : Bool} {p : Part} : Good dr p ↔ BudgetSound p ∧ (dr = true → DriveSound p) := by
  constructor
  · rintro ⟨⟨hu, ⟨h1, h2, h3, h4⟩, hl, -⟩, h5⟩
    have key : ∀ k, KeyGood dr p k := fun k => (lineSound_keyLineNo dr p k).1 (hl _ id)
    exact ⟨⟨hu, ⟨h1, h2, h3, h4, h5⟩, fun k => (key k).1, fun d => (lineSound_pedalLineNo dr p d).1 (hl _ id)⟩,
      fun on k => (key k).2 on⟩
  · rintro ⟨⟨hu, ⟨h1, h2, h3, h4, h5⟩, hk, hd⟩, duty⟩
    refine ⟨⟨hu, ⟨h1, h2, h3, h4⟩, fun m _ => ?_, fun _ h => h.elim⟩, h5⟩
    rcases line_cases m with ⟨k, rfl⟩ | ⟨d, rfl⟩
    · exact (lineSound_keyLineNo dr p k).2 ⟨hk k, fun on => duty on k⟩
    · exact (lineSound_pedalLineNo dr p d).2 (hd d)

theorem BudgetSound.good {p : Part} (h : BudgetSound p) : Good false p :=
  good_iff.2 ⟨h, fun c => absurd c (by decide)⟩

section
variable {dr : Bool} {p : Part}

theorem Good.but (h : Good dr p) : BudgetBut dr noLine p := h.1

theorem Good.head (h : Good dr p) : HeadWaits p := h.2

theorem Good.budget (h : Good dr p) : BudgetSound p := (good_iff.1 h).1

theorem BudgetSound.wait (h : BudgetSound p) : WaitSound p := h.2.1

theorem BudgetSound.key (h : BudgetSound p) (k : KeyNo) : KeySound p k := h.2.2.1 k

theorem BudgetSound.pedal (h : BudgetSound p) (d : Pedal) : PedalSound p d := h.2.2.2 d

theorem BudgetBut.key {ex : LineNo → Prop} (h : BudgetBut dr ex p) {k : KeyNo} (hk : ¬ ex (keyLineNo k)) :
    KeyGood dr p k :=
  (lineSound_keyLineNo dr p k).1 (h.lines _ hk)

theorem BudgetBut.pedal {ex : LineNo → Prop} (h : BudgetBut dr ex p) {d : Pedal} (hd : ¬ ex (pedalLineNo d)) :
    PedalSound p d :=
  (lineSound_pedalLineNo dr p d).1 (h.lines _ hd)

theorem Good.key (h : Good dr p) (k : KeyNo) : KeyGood dr p k := h.but.key id

theorem Good.pedal (h : Good dr p) (d : Pedal) : PedalSound p d := h.but.pedal id

end

/-- Everything may change at one line, if that line is left out or sound afterwards. -/
theorem BudgetBut.update {dr : Bool} {ex ex' : LineNo → Prop} {p q : Part} (h : BudgetBut dr ex p) (m : LineNo)
    (units : q.arbiter.unitsInUse ≤ q.settings.budgetUnits) (list : listSound q.arbiter.wait)
    (others : ∀ n, n ≠ m → LineKept p q n) (same : ∀ n, n ≠ m → (ex' n ↔ ex n))
    (out : ex' m → q.arbiter.grants[m] = none ∧ ¬ q.hasEntry m) (sound : ¬ ex' m → LineSound dr q m) :
    BudgetBut dr ex' q where
  units := units
  list := list
  lines n hn := by
    by_cases hm : n = m
    · subst hm
      exact sound hn
    · exact (others n hm).sound (h.lines n fun c => hn ((same n hm).2 c))
  free n hn := by
    by_cases hm : n = m
    · subst hm
      exact out hn
    · obtain ⟨hg, he⟩ := h.free n ((same n hm).1 hn)
      exact ⟨(others n hm).grant.trans hg, fun c => he ((others n hm).entry.1 c)⟩

/-! ### Parts that the budget does not tell apart -/

/-- `q` differs from `p` in nothing that the budget sees. -/
structure SameUnits (p q : Part) : Prop where
  budget : q.settings.budgetUnits = p.settings.budgetUnits
  grants : q.arbiter.grants = p.arbiter.grants
  wait : q.arbiter.wait = p.arbiter.wait
  views : ∀ m, q.lineView m = p.lineView m

namespace SameUnits

theorem trans {p q r : Part} (h : SameUnits p q) (g : SameUnits q r) : SameUnits p r :=
  ⟨g.budget.trans h.budget, g.grants.trans h.grants, g.wait.trans h.wait, fun m => (g.views m).trans (h.views m)⟩

theorem unitsInUse {p q : Part} (h : SameUnits p q) : q.arbiter.unitsInUse = p.arbiter.unitsInUse := by
  rw [KickArbiter.unitsInUse, h.grants, KickArbiter.unitsInUse]

theorem kept {p q : Part} (h : SameUnits p q) (m : LineNo) : LineKept p q m :=
  ⟨by rw [h.grants], by rw [Part.hasEntry, h.wait, Part.hasEntry], h.views m⟩

theorem budgetBut {dr : Bool} {ex : LineNo → Prop} {p q : Part} (h : SameUnits p q) (hb : BudgetBut dr ex p) :
    BudgetBut dr ex q where
  units := by rw [h.unitsInUse, h.budget]; exact hb.units
  list := by rw [h.wait]; exact hb.list
  lines m hm := (h.kept m).sound (hb.lines m hm)
  free m hm := ⟨(h.kept m).grant.trans (hb.free m hm).1, fun c => (hb.free m hm).2 ((h.kept m).entry.1 c)⟩

theorem headWaits {p q : Part} (h : SameUnits p q) (hb : HeadWaits p) : HeadWaits q := by
  rw [HeadWaits, h.wait, h.unitsInUse, h.budget]
  exact hb

theorem good {dr : Bool} {p q : Part} (h : SameUnits p q) (hb : Good dr p) : Good dr q :=
  ⟨h.budgetBut hb.but, h.headWaits hb.head⟩

/-- Parts with one budget, arbiter, key lines and pedal records. -/
theorem of_eq {p q : Part} (budget : q.settings.budgetUnits = p.settings.budgetUnits)
    (grants : q.arbiter.grants = p.arbiter.grants) (wait : q.arbiter.wait = p.arbiter.wait)
    (keys : ∀ k, (q.key k).view = (p.key k).view) (pedals : ∀ d, (q.pedal d).view = (p.pedal d).view) :
    SameUnits p q := by
  refine ⟨budget, grants, wait, fun m => ?_⟩
  rcases line_cases m with ⟨k, rfl⟩ | ⟨d, rfl⟩
  · simp [keys]
  · simp [pedals]

theorem refl (p : Part) : SameUnits p p :=
  .of_eq rfl rfl rfl (fun _ => rfl) fun _ => rfl

/-- A key line's record with the same view. -/
theorem setKey {p : Part} {k : KeyNo} {l : KeyLine} (h : l.view = (p.key k).view) : SameUnits p (p.setKey k l) := by
  refine .of_eq rfl rfl rfl (fun j => ?_) fun d => by simp
  by_cases hj : j = k
  · subst hj
    simp [h]
  · rw [Part.key_setKey_ne p l hj]

/-- A pedal's record with the same view. -/
theorem setPedal {p : Part} {d : Pedal} {r : PedalRecord} (h : r.view = (p.pedal d).view) :
    SameUnits p (p.setPedal d r) := by
  refine .of_eq (by simp) (by simp) (by simp) (fun j => by simp) fun e => ?_
  by_cases he : e = d
  · subst he
    simp [h]
  · rw [Part.pedal_setPedal_ne p r he]

theorem foldl {α : Type} {act : Part → α → Part} (h : ∀ q a, SameUnits q (act q a)) (as : List α) (p : Part) :
    SameUnits p (as.foldl act p) := by
  induction as generalizing p with
  | nil => exact refl p
  | cons a as ih => exact (h p a).trans (ih (act p a))

end SameUnits

theorem updateNotices_same (f : Notices → Notices) (p : Part) : SameUnits p (updateNotices f p) :=
  .of_eq rfl rfl rfl (fun _ => rfl) fun d => by cases d <;> rfl

theorem setFeed_same (p : Part) (f : FeedClock) : SameUnits p (p.setFeed f) :=
  .of_eq rfl rfl rfl (fun _ => rfl) fun d => by simp

theorem endPlan_same (plan : Plan) (o : StrikeOutcome) (waited : Nat) (p : Part) :
    SameUnits p (endPlan plan o waited p) := by
  rw [endPlan_eq_filed]
  obtain ⟨hd, hp, hs, -, hg, hw⟩ := filed_keeps plan o waited p
  refine .of_eq (by rw [hs]) hg hw (fun k => by rw [Part.key, hd, Part.key]) fun d => ?_
  cases d <;> simp only [Part.pedal, hp]

/-! ### Units (R108) -/

/-- A place filled or emptied moves the units in use by its old and its new cost. -/
theorem unitsInUse_set (a : KickArbiter) (m : LineNo) (c : Option Nat) :
    ({ a with grants := a.grants.set m c } : KickArbiter).unitsInUse + (a.grants[m]).getD 0
      = a.unitsInUse + c.getD 0 := by
  have hlen : m.val < (a.grants.toList.map fun place => place.getD 0).length := by simp [m.isLt]
  have hget : (a.grants.toList.map fun place => place.getD 0)[m.val] = (a.grants[m]).getD 0 := by simp
  have whole := List.sum_set (a.grants.toList.map fun place => place.getD 0) m.val (c.getD 0)
  have old := List.sum_set (a.grants.toList.map fun place => place.getD 0) m.val ((a.grants[m]).getD 0)
  rw [← hget, List.set_getElem_self] at old
  simp only [KickArbiter.unitsInUse, Vector.toList_set, List.map_set]
  rw [if_pos hlen] at whole old
  omega

/-! ### Entries -/

theorem hasEntry_iff (p : Part) (m : LineNo) : p.hasEntry m ↔ m ∈ p.arbiter.wait.map WaitEntry.line := by
  simp [Part.hasEntry]

/-- The entries of a sound list stand under their own lines. -/
theorem WaitEntry.sound.of_strike {e : WaitEntry} {plan : Plan} (h : e.sound) (hr : e.request = .strike plan) :
    e.line = keyLineNo plan.line ∧ 1 ≤ e.priority := by
  simpa [WaitEntry.sound, hr] using h

theorem WaitEntry.sound.of_lift {e : WaitEntry} {depth : Depth} (h : e.sound) (hr : e.request = .lift depth) :
    (∃ d, e.line = pedalLineNo d) ∧ e.priority = 0 := by
  simp only [WaitEntry.sound, hr] at h
  exact ⟨exists_pedalLineNo h.1, h.2⟩

/-- An entry of a key line asks for a strike of that key. -/
theorem WaitEntry.sound.strike_of_key {e : WaitEntry} {k : KeyNo} (h : e.sound) (hl : e.line = keyLineNo k) :
    ∃ plan, e.request = .strike plan ∧ plan.line = k ∧ 1 ≤ e.priority := by
  cases hr : e.request with
  | strike plan =>
    obtain ⟨h1, h2⟩ := h.of_strike hr
    exact ⟨plan, rfl, keyLineNo_inj.1 (h1.symm.trans hl), h2⟩
  | lift depth =>
    obtain ⟨⟨d, hd⟩, -⟩ := h.of_lift hr
    exact absurd (hl.symm.trans hd) (keyLineNo_ne_pedalLineNo k d)

/-- An entry of a pedal line asks for a lift. -/
theorem WaitEntry.sound.lift_of_pedal {e : WaitEntry} {d : Pedal} (h : e.sound) (hl : e.line = pedalLineNo d) :
    (∃ depth, e.request = .lift depth) ∧ e.priority = 0 := by
  cases hr : e.request with
  | strike plan => exact absurd ((h.of_strike hr).1.symm.trans hl) (keyLineNo_ne_pedalLineNo _ d)
  | lift depth => exact ⟨⟨depth, rfl⟩, (h.of_lift hr).2⟩

end Sys2Proof.Machine
end

section
/-! PROOFS. Grants, and the lines that leave and join the wait list or draw units, one line left out of the budget meanwhile
(R108, R112 to R115). -/

namespace Sys2Proof.Machine

/-! ### Grants -/

@[simp] theorem setDuty_duty (base : Nat) (now : Time) (duty : Option Nat) (d : Drive) :
    (d.setDuty base now duty).duty = duty := by
  unfold Drive.setDuty
  split
  · rfl
  · rfl
  · next old new hd =>
    split
    · next same => rw [hd, same]
    · rfl

/-- A key line whose plan has been granted (R130). -/
def KeyLine.kicked (l : KeyLine) (plan : Plan) (base : Nat) (now : Time) : KeyLine :=
  { l with
    state := .kick
    queuedOrigin := none
    plan := some plan
    kickStarted := now
    short := plan.flags.short
    drive := l.drive.setDuty base now (some plan.kickDuty) }

/-- A pedal whose lift has been granted (R151). -/
def PedalRecord.lifted (r : PedalRecord) (t : Settings) (d : Pedal) (now : Time) : PedalRecord :=
  { r with
    state := .lifting
    origin := none
    kickTimer := some { started := now, length := t.pedalKick d }
    drive := r.drive.setDuty t.pwmBase now (some (t.pedalKickDuty d)) }

theorem startLift_eq (d : Pedal) (p : Part) :
    startLift d p = p.setPedal d ((p.pedal d).lifted p.settings d p.now) := rfl

theorem grant_strike (m : LineNo) (c : Nat) (plan : Plan) (short : Bool) (waited : Nat) (p : Part) :
    grant m c (.strike plan) short waited p
      = ((p.setPlace m (some c)).filed (plan.withShort short) .played waited).setKey plan.line
          ((p.key plan.line).kicked (plan.withShort short) p.settings.pwmBase p.now) := by
  simp only [grant, endPlan_eq_filed]
  rfl

theorem grant_lift {m : LineNo} {d : Pedal} (hd : m = pedalLineNo d) (c : Nat) (depth : Depth) (short : Bool)
    (waited : Nat) (p : Part) :
    grant m c (.lift depth) short waited p
      = (p.setPlace m (some c)).setPedal d ((p.pedal d).lifted p.settings d p.now) := by
  subst hd
  simp only [grant, lineKey_pedalLineNo, startLift_eq, Part.setPlace_pedal]
  rfl

/-! ### Updates of one line -/

section
variable {dr : Bool} {ex : LineNo → Prop} {p : Part}

theorem setKey_kept (p : Part) (k : KeyNo) (l : KeyLine) {n : LineNo} (hn : n ≠ keyLineNo k) :
    LineKept p (p.setKey k l) n := by
  refine ⟨rfl, Iff.rfl, ?_⟩
  rcases line_cases n with ⟨j, rfl⟩ | ⟨d, rfl⟩
  · rw [lineView_keyLineNo, lineView_keyLineNo, Part.key_setKey_ne p l fun h => hn (congrArg _ h)]
  · simp

theorem setPedal_grants (p : Part) (d : Pedal) (r : PedalRecord) (m : LineNo) :
    (p.setPedal d r).arbiter.grants[m] = p.arbiter.grants[m] := by
  simp

theorem hasEntry_setPedal (p : Part) (d : Pedal) (r : PedalRecord) (m : LineNo) :
    (p.setPedal d r).hasEntry m ↔ p.hasEntry m := by
  simp [Part.hasEntry]

theorem setPedal_kept (p : Part) (d : Pedal) (r : PedalRecord) {n : LineNo} (hn : n ≠ pedalLineNo d) :
    LineKept p (p.setPedal d r) n := by
  refine ⟨by simp, hasEntry_setPedal p d r n, ?_⟩
  rcases line_cases n with ⟨j, rfl⟩ | ⟨e, rfl⟩
  · simp
  · rw [lineView_pedalLineNo, lineView_pedalLineNo, Part.pedal_setPedal_ne p r fun h => hn (congrArg _ h)]

theorem LineKept.trans {p q r : Part} {m : LineNo} (h : LineKept p q m) (g : LineKept q r m) : LineKept p r m :=
  ⟨g.grant.trans h.grant, g.entry.trans h.entry, g.view.trans h.view⟩

theorem setPlace_kept (p : Part) (m : LineNo) (c : Option Nat) {n : LineNo} (hn : n ≠ m) :
    LineKept p (p.setPlace m c) n := by
  refine ⟨?_, Iff.rfl, ?_⟩
  · have : m.val ≠ n.val := fun h => hn (Fin.ext h.symm)
    simp [Vector.getElem_set_ne, this]
  · rcases line_cases n with ⟨j, rfl⟩ | ⟨e, rfl⟩ <;> simp

@[simp] theorem setPlace_getElem (p : Part) (m : LineNo) (c : Option Nat) :
    (p.setPlace m c).arbiter.grants[m] = c := by
  simp

theorem LineSound.of_key {m : LineNo} {k : KeyNo} (hm : m = keyLineNo k) (hs : KeyGood dr p k) : LineSound dr p m := by
  subst hm
  exact (lineSound_keyLineNo dr p k).2 hs

theorem LineSound.of_pedal {m : LineNo} {d : Pedal} (hm : m = pedalLineNo d) (hs : PedalSound p d) : LineSound dr p m := by
  subst hm
  exact (lineSound_pedalLineNo dr p d).2 hs

theorem setPlace_getElem_of_eq (p : Part) (c : Option Nat) {m n : LineNo} (h : n = m) :
    (p.setPlace m c).arbiter.grants[n] = c := by
  subst h
  exact setPlace_getElem p n c

/-- The units in use once a place is filled or emptied. -/
theorem unitsInUse_setPlace (p : Part) (m : LineNo) (c : Option Nat) :
    (p.setPlace m c).arbiter.unitsInUse + (p.arbiter.grants[m]).getD 0 = p.arbiter.unitsInUse + c.getD 0 :=
  unitsInUse_set p.arbiter m c

theorem filed_same (plan : Plan) (o : StrikeOutcome) (waited : Nat) (p : Part) :
    SameUnits p (p.filed plan o waited) := by
  rw [← endPlan_eq_filed]
  exact endPlan_same plan o waited p

end

/-! ### Leaving a line out, and taking it in again -/

/-- The lines left out, with one more. -/
def also (m : LineNo) (ex : LineNo → Prop) : LineNo → Prop := fun n => n = m ∨ ex n

theorem also_self (m : LineNo) (ex : LineNo → Prop) : also m ex m := .inl rfl

theorem also_ne {m n : LineNo} {ex : LineNo → Prop} (h : n ≠ m) : also m ex n ↔ ex n :=
  or_iff_right h

section
variable {dr : Bool} {ex : LineNo → Prop} {p : Part}

/-- A line that holds no units and has no entry may be left out. -/
theorem BudgetBut.leave (h : BudgetBut dr ex p) {m : LineNo} (hg : p.arbiter.grants[m] = none) (he : ¬ p.hasEntry m) :
    BudgetBut dr (also m ex) p :=
  h.update m h.units h.list (fun _ _ => ⟨rfl, Iff.rfl, rfl⟩) (fun _ hn => also_ne hn) (fun _ => ⟨hg, he⟩)
    fun c => absurd (also_self m ex) c

/-- A line that is sound again is taken in. -/
theorem BudgetBut.close {m : LineNo} (h : BudgetBut dr (also m ex) p) (hs : LineSound dr p m) : BudgetBut dr ex p where
  units := h.units
  list := h.list
  lines n hn := by
    by_cases hm : n = m
    · exact hm ▸ hs
    · exact h.lines n fun c => hn ((also_ne hm).1 c)
  free n hn := h.free n (.inr hn)

theorem BudgetBut.close_key {k : KeyNo} (h : BudgetBut dr (also (keyLineNo k) ex) p) (hs : KeyGood dr p k) : BudgetBut dr ex p :=
  h.close ((lineSound_keyLineNo dr p k).2 hs)

theorem BudgetBut.close_pedal {d : Pedal} (h : BudgetBut dr (also (pedalLineNo d) ex) p) (hs : PedalSound p d) :
    BudgetBut dr ex p :=
  h.close ((lineSound_pedalLineNo dr p d).2 hs)

/-- A key line that is left out may take any record. -/
theorem BudgetBut.setKey (h : BudgetBut dr ex p) {k : KeyNo} (hk : ex (keyLineNo k)) (l : KeyLine) :
    BudgetBut dr ex (p.setKey k l) :=
  h.update (keyLineNo k) h.units h.list (fun _ hn => setKey_kept p k l hn) (fun _ _ => Iff.rfl) (fun c => h.free _ c)
    fun c => absurd hk c

/-- A pedal that is left out may take any record. -/
theorem BudgetBut.setPedal (h : BudgetBut dr ex p) {d : Pedal} (hd : ex (pedalLineNo d)) (r : PedalRecord) :
    BudgetBut dr ex (p.setPedal d r) := by
  refine h.update (pedalLineNo d) ?_ ?_ (fun _ hn => setPedal_kept p d r hn) (fun _ _ => Iff.rfl) (fun c => ?_)
    fun c => absurd hd c
  · simpa using h.units
  · simpa using h.list
  · rw [setPedal_grants, hasEntry_setPedal]
    exact h.free _ c

/-- Emptying a place returns the units of its line, which is left out then. -/
theorem BudgetBut.empty (h : BudgetBut dr ex p) {m : LineNo} (he : ¬ p.hasEntry m) :
    BudgetBut dr (also m ex) (p.setPlace m none) := by
  refine h.update m ?_ h.list (fun n hn => setPlace_kept p m none hn) (fun _ hn => also_ne hn) (fun _ => ?_)
    fun c => absurd (also_self m ex) c
  · have := unitsInUse_setPlace p m none
    have := h.units
    simp only [Option.getD_none] at *
    exact le_trans (by omega) this
  · exact ⟨setPlace_getElem p m none, he⟩

/-! ### Entries taken out -/

theorem hasEntry_dropEntry_ne (p : Part) {m n : LineNo} (hn : n ≠ m) : (p.dropEntry m).hasEntry n ↔ p.hasEntry n := by
  unfold Part.hasEntry Part.dropEntry
  simp only [Part.setWait_wait]
  constructor
  · rintro ⟨e, he, hl⟩
    exact ⟨e, List.mem_of_mem_eraseP he, hl⟩
  · rintro ⟨e, he, hl⟩
    refine ⟨e, (List.mem_eraseP_of_neg ?_).2 he, hl⟩
    simpa [hl] using hn

theorem not_hasEntry_dropEntry {p : Part} (h : listSound p.arbiter.wait) (m : LineNo) : ¬ (p.dropEntry m).hasEntry m := by
  have nodup := h.2.1
  unfold Part.hasEntry Part.dropEntry
  simp only [Part.setWait_wait]
  generalize p.arbiter.wait = w at nodup
  induction w with
  | nil => simp
  | cons a t ih =>
    rw [List.map_cons, List.nodup_cons] at nodup
    by_cases ha : a.line = m
    · rw [List.eraseP_cons_of_pos (by simpa using ha)]
      rintro ⟨e, he, hl⟩
      exact nodup.1 (ha.trans hl.symm ▸ List.mem_map_of_mem he)
    · rw [List.eraseP_cons_of_neg (by simpa using ha)]
      rintro ⟨e, he, hl⟩
      rcases List.mem_cons.1 he with rfl | he
      · exact ha hl
      · exact ih nodup.2 ⟨e, he, hl⟩

theorem setWait_view (p : Part) (w : List WaitEntry) (m : LineNo) : (p.setWait w).lineView m = p.lineView m := by
  rcases line_cases m with ⟨j, rfl⟩ | ⟨d, rfl⟩ <;> simp

/-- Taking out the entry of a line leaves it out. -/
theorem BudgetBut.drop (h : BudgetBut dr ex p) {m : LineNo} (hg : p.arbiter.grants[m] = none) :
    BudgetBut dr (also m ex) (p.dropEntry m) :=
  h.update m h.units (h.list.sublist List.eraseP_sublist)
    (fun _ hn => ⟨rfl, hasEntry_dropEntry_ne p hn, setWait_view _ _ _⟩) (fun _ hn => also_ne hn)
    (fun _ => ⟨hg, not_hasEntry_dropEntry h.list m⟩) fun c => absurd (also_self m ex) c

/-! ### Entries that join -/

theorem mem_joined {p : Part} {e x : WaitEntry} : x ∈ (p.joined e).arbiter.wait ↔ x = e ∨ x ∈ p.arbiter.wait := by
  simp only [Part.joined, List.mem_append, List.mem_filter, List.mem_cons, decide_eq_true_eq]
  constructor
  · rintro (⟨h, -⟩ | rfl | ⟨h, -⟩)
    · exact .inr h
    · exact .inl rfl
    · exact .inr h
  · rintro (rfl | h)
    · exact .inr (.inl rfl)
    · rcases le_or_gt x.priority e.priority with hp | hp
      · exact .inl ⟨h, hp⟩
      · exact .inr (.inr ⟨h, hp⟩)

theorem joined_perm (p : Part) (e : WaitEntry) : (p.joined e).arbiter.wait.Perm (e :: p.arbiter.wait) := by
  have : (fun x : WaitEntry => decide (e.priority < x.priority)) = fun x => !decide (x.priority ≤ e.priority) := by
    funext x
    rw [← decide_not]
    exact decide_eq_decide.2 not_le.symm
  simp only [Part.joined, this]
  exact List.perm_middle.trans ((List.filter_append_perm _ _).cons e)

/-- An entry of its own line joins a sound list with room. -/
theorem listSound.joined {p : Part} {e : WaitEntry} (h : listSound p.arbiter.wait) (room : p.arbiter.wait.length < 32)
    (he : ¬ p.hasEntry e.line) (hs : e.sound) : listSound (p.joined e).arbiter.wait := by
  obtain ⟨h1, h2, h3, h4⟩ := h
  refine ⟨?_, ?_, ?_, fun x hx => ?_⟩
  · rw [(joined_perm p e).length_eq, List.length_cons]
    omega
  · rw [((joined_perm p e).map WaitEntry.line).nodup_iff, List.map_cons, List.nodup_cons]
    exact ⟨fun c => he ((hasEntry_iff p _).2 c), h2⟩
  · simp only [Part.joined, List.pairwise_append, List.pairwise_cons, List.mem_filter, List.mem_cons, decide_eq_true_eq]
    refine ⟨h3.sublist List.filter_sublist, ⟨fun x hx => hx.2.le, h3.sublist List.filter_sublist⟩, ?_⟩
    rintro x ⟨-, hx⟩ y (rfl | ⟨-, hy⟩)
    · exact hx
    · exact hx.trans hy.le
  · rcases mem_joined.1 hx with rfl | hx
    · exact hs
    · exact h4 x hx

theorem hasEntry_joined (p : Part) (e : WaitEntry) (m : LineNo) : (p.joined e).hasEntry m ↔ e.line = m ∨ p.hasEntry m := by
  unfold Part.hasEntry
  simp only [mem_joined]
  constructor
  · rintro ⟨x, rfl | hx, hl⟩
    · exact .inl hl
    · exact .inr ⟨x, hx, hl⟩
  · rintro (hl | ⟨x, hx, hl⟩)
    · exact ⟨e, .inl rfl, hl⟩
    · exact ⟨x, .inr hx, hl⟩

theorem joined_view (p : Part) (e : WaitEntry) (m : LineNo) : (p.joined e).lineView m = p.lineView m := by
  rcases line_cases m with ⟨j, rfl⟩ | ⟨d, rfl⟩
  · rfl
  · rw [lineView_pedalLineNo, lineView_pedalLineNo]
    cases d <;> rfl

/-- An entry of a line that is left out joins; what is wanted of the line's record afterwards is said by `sound`. -/
theorem BudgetBut.join {e : WaitEntry} (h : BudgetBut dr (also e.line ex) p) (room : p.arbiter.wait.length < 32)
    (hs : e.sound) (out : ¬ ex e.line) (sound : LineSound dr (p.joined e) e.line) : BudgetBut dr ex (p.joined e) := by
  obtain ⟨hg, he⟩ := h.free e.line (also_self _ _)
  refine h.update e.line h.units (h.list.joined room he hs)
    (fun n hn => ⟨rfl, ?_, joined_view p e n⟩) (fun n hn => (also_ne hn).symm) (fun c => absurd c out) fun _ => sound
  rw [hasEntry_joined]
  exact or_iff_right fun c => hn c.symm

/-! ### Grants of a line that is left out -/

/-- What a grant of its kick or lift asks of a line's own record. -/
def MayBeGranted (p : Part) (m : LineNo) (request : KickRequest) : Prop :=
  match request with
  | .strike plan => m = keyLineNo plan.line ∧ (p.key plan.line).pending = none
  | .lift _ => ∃ d, m = pedalLineNo d

/-- A grant of a line that is left out fills its place and takes the line in. -/
theorem BudgetBut.grant {m : LineNo} {request : KickRequest} (h : BudgetBut dr (also m ex) p) (out : ¬ ex m) {cost : Nat}
    (fits : cost + p.arbiter.unitsInUse ≤ p.settings.budgetUnits) (may : MayBeGranted p m request) (short : Bool)
    (waited : Nat) : BudgetBut dr ex (grant m cost request short waited p) := by
  obtain ⟨hg, he⟩ := h.free m (also_self _ _)
  have units : (p.setPlace m (some cost)).arbiter.unitsInUse ≤ p.settings.budgetUnits := by
    have := unitsInUse_setPlace p m (some cost)
    rw [hg] at this
    simp only [Option.getD_none, Option.getD_some] at this
    omega
  cases request with
  | strike plan =>
    obtain ⟨hk, pending⟩ := may
    have same := filed_same (plan.withShort short) .played waited (p.setPlace m (some cost))
    rw [grant_strike]
    refine h.update m ?_ ?_ (fun n hn => ?_) (fun n hn => (also_ne hn).symm) (fun c => absurd c out) fun _ => ?_
    · rw [Part.setKey_arbiter, Part.setKey_settings, same.unitsInUse, same.budget]
      exact units
    · rw [Part.setKey_arbiter, same.wait]
      exact h.list
    · exact ((setPlace_kept p m _ hn).trans (same.kept n)).trans (setKey_kept _ _ _ (hk ▸ hn))
    · have noEntry : ¬ Part.hasEntry (((p.setPlace m (some cost)).filed (plan.withShort short) .played waited).setKey
          plan.line ((p.key plan.line).kicked (plan.withShort short) p.settings.pwmBase p.now)) (keyLineNo plan.line) := by
        rw [hasEntry_iff, Part.setKey_arbiter, same.wait, ← hk]
        exact fun c => he ((hasEntry_iff p m).2 c)
      have place : (((p.setPlace m (some cost)).filed (plan.withShort short) .played waited).setKey
          plan.line ((p.key plan.line).kicked (plan.withShort short) p.settings.pwmBase
            p.now)).arbiter.grants[keyLineNo plan.line] = some cost := by
        rw [Part.setKey_arbiter, same.grants]
        exact setPlace_getElem_of_eq _ _ hk.symm
      refine .of_key hk ?_
      unfold KeyGood KeySound KeyLine.DutySound
      simp only [Part.key_setKey_same, KeyLine.kicked]
      refine ⟨⟨⟨fun _ => ?_, fun _ => trivial⟩, ?_, ?_, fun _ => .inl trivial, ?_, ?_, ?_⟩, fun _ => ?_⟩
      · exact ne_of_eq_of_ne place (Option.some_ne_none _)
      · simp only [reduceCtorEq, false_iff]
        exact noEntry
      · simp
      · rintro x hx
        cases hx
        rfl
      · intro x hx
        rw [pending] at hx
        cases hx
      · intro c
        cases c
      · refine ⟨fun c => absurd rfl c, fun x hx => ⟨fun _ => ?_, fun c => by cases c⟩⟩
        cases hx
        exact setDuty_duty _ _ _ _
  | lift depth =>
    obtain ⟨d, hd⟩ := may
    rw [grant_lift hd]
    refine h.update m ?_ ?_ (fun n hn => ?_) (fun n hn => (also_ne hn).symm) (fun c => absurd c out) fun _ => ?_
    · rw [Part.setPedal_arbiter, Part.setPedal_settings]
      exact units
    · simpa using h.list
    · exact (setPlace_kept p m _ hn).trans (setPedal_kept _ _ _ (hd ▸ hn))
    · refine .of_pedal hd ?_
      unfold PedalSound
      simp only [Part.pedal_setPedal_same, PedalRecord.lifted]
      refine ⟨⟨fun _ => ?_, fun _ => trivial⟩, ?_, ?_⟩
      · exact ne_of_eq_of_ne ((setPedal_grants _ d _ _).trans (setPlace_getElem_of_eq _ _ hd.symm))
          (Option.some_ne_none _)
      · simp only [reduceCtorEq, false_iff, hasEntry_setPedal]
        exact hd ▸ he
      · simp

end

end Sys2Proof.Machine
end

section
/-! PROOFS. The granting pass: what it moves, and that it keeps the budget (R114). -/

namespace Sys2Proof.Machine

/-! ### What a pass moves -/

/-- `q` differs from `p` in nothing but the key lines, the pedals' records and the arbiter. -/
structure UnitsOnly (p q : Part) : Prop extends LinesOnly p q where
  choices : q.choices = p.choices
  holdCuts : q.drives.holdCuts = p.drives.holdCuts
  notices : q.notices = p.notices
  same_link : q.link = p.link

namespace UnitsOnly

theorem refl (p : Part) : UnitsOnly p p :=
  ⟨.refl p, rfl, rfl, rfl, rfl⟩

theorem trans {p q r : Part} (h : UnitsOnly p q) (g : UnitsOnly q r) : UnitsOnly p r :=
  ⟨h.toLinesOnly.trans g.toLinesOnly, g.choices.trans h.choices, g.holdCuts.trans h.holdCuts,
    g.notices.trans h.notices, g.same_link.trans h.same_link⟩

end UnitsOnly

/-- What a granting pass moves: the entries it grants leave the front of the list, each with its place filled and its kick
or lift started, and nothing else moves but the count and the records of plans played. -/
structure PassMoves (p q : Part) : Prop where
  frame : UnitsOnly p q
  wait : q.arbiter.wait <:+ p.arbiter.wait
  key : ∀ k, q.key k = p.key k ∨ (¬ q.hasEntry (keyLineNo k) ∧ ∃ e ∈ p.arbiter.wait, ∃ plan,
    e.line = keyLineNo k ∧ e.request = .strike plan ∧ q.arbiter.grants[keyLineNo k] = some e.cost
      ∧ q.key k = (p.key k).kicked (plan.withShort e.short) p.settings.pwmBase p.now)
  pedal : ∀ d, q.pedal d = p.pedal d ∨ (¬ q.hasEntry (pedalLineNo d) ∧ p.hasEntry (pedalLineNo d)
    ∧ q.pedal d = (p.pedal d).lifted p.settings d p.now)
  grants : ∀ m, ¬ p.hasEntry m → q.arbiter.grants[m] = p.arbiter.grants[m]
  outcomes : ∀ i : Fin 8, i ≠ 0 → q.arbiter.outcomes[i] = p.arbiter.outcomes[i]
  latePedals : q.arbiter.latePedals = p.arbiter.latePedals
  withdrawals : q.arbiter.withdrawals = p.arbiter.withdrawals

namespace PassMoves

theorem refl (p : Part) : PassMoves p p :=
  ⟨.refl p, List.suffix_rfl, fun _ => .inl rfl, fun _ => .inl rfl, fun _ _ => rfl, fun _ _ => rfl, rfl, rfl⟩

theorem hasEntry {p q : Part} (h : PassMoves p q) {m : LineNo} (hm : q.hasEntry m) : p.hasEntry m := by
  obtain ⟨e, he, hl⟩ := hm
  exact ⟨e, h.wait.subset he, hl⟩

/-- A key line without an entry is not moved. -/
theorem key_of_no_entry {p q : Part} (h : PassMoves p q) {k : KeyNo} (hk : ¬ p.hasEntry (keyLineNo k)) :
    q.key k = p.key k := by
  rcases h.key k with same | ⟨-, e, he, -, hl, -⟩
  · exact same
  · exact absurd ⟨e, he, hl⟩ hk

/-- A pedal without an entry is not moved. -/
theorem pedal_of_no_entry {p q : Part} (h : PassMoves p q) {d : Pedal} (hd : ¬ p.hasEntry (pedalLineNo d)) :
    q.pedal d = p.pedal d := by
  rcases h.pedal d with same | ⟨-, he, -⟩
  · exact same
  · exact absurd he hd

theorem trans {p q r : Part} (h : PassMoves p q) (g : PassMoves q r) : PassMoves p r where
  frame := h.frame.trans g.frame
  wait := g.wait.trans h.wait
  key k := by
    rcases h.key k with same | ⟨gone, e, he, plan, hl, hr, hg, hk⟩
    · rcases g.key k with same' | ⟨gone, e, he, plan, hl, hr, hg, hk⟩
      · exact .inl (same'.trans same)
      · refine .inr ⟨gone, e, h.wait.subset he, plan, hl, hr, hg, ?_⟩
        rw [hk, same, h.frame.settings, h.frame.now]
    · refine .inr ⟨fun c => gone (g.hasEntry c), e, he, plan, hl, hr, ?_, ?_⟩
      · rw [g.grants _ gone, hg]
      · rw [g.key_of_no_entry gone, hk]
  pedal d := by
    rcases h.pedal d with same | ⟨gone, he, hd⟩
    · rcases g.pedal d with same' | ⟨gone, he, hd⟩
      · exact .inl (same'.trans same)
      · refine .inr ⟨gone, h.hasEntry he, ?_⟩
        rw [hd, same, h.frame.settings, h.frame.now]
    · refine .inr ⟨fun c => gone (g.hasEntry c), he, ?_⟩
      rw [g.pedal_of_no_entry gone, hd]
  grants m hm := (g.grants m fun c => hm (h.hasEntry c)).trans (h.grants m hm)
  outcomes i hi := (g.outcomes i hi).trans (h.outcomes i hi)
  latePedals := g.latePedals.trans h.latePedals
  withdrawals := g.withdrawals.trans h.withdrawals

end PassMoves

/-! ### The pass keeps the budget -/

/-- A line that waits holds no units and, a key line, no pending plan. -/
theorem BudgetBut.waiting {dr : Bool} {ex : LineNo → Prop} {p : Part} (h : BudgetBut dr ex p) {e : WaitEntry} (he : e ∈ p.arbiter.wait) :
    ¬ ex e.line ∧ p.arbiter.grants[e.line] = none ∧ MayBeGranted p e.line e.request := by
  have entry : p.hasEntry e.line := ⟨e, he, rfl⟩
  have inside : ¬ ex e.line := fun c => (h.free _ c).2 entry
  refine ⟨inside, ?_⟩
  have sound := h.list.2.2.2 e he
  obtain ⟨m, priority, cost, request, entered, deadline, short⟩ := e
  rcases line_cases m with ⟨k, rfl⟩ | ⟨d, rfl⟩
  · obtain ⟨plan, hr, rfl, -⟩ := sound.strike_of_key rfl
    obtain ⟨⟨hkick, hq, -, hpend, -⟩, -⟩ := h.key inside
    have queued : (p.key plan.line).state = .queued := hq.2 entry
    refine ⟨?_, ?_⟩
    · by_contra c
      have := hkick.2 c
      rw [queued] at this
      cases this
    · simp only at hr
      subst hr
      refine ⟨rfl, ?_⟩
      by_contra c
      rcases hpend c with c | c <;> rw [queued] at c <;> cases c
  · obtain ⟨⟨depth, hr⟩, -⟩ := sound.lift_of_pedal rfl
    obtain ⟨hlift, hw, -⟩ := h.pedal inside
    have waiting : (p.pedal d).state = .waiting := hw.2 entry
    refine ⟨?_, ?_⟩
    · by_contra c
      have := hlift.2 c
      rw [waiting] at this
      cases this
    · simp only at hr
      subst hr
      exact ⟨d, rfl⟩

/-- The list without its head. -/
theorem dropEntry_head {p : Part} {e : WaitEntry} {rest : List WaitEntry} (hw : p.arbiter.wait = e :: rest) :
    p.dropEntry e.line = p.setWait rest := by
  rw [Part.dropEntry, hw, List.eraseP_cons_of_pos (by simp)]

/-- What a grant leaves in the grant table and the list. -/
theorem grant_arbiter {m : LineNo} {request : KickRequest} {p : Part} (may : MayBeGranted p m request) (cost : Nat)
    (short : Bool) (waited : Nat) :
    (grant m cost request short waited p).arbiter.grants = p.arbiter.grants.set m (some cost)
      ∧ (grant m cost request short waited p).arbiter.wait = p.arbiter.wait := by
  cases request with
  | strike plan =>
    obtain ⟨-, -, -, -, hg, hw⟩ := filed_keeps (plan.withShort short) .played waited (p.setPlace m (some cost))
    rw [grant_strike]
    exact ⟨hg, hw⟩
  | lift depth =>
    obtain ⟨d, hd⟩ := may
    rw [grant_lift hd, Part.setPedal_arbiter]
    exact ⟨rfl, rfl⟩

/-- The head of a list that fits is granted, and nothing else moves. -/
theorem grant_moves {dr : Bool} {ex : LineNo → Prop} {p : Part} {e : WaitEntry} {rest : List WaitEntry} (hw : p.arbiter.wait = e :: rest)
    (h : BudgetBut dr ex p) (waited : Nat) :
    PassMoves p (grant e.line e.cost e.request e.short waited (p.setWait rest)) := by
  have mem : e ∈ p.arbiter.wait := by simp [hw]
  have entry : p.hasEntry e.line := ⟨e, mem, rfl⟩
  obtain ⟨inside, place, may⟩ := h.waiting mem
  have sound := h.list.2.2.2 e mem
  have gone : ¬ (p.setWait rest).hasEntry e.line := by
    rw [← dropEntry_head hw]
    exact not_hasEntry_dropEntry h.list e.line
  have may : MayBeGranted (p.setWait rest) e.line e.request := by
    cases hr : e.request <;> rw [hr] at may <;> exact may
  obtain ⟨grants, wait⟩ := grant_arbiter may e.cost e.short waited
  generalize hq : grant e.line e.cost e.request e.short waited (p.setWait rest) = q at grants wait
  have gone : ¬ q.hasEntry e.line := by
    rw [hasEntry_iff, wait, ← hasEntry_iff]
    exact gone
  have others : ∀ m, ¬ p.hasEntry m → q.arbiter.grants[m] = p.arbiter.grants[m] := fun m hm => by
    have apart : e.line.val ≠ m.val := fun c => hm (Fin.ext c ▸ entry)
    rw [grants]
    exact Vector.getElem_set_ne e.line.isLt m.isLt apart
  have suffix : q.arbiter.wait <:+ p.arbiter.wait := by
    rw [wait, hw]
    exact List.suffix_cons e rest
  rcases line_cases e.line with ⟨k, hk⟩ | ⟨d, hd⟩
  · obtain ⟨plan, hr, rfl, -⟩ := sound.strike_of_key hk
    have filled : q.arbiter.grants[keyLineNo plan.line] = some e.cost := by
      rw [grants]
      exact setPlace_getElem_of_eq (p.setWait rest) (some e.cost) hk.symm
    rw [hr, grant_strike] at hq
    refine ⟨?_, suffix, fun j => ?_, fun d => .inl ?_, others, fun i hi => ?_, ?_, ?_⟩
    · rw [← hq]
      exact UnitsOnly.mk ((((setWait_frame p rest).trans (setPlace_frame _ _ _)).trans
        ((endPlan_eq_filed _ _ _ _) ▸ endPlan_frame (plan.withShort e.short) .played waited _)).trans
        (setKey_frame _ _ _)) rfl rfl rfl rfl
    · by_cases hj : j = plan.line
      · subst hj
        refine .inr ⟨hk ▸ gone, e, mem, plan, hk, hr, filled, ?_⟩
        rw [← hq, Part.key_setKey_same]
        rfl
      · left
        rw [← hq, Part.key_setKey_ne _ _ hj]
        rfl
    · rw [← hq, Part.setKey_pedal]
      cases d <;> rfl
    · rw [← hq]
      have : (StrikeOutcome.code .played).val ≠ i.val := fun c => hi (Fin.ext c.symm)
      exact Vector.getElem_set_ne (StrikeOutcome.code .played).isLt i.isLt this
    · rw [← hq]
      rfl
    · rw [← hq]
      rfl
  · obtain ⟨⟨depth, hr⟩, -⟩ := sound.lift_of_pedal hd
    rw [hr, grant_lift hd] at hq
    refine ⟨?_, suffix, fun k => .inl ?_, fun f => ?_, others, fun i _ => ?_, ?_, ?_⟩
    · rw [← hq]
      exact UnitsOnly.mk (((setWait_frame p rest).trans (setPlace_frame _ _ _)).trans (setPedal_frame _ _ _))
        (by rw [Part.setPedal_choices]; rfl) (by simp) (by simp) (by simp)
    · simp [← hq]
    · by_cases hf : f = d
      · subst hf
        refine .inr ⟨hd ▸ gone, hd ▸ entry, ?_⟩
        rw [← hq, Part.pedal_setPedal_same, Part.setWait_pedal]
        rfl
      · left
        rw [← hq, Part.pedal_setPedal_ne _ _ hf]
        simp
    all_goals
      rw [← hq, Part.setPedal_arbiter]
      rfl

/-- A grant of the head of a list that fits keeps the budget. -/
theorem grant_head {dr : Bool} {ex : LineNo → Prop} {p : Part} {e : WaitEntry} {rest : List WaitEntry} (hw : p.arbiter.wait = e :: rest)
    (h : BudgetBut dr ex p) (fits : p.fits e.cost = true) (waited : Nat) :
    (grant e.line e.cost e.request e.short waited (p.setWait rest)).arbiter.wait = rest
      ∧ BudgetBut dr ex (grant e.line e.cost e.request e.short waited (p.setWait rest)) := by
  obtain ⟨inside, place, may⟩ := h.waiting (e := e) (by simp [hw])
  have may : MayBeGranted (p.setWait rest) e.line e.request := by
    cases hr : e.request <;> rw [hr] at may <;> exact may
  have left : BudgetBut dr (also e.line ex) (p.setWait rest) := dropEntry_head hw ▸ h.drop place
  exact ⟨(grant_arbiter may e.cost e.short waited).2, left.grant inside (of_decide_eq_true fits) may e.short waited⟩

theorem setWait_self {p : Part} {w : List WaitEntry} (h : p.arbiter.wait = w) : p.setWait w = p := by
  subst h
  rfl

/-- A granting pass keeps the budget, leaves a head that does not fit, and moves lines that waited alone (R114). -/
theorem grantFrom_keeps {dr : Bool} {ex : LineNo → Prop} (w : List WaitEntry) (p : Part) (hw : p.arbiter.wait = w) (h : BudgetBut dr ex p) :
    BudgetBut dr ex (grantFrom w p) ∧ HeadWaits (grantFrom w p) ∧ PassMoves p (grantFrom w p) := by
  induction w generalizing p with
  | nil =>
    rw [grantFrom, setWait_self hw]
    exact ⟨h, fun e he => by simp [hw] at he, .refl p⟩
  | cons e rest ih =>
    rw [grantFrom]
    split
    · next fits =>
      obtain ⟨hw', hb⟩ := grant_head hw h fits (wholeMs e.entered p.now)
      have hm := grant_moves hw h (wholeMs e.entered p.now)
      obtain ⟨hb', head, hm'⟩ := ih _ hw' hb
      exact ⟨hb', head, hm.trans hm'⟩
    · next fits =>
      rw [setWait_self hw]
      refine ⟨h, fun x hx => ?_, .refl p⟩
      simp only [hw, List.head?_cons, Option.some.injEq] at hx
      subst hx
      simpa [Part.fits] using fits

section
variable {dr : Bool} {ex : LineNo → Prop} {p : Part} (h : BudgetBut dr ex p)
include h

theorem grantingPass_but : BudgetBut dr ex (grantingPass p) := (grantFrom_keeps _ p rfl h).1

theorem grantingPass_head : HeadWaits (grantingPass p) := (grantFrom_keeps _ p rfl h).2.1

theorem grantingPass_moves : PassMoves p (grantingPass p) := (grantFrom_keeps _ p rfl h).2.2

end

/-- A pass closes an operation that has left out no line. -/
theorem grantingPass_good {dr : Bool} {p : Part} (h : BudgetBut dr noLine p) : Good dr (grantingPass p) :=
  ⟨grantingPass_but h, grantingPass_head h⟩

/-- A head that fits leaves the list (R114). -/
theorem grantingPass_head_granted {dr : Bool} {ex : LineNo → Prop} {p : Part} {e : WaitEntry} {rest : List WaitEntry}
    (hw : p.arbiter.wait = e :: rest) (h : BudgetBut dr ex p) (fits : p.fits e.cost = true) :
    ¬ (grantingPass p).hasEntry e.line := by
  obtain ⟨hw', hb⟩ := grant_head hw h fits (wholeMs e.entered p.now)
  have pass : grantingPass p
      = grantFrom rest (grant e.line e.cost e.request e.short (wholeMs e.entered p.now) (p.setWait rest)) := by
    rw [grantingPass, hw, grantFrom, if_pos fits]
  have gone : e.line ∉ rest.map WaitEntry.line := by
    have := h.list.2.1
    rw [hw, List.map_cons, List.nodup_cons] at this
    exact this.1
  rw [pass, hasEntry_iff]
  intro c
  obtain ⟨x, hx, hl⟩ := List.mem_map.1 c
  have := (grantFrom_keeps _ _ hw' hb).2.2.wait.subset hx
  rw [hw'] at this
  exact gone (hl ▸ List.mem_map_of_mem this)

end Sys2Proof.Machine
end

section
/-! PROOFS. The requests to the Kick Arbiter, and the entries that leave it without a grant, keep the budget (R112, R113, R117
to R122). -/

namespace Sys2Proof.Machine

/-! ### Lines that stand aside -/

/-- A line without an entry is left as it is. -/
structure Untouched (p q : Part) (n : LineNo) : Prop where
  entry : ¬ q.hasEntry n
  grant : q.arbiter.grants[n] = p.arbiter.grants[n]
  key : ∀ k, n = keyLineNo k → q.key k = p.key k
  pedal : ∀ d, n = pedalLineNo d → q.pedal d = p.pedal d

/-- Every line but those in `ms` stands aside: without an entry, it is left as it is, and with one it takes no fault. -/
structure Aside (ms : LineNo → Prop) (p q : Part) : Prop where
  still : ∀ n, ¬ ms n → ¬ p.hasEntry n → Untouched p q n
  faulted : ∀ k, ¬ ms (keyLineNo k) → (q.key k).state = .faulted → (p.key k).state = .faulted
  fault : ∀ d, ¬ ms (pedalLineNo d) → (q.pedal d).fault = (p.pedal d).fault

/-- One line alone. -/
def only (m : LineNo) : LineNo → Prop := fun n => n = m

theorem only_self (m : LineNo) : only m m := rfl

namespace Aside

variable {ms : LineNo → Prop} {p q r : Part}

theorem refl (ms : LineNo → Prop) (p : Part) : Aside ms p p :=
  ⟨fun _ _ he => ⟨he, rfl, fun _ _ => rfl, fun _ _ => rfl⟩, fun _ _ => id, fun _ _ => rfl⟩

theorem trans (h : Aside ms p q) (g : Aside ms q r) : Aside ms p r where
  still n hn he := by
    obtain ⟨he, hg, hk, hd⟩ := h.still n hn he
    obtain ⟨he', hg', hk', hd'⟩ := g.still n hn he
    exact ⟨he', hg'.trans hg, fun k hk0 => (hk' k hk0).trans (hk k hk0), fun d hd0 => (hd' d hd0).trans (hd d hd0)⟩
  faulted k hk hs := h.faulted k hk (g.faulted k hk hs)
  fault d hd := (g.fault d hd).trans (h.fault d hd)

theorem mono {ms' : LineNo → Prop} (h : Aside ms p q) (sub : ∀ n, ms n → ms' n) : Aside ms' p q :=
  ⟨fun n hn => h.still n fun c => hn (sub n c), fun k hk => h.faulted k fun c => hk (sub _ c),
    fun d hd => h.fault d fun c => hd (sub _ c)⟩

/-- Parts with the same lines. -/
theorem of_lines (keys : ∀ k, q.key k = p.key k) (pedals : ∀ d, q.pedal d = p.pedal d)
    (still : ∀ n, ¬ ms n → ¬ p.hasEntry n → ¬ q.hasEntry n ∧ q.arbiter.grants[n] = p.arbiter.grants[n]) :
    Aside ms p q :=
  ⟨fun n hn he => ⟨(still n hn he).1, (still n hn he).2, fun k _ => keys k, fun d _ => pedals d⟩,
    fun k _ hs => by rwa [keys k] at hs, fun d _ => by rw [pedals d]⟩

/-- Parts with the same lines, places and entries. -/
theorem of_eq (grants : q.arbiter.grants = p.arbiter.grants) (wait : q.arbiter.wait = p.arbiter.wait)
    (keys : ∀ k, q.key k = p.key k) (pedals : ∀ d, q.pedal d = p.pedal d) : Aside ms p q :=
  of_lines keys pedals fun n _ he => ⟨by rwa [Part.hasEntry, wait], by rw [grants]⟩

theorem setKey {k : KeyNo} (hk : ms (keyLineNo k)) (l : KeyLine) : Aside ms p (p.setKey k l) where
  still n hn he :=
    ⟨he, rfl, fun j hj => Part.key_setKey_ne p l fun c => hn (by rw [hj, c]; exact hk), fun d _ => by simp⟩
  faulted j hj hs := by rwa [Part.key_setKey_ne p l fun c => hj (by rw [c]; exact hk)] at hs
  fault d _ := by rw [Part.setKey_pedal]

/-- A line that waits does not stand aside anyway. -/
theorem setKey_of_entry {k : KeyNo} (entry : p.hasEntry (keyLineNo k)) {l : KeyLine} (hl : l.state ≠ .faulted) :
    Aside ms p (p.setKey k l) where
  still n _ he :=
    ⟨he, rfl, fun j hj => Part.key_setKey_ne p l fun c => he (by rw [hj, c]; exact entry), fun d _ => by simp⟩
  faulted j _ hs := by
    rw [key_setKey] at hs
    split at hs
    · exact absurd hs hl
    · exact hs
  fault d _ := by rw [Part.setKey_pedal]

theorem setPedal {d : Pedal} (hd : ms (pedalLineNo d)) (r : PedalRecord) : Aside ms p (p.setPedal d r) where
  still n hn he :=
    ⟨by rwa [hasEntry_setPedal], setPedal_grants p d r n, fun j _ => by simp,
      fun e he => Part.pedal_setPedal_ne p r fun c => hn (by rw [he, c]; exact hd)⟩
  faulted k _ hs := by rwa [Part.setPedal_key] at hs
  fault e he := by rw [Part.pedal_setPedal_ne p r fun c => he (by rw [c]; exact hd)]

theorem setPlace {m : LineNo} (hm : ms m) (c : Option Nat) : Aside ms p (p.setPlace m c) :=
  of_lines (fun _ => rfl) (fun _ => Part.setPlace_pedal _ _ _ _) fun n hn he =>
    ⟨he, (setPlace_kept p m c fun e => hn (by rw [e]; exact hm)).grant⟩

/-- A list whose lines had entries before, or are in `ms`. -/
theorem setWait {w : List WaitEntry} (hw : ∀ e ∈ w, ms e.line ∨ p.hasEntry e.line) : Aside ms p (p.setWait w) :=
  of_lines (fun _ => rfl) (fun _ => Part.setWait_pedal _ _ _) fun n hn he => by
    refine ⟨fun ⟨e, hm, hl⟩ => ?_, rfl⟩
    rcases hw e hm with c | c
    · exact hn (hl ▸ c)
    · exact he (hl ▸ c)

/-- A list that is left of the one before. -/
theorem setWait_subset {w : List WaitEntry} (hw : w ⊆ p.arbiter.wait) : Aside ms p (p.setWait w) :=
  setWait fun e he => .inr ⟨e, hw he, rfl⟩

theorem filed (plan : Plan) (o : StrikeOutcome) (waited : Nat) : Aside ms p (p.filed plan o waited) := by
  obtain ⟨hd, hp, -, -, hg, hw⟩ := filed_keeps plan o waited p
  exact of_eq hg hw (fun k => by rw [Part.key, hd, Part.key]) fun d => by cases d <;> simp only [Part.pedal, hp]

theorem endPlan (plan : Plan) (o : StrikeOutcome) (waited : Nat) : Aside ms p (endPlan plan o waited p) :=
  endPlan_eq_filed plan o waited p ▸ filed plan o waited

theorem notices (f : Notices → Notices) : Aside ms p (updateNotices f p) :=
  of_eq rfl rfl (fun _ => rfl) fun d => by cases d <;> rfl

theorem joined {e : WaitEntry} (he : ms e.line) : Aside ms p (p.joined e) :=
  of_lines (fun _ => rfl) (fun d => by cases d <;> rfl) fun n hn hx => by
    refine ⟨fun c => ?_, rfl⟩
    rcases (hasEntry_joined p e n).1 c with c | c
    · exact hn (c ▸ he)
    · exact hx c

/-- A grant touches its own line. -/
theorem grant {m : LineNo} (hm : ms m) {request : KickRequest} (may : MayBeGranted p m request) (cost : Nat)
    (short : Bool) (waited : Nat) : Aside ms p (grant m cost request short waited p) := by
  cases request with
  | strike plan =>
    rw [grant_strike]
    exact ((setPlace hm _).trans (filed _ _ _)).trans (setKey (may.1 ▸ hm) _)
  | lift depth =>
    obtain ⟨d, hd⟩ := may
    rw [grant_lift hd]
    exact (setPlace hm _).trans (setPedal (hd ▸ hm) _)

/-- A pass touches lines that wait alone. -/
theorem pass {dr : Bool} {ex : LineNo → Prop} (h : BudgetBut dr ex p) : Aside ms p (grantingPass p) where
  still n _ he :=
    have moves := grantingPass_moves h
    ⟨fun c => he (moves.hasEntry c), moves.grants n he, fun _ hk => moves.key_of_no_entry (hk ▸ he),
      fun _ hd => moves.pedal_of_no_entry (hd ▸ he)⟩
  faulted k _ hs := by
    rcases (grantingPass_moves h).key k with same | ⟨-, e, -, plan, -, -, -, kicked⟩
    · rwa [same] at hs
    · rw [kicked] at hs
      cases hs
  fault d _ := by
    rcases (grantingPass_moves h).pedal d with same | ⟨-, -, lifted⟩
    · rw [same]
    · rw [lifted]
      rfl

end Aside

/-! ### Records that agree with the arbiter -/

section
variable {dr : Bool} {p : Part} {k : KeyNo} {l : KeyLine}

/-- A line that neither draws units nor waits may be in any state but KICK and QUEUED. -/
theorem KeyGood.settled (hg : p.arbiter.grants[keyLineNo k] = none) (he : ¬ p.hasEntry (keyLineNo k))
    (kick : l.state ≠ .kick) (queued : l.state ≠ .queued) (plan : l.state = .hold ↔ l.plan ≠ none)
    (own : ∀ plan, l.plan = some plan → plan.line = k) (pending : l.pending ≠ none → l.state = .release)
    (pendingOwn : ∀ plan, l.pending = some plan → plan.line = k ∧ 1 ≤ plan.priority) (duty : dr = true → l.DutySound) :
    KeyGood dr (p.setKey k l) k := by
  unfold KeyGood KeySound
  rw [Part.key_setKey_same]
  exact ⟨⟨iff_of_false kick fun c => c hg, iff_of_false queued he, (or_iff_right kick).trans plan,
    fun c => .inr (pending c), own, pendingOwn, fun c => absurd c queued⟩, duty⟩

/-- A line that has nothing in hand and is not driven. -/
theorem KeyGood.idle (hg : p.arbiter.grants[keyLineNo k] = none) (he : ¬ p.hasEntry (keyLineNo k))
    (state : l.state = .idle) (plan : l.plan = none) (pending : l.pending = none)
    (duty : dr = true → l.drive.duty = none) : KeyGood dr (p.setKey k l) k := by
  refine .settled hg he ?_ ?_ ?_ ?_ ?_ ?_ fun on => ⟨fun _ _ => duty on, ?_⟩ <;> simp [state, plan, pending]

/-- A QUEUED line has neither a plan in hand nor a pending one, does not rest and is not driven. -/
theorem KeyGood.of_queued (h : KeyGood dr p k) (hq : (p.key k).state = .queued) :
    (p.key k).plan = none ∧ (p.key k).pending = none ∧ (p.key k).resting = false
      ∧ (dr = true → (p.key k).drive.duty = none) := by
  obtain ⟨⟨-, -, hplan, hpend, -, -, hrest⟩, hd⟩ := h
  refine ⟨?_, ?_, hrest hq, fun on => (hd on).1 (by simp [hq]) (by simp [hq])⟩
  · by_contra c
    have := hplan.2 c
    simp [hq] at this
  · by_contra c
    have := hpend c
    simp [hq] at this

/-- An IDLE line has no place, no entry and no plan, and is not driven. -/
theorem KeyGood.of_idle (h : KeyGood dr p k) (hi : (p.key k).state = .idle) :
    p.arbiter.grants[keyLineNo k] = none ∧ ¬ p.hasEntry (keyLineNo k) ∧ (p.key k).plan = none
      ∧ (p.key k).pending = none ∧ (dr = true → (p.key k).drive.duty = none) := by
  obtain ⟨⟨hkick, hq, hplan, hpend, -, -, -⟩, hd⟩ := h
  refine ⟨?_, fun c => ?_, ?_, ?_, fun on => (hd on).1 (by simp [hi]) (by simp [hi])⟩
  · by_contra c
    have := hkick.2 c
    simp [hi] at this
  · have := hq.2 c
    simp [hi] at this
  · by_contra c
    have := hplan.2 c
    simp [hi] at this
  · by_contra c
    have := hpend c
    simp [hi] at this

/-- A line in neither KICK nor QUEUED has no place and no entry. -/
theorem KeyGood.free (h : KeyGood dr p k) (kick : (p.key k).state ≠ .kick) (queued : (p.key k).state ≠ .queued) :
    p.arbiter.grants[keyLineNo k] = none ∧ ¬ p.hasEntry (keyLineNo k) :=
  ⟨not_not.1 fun c => kick (h.1.1.2 c), fun c => queued (h.1.2.1.2 c)⟩

/-- A pedal that is neither LIFTING nor WAITING has no place and no entry. -/
theorem PedalSound.free {d : Pedal} (h : PedalSound p d) (lifting : (p.pedal d).state ≠ .lifting)
    (waiting : (p.pedal d).state ≠ .waiting) :
    p.arbiter.grants[pedalLineNo d] = none ∧ ¬ p.hasEntry (pedalLineNo d) :=
  ⟨not_not.1 fun c => lifting (h.1.2 c), fun c => waiting (h.2.1.2 c)⟩

/-- A pedal without a place and an entry agrees with the arbiter in three states. -/
theorem PedalSound.settled {d : Pedal} {r : PedalRecord} (hg : p.arbiter.grants[pedalLineNo d] = none)
    (he : ¬ p.hasEntry (pedalLineNo d)) (lifting : r.state ≠ .lifting) (waiting : r.state ≠ .waiting)
    (origin : r.origin = none) : PedalSound (p.setPedal d r) d := by
  unfold PedalSound
  rw [Part.pedal_setPedal_same, setPedal_grants, hasEntry_setPedal]
  exact ⟨iff_of_false lifting fun c => c hg, iff_of_false waiting he, iff_of_false waiting fun c => c origin⟩

/-- The head waits while the list, the places and the budget stand. -/
theorem HeadWaits.of_arbiter {q : Part} (h : HeadWaits p) (ha : q.arbiter = p.arbiter)
    (budget : q.settings.budgetUnits = p.settings.budgetUnits) : HeadWaits q := by
  rw [HeadWaits, ha, budget]
  exact h

/-- A key line's record may change to any that agrees with the arbiter. -/
theorem Good.setKey (h : Good dr p) (hs : KeyGood dr (p.setKey k l) k) : Good dr (p.setKey k l) :=
  ⟨h.but.update (keyLineNo k) h.but.units h.but.list (fun _ hn => setKey_kept p k l hn) (fun _ _ => Iff.rfl)
    (fun c => c.elim) fun _ => (lineSound_keyLineNo dr _ k).2 hs, h.head⟩

/-- A pedal's record may change to any that agrees with the arbiter. -/
theorem Good.setPedal {d : Pedal} {r : PedalRecord} (h : Good dr p) (hs : PedalSound (p.setPedal d r) d) :
    Good dr (p.setPedal d r) :=
  ⟨h.but.update (pedalLineNo d) (by simpa using h.but.units) (by simpa using h.but.list)
    (fun _ hn => setPedal_kept p d r hn) (fun _ _ => Iff.rfl) (fun c => c.elim)
    fun _ => (lineSound_pedalLineNo dr _ d).2 hs,
    h.head.of_arbiter (Part.setPedal_arbiter p d r) (by rw [Part.setPedal_settings])⟩

/-! ### Entries that leave without a grant -/

/-- A key entry leaves and its line is IDLE: no budget is used (R131). -/
theorem BudgetBut.unqueue {ex : LineNo → Prop} (h : BudgetBut dr ex p) {e : WaitEntry} {plan : Plan}
    (he : e ∈ p.arbiter.wait) (hr : e.request = .strike plan) :
    BudgetBut dr ex (unqueueKey plan.line (p.dropEntry e.line)) := by
  obtain ⟨inside, place, -⟩ := h.waiting he
  have line := ((h.list.2.2.2 e he).of_strike hr).1
  have entry : p.hasEntry (keyLineNo plan.line) := ⟨e, he, line⟩
  have good : KeyGood dr p plan.line := h.key (line ▸ inside)
  obtain ⟨hp, hpend, -, hd⟩ := good.of_queued (good.1.2.1.2 entry)
  have left := h.drop place
  rw [line] at left ⊢
  refine (left.setKey (also_self _ ex) _).close_key (.idle ?_ ?_ rfl hp hpend hd)
  · exact (left.free _ (also_self _ ex)).1
  · exact (left.free _ (also_self _ ex)).2

/-- A WAITING pedal whose entry has left goes back to a state without one (R152, R154). -/
theorem BudgetBut.return_pedal {d : Pedal} (h : BudgetBut dr (also (pedalLineNo d) noLine) p) :
    BudgetBut dr noLine (returnPedal d p) := by
  obtain ⟨hg, he⟩ := h.free _ (also_self _ noLine)
  unfold returnPedal
  dsimp only
  split <;>
    exact (h.setPedal (also_self _ noLine) _).close_pedal
      (.settled hg he (by simp) (by simp) rfl)

theorem returnPedal_arbiter (d : Pedal) (p : Part) : (returnPedal d p).arbiter = p.arbiter := by
  unfold returnPedal
  dsimp only
  split <;> exact Part.setPedal_arbiter _ _ _

theorem returnPedal_aside {ms : LineNo → Prop} {d : Pedal} (hd : ms (pedalLineNo d)) : Aside ms p (returnPedal d p) := by
  unfold returnPedal
  dsimp only
  split <;> exact .setPedal hd _

theorem dropEntry_getLast {p : Part} (h : listSound p.arbiter.wait) {last : WaitEntry}
    (hl : p.arbiter.wait.getLast? = some last) : p.dropEntry last.line = p.setWait p.arbiter.wait.dropLast := by
  have nodup := h.2.1
  have hw := List.dropLast_append_getLast? last hl
  rw [Part.dropEntry]
  congr 1
  rw [← hw, List.map_append, List.nodup_append] at nodup
  conv_lhs => rw [← hw]
  rw [List.eraseP_append_right]
  · simp
  · intro x hx c
    exact nodup.2.2 _ (List.mem_map_of_mem hx) last.line (by simp) (by simpa using c)

/-! ### Arrivals (R112, R113) -/

/-- A line that has made a request and nothing more: a key's line has no plan and does not rest, a pedal is WAITING. -/
def Asks (dr : Bool) (p : Part) (m : LineNo) (request : KickRequest) : Prop :=
  match request with
  | .strike plan => m = keyLineNo plan.line ∧ (p.key plan.line).plan = none ∧ (p.key plan.line).pending = none
      ∧ (p.key plan.line).resting = false ∧ (dr = true → (p.key plan.line).drive.duty = none)
  | .lift _ => ∃ d, m = pedalLineNo d ∧ (p.pedal d).state = .waiting ∧ (p.pedal d).origin ≠ none

theorem Asks.mayBeGranted {m : LineNo} {request : KickRequest} (h : Asks dr p m request) : MayBeGranted p m request := by
  cases request with
  | strike plan => exact ⟨h.1, h.2.2.1⟩
  | lift depth =>
    obtain ⟨d, hd, -⟩ := h
    exact ⟨d, hd⟩

theorem grants_none_of_eq {m n : LineNo} (h : m = n) (hg : p.arbiter.grants[m] = none) : p.arbiter.grants[n] = none := by
  subst h
  exact hg

/-- The part with an entry in the list and its line QUEUED (a pedal is WAITING already), before the granting pass. -/
def joinedLine (e : WaitEntry) (p : Part) : Part :=
  match e.request with
  | .strike plan => queueKey plan.line plan.origin (p.joined e)
  | .lift _ => p.joined e

theorem joinList_eq (hw : listSound p.arbiter.wait) (e : WaitEntry) : joinList e p = grantingPass (joinedLine e p) := by
  unfold joinList joinedLine
  rw [setWait_insertAt hw.2.2.1] <;> rfl

/-- A request joins the list, its line QUEUED or WAITING (R112). -/
theorem joinedLine_but {e : WaitEntry} (h : BudgetBut dr (also e.line noLine) p) (room : p.arbiter.wait.length < 32)
    (hs : e.sound) (asks : Asks dr p e.line e.request) : BudgetBut dr noLine (joinedLine e p) := by
  obtain ⟨hg, he⟩ := h.free e.line (also_self _ _)
  unfold joinedLine
  cases hr : e.request with
  | strike plan =>
    rw [hr] at asks
    obtain ⟨hk, hplan, hpend, hrest, hd⟩ := asks
    have left := h.setKey (k := plan.line) (hk ▸ also_self _ _)
      { p.key plan.line with state := .queued, queuedOrigin := some plan.origin }
    refine left.join (e := e) room hs id (.of_key hk ?_)
    have entry : ((p.setKey plan.line
        { p.key plan.line with state := .queued, queuedOrigin := some plan.origin }).joined e).hasEntry
          (keyLineNo plan.line) := (hasEntry_joined _ _ _).2 (.inl hk)
    have place := grants_none_of_eq hk hg
    rw [← joined_setKey] at entry ⊢
    unfold KeyGood KeySound KeyLine.DutySound
    rw [Part.key_setKey_same]
    dsimp only
    refine ⟨⟨iff_of_false (by simp) fun c => c place, iff_of_true rfl entry, iff_of_false (by simp) fun c => c hplan,
      fun c => absurd hpend c, ?_, ?_, fun _ => hrest⟩, fun on => ⟨fun _ _ => hd on, ?_⟩⟩
    · simp [hplan]
    · simp [hpend]
    · simp [hplan]
  | lift depth =>
    rw [hr] at asks
    obtain ⟨d, hd, hw, ho⟩ := asks
    refine h.join room hs id (.of_pedal hd ?_)
    have same : (p.joined e).pedal d = p.pedal d := by cases d <;> rfl
    unfold PedalSound
    rw [same]
    have place := grants_none_of_eq hd hg
    exact ⟨iff_of_false (by simp [hw]) fun c => c place, iff_of_true hw ((hasEntry_joined _ _ _).2 (.inl hd)),
      iff_of_true hw ho⟩

theorem evict_wait {last : WaitEntry} {victim : Plan} (hv : last.request = .strike victim) (p : Part) :
    (evict last p).arbiter.wait = p.arbiter.wait.dropLast := by
  simp only [evict, returnLine, hv, endPlan_eq_filed]
  exact (filed_keeps _ _ _ _).2.2.2.2.2

/-- An eviction touches the line of the last entry alone. -/
theorem evict_aside {ms : LineNo → Prop} {last : WaitEntry} {victim : Plan} (hv : last.request = .strike victim)
    (hm : ms last.line) (line : keyLineNo victim.line = last.line) : Aside ms p (evict last p) := by
  simp only [evict, returnLine, hv]
  exact ((Aside.setWait_subset (List.dropLast_subset _)).trans (.setKey (line ▸ hm) _)).trans (.endPlan _ _ _)

/-- A line of the list does not stand aside anyway. -/
theorem evict_aside_entry {ms : LineNo → Prop} {last : WaitEntry} {victim : Plan} (hv : last.request = .strike victim)
    (mem : last ∈ p.arbiter.wait) (line : keyLineNo victim.line = last.line) : Aside ms p (evict last p) := by
  simp only [evict, returnLine, hv]
  have idle : Aside ms p (p.setKey victim.line { p.key victim.line with state := .idle, queuedOrigin := none }) :=
    .setKey_of_entry ⟨last, mem, line.symm⟩ (by simp)
  exact (idle.trans (.setWait_subset (List.dropLast_subset p.arbiter.wait))).trans (.endPlan _ _ _)

theorem joinedLine_aside {e : WaitEntry} (hs : e.sound) : Aside (only e.line) p (joinedLine e p) := by
  unfold joinedLine
  split
  · next plan hr => exact (Aside.joined (only_self _)).trans (.setKey (k := plan.line) (hs.of_strike hr).1.symm _)
  · exact .joined (only_self _)

/-- A request that joins keeps the budget, and touches its own line and lines that waited alone (R112, R114). -/
theorem joinList_good {e : WaitEntry} (h : BudgetBut dr (also e.line noLine) p) (room : p.arbiter.wait.length < 32)
    (hs : e.sound) (asks : Asks dr p e.line e.request) :
    Good dr (joinList e p) ∧ Aside (only e.line) p (joinList e p) := by
  have joined := joinedLine_but h room hs asks
  rw [joinList_eq h.list]
  exact ⟨grantingPass_good joined, (joinedLine_aside hs).trans (.pass joined)⟩

/-- The last entry is evicted (R113). -/
theorem evict_but {ex : LineNo → Prop} (h : BudgetBut dr ex p) {last : WaitEntry} {victim : Plan}
    (hl : p.arbiter.wait.getLast? = some last) (hv : last.request = .strike victim) : BudgetBut dr ex (evict last p) := by
  have unqueued := h.unqueue (List.mem_of_getLast? hl) hv
  rw [dropEntry_getLast h.list hl] at unqueued
  simp only [evict, returnLine, hv]
  exact (endPlan_same _ _ _ _).budgetBut unqueued

/-- A request that neither joins nor is granted leaves its line at rest (R113). -/
theorem turnAway_good {e : WaitEntry} (h : BudgetBut dr (also e.line noLine) p) (head : HeadWaits p)
    (asks : Asks dr p e.line e.request) :
    Good dr (turnAway e p) ∧ Aside (only e.line) p (turnAway e p) := by
  obtain ⟨hg, he⟩ := h.free e.line (also_self _ _)
  unfold turnAway
  cases hr : e.request with
  | strike plan =>
    rw [hr] at asks
    obtain ⟨hk, hplan, hpend, -, hd⟩ := asks
    rw [hk] at h
    have place : p.arbiter.grants[keyLineNo plan.line] = none := (h.free _ (also_self _ _)).1
    have entry : ¬ p.hasEntry (keyLineNo plan.line) := (h.free _ (also_self _ _)).2
    simp only [returnLine, hr]
    refine ⟨(endPlan_same _ _ _ _).good ⟨(h.setKey (also_self _ _) _).close_key (.idle place entry rfl hplan hpend hd),
      head.of_arbiter rfl rfl⟩, ?_⟩
    exact (Aside.setKey hk.symm _).trans (.endPlan _ _ _)
  | lift depth =>
    rw [hr] at asks
    obtain ⟨d, hd, -⟩ := asks
    have back : returnLine e p = returnPedal d p := by
      simp only [returnLine, hr, hd, lineKey_pedalLineNo]
    rw [back]
    rw [hd] at h
    exact ⟨⟨h.return_pedal, head.of_arbiter (returnPedal_arbiter d p) (by rw [(returnPedal_frame d p).settings])⟩,
      returnPedal_aside hd.symm⟩

/-- A request of a line that asks for it keeps the budget, whatever becomes of it, and touches its own line and lines that
waited alone (R112, R113, R115). -/
theorem arrive_good {m : LineNo} {priority cost : Nat} {request : KickRequest} {short : Bool}
    (h : BudgetBut dr (also m noLine) p) (head : HeadWaits p) (hs : (p.newEntry m priority cost request short).sound)
    (asks : Asks dr p m request) :
    Good dr (arrive m priority cost request short p)
      ∧ Aside (only m) p (arrive m priority cost request short p) := by
  unfold arrive
  dsimp only
  split
  · next now =>
    have fits : cost + p.arbiter.unitsInUse ≤ p.settings.budgetUnits := of_decide_eq_true now.2
    refine ⟨⟨h.grant id fits asks.mayBeGranted short 0, fun x hx => ?_⟩, .grant (only_self m) asks.mayBeGranted cost short 0⟩
    obtain ⟨grants, wait⟩ := grant_arbiter asks.mayBeGranted cost short 0
    have old := head x (by rwa [wait] at hx)
    have more := unitsInUse_set p.arbiter m (some cost)
    rw [(h.free m (also_self _ _)).1] at more
    rw [(grant_frame m cost request short 0 p).settings, KickArbiter.unitsInUse, grants]
    simp only [KickArbiter.unitsInUse, Option.getD_none, Option.getD_some] at more old ⊢
    omega
  · split
    · next room => exact joinList_good h room hs asks
    · next full =>
      split
      · exact turnAway_good h head asks
      · next last hl =>
        split
        · next better =>
          have mem := List.mem_of_getLast? hl
          have lastSound := h.list.2.2.2 last mem
          cases hv : last.request with
          | lift depth =>
            have := (lastSound.of_lift hv).2
            omega
          | strike victim =>
            have evicted := evict_but h hl hv
            have free := (h.free m (also_self _ _)).2
            have line := (lastSound.of_strike hv).1.symm
            obtain ⟨-, -, key, pedal⟩ := (evict_aside (ms := only last.line) (p := p) hv (only_self _) line).still m
              (fun c => free ⟨last, mem, c.symm⟩) free
            have room : (evict last p).arbiter.wait.length < 32 := by
              rw [evict_wait hv, List.length_dropLast]
              have := h.list.1
              have := List.length_pos_of_mem mem
              omega
            have asks : Asks dr (evict last p) m request := by
              cases request with
              | strike plan =>
                obtain ⟨hk, rest⟩ := asks
                refine ⟨hk, ?_⟩
                rw [key _ hk]
                exact rest
              | lift depth =>
                obtain ⟨d, hd, rest⟩ := asks
                refine ⟨d, hd, ?_⟩
                rw [pedal d hd]
                exact rest
            obtain ⟨good, aside⟩ := joinList_good (evict_but h hl hv) room hs asks
            exact ⟨good, (evict_aside_entry hv mem line).trans aside⟩
        · exact turnAway_good h head asks

end

end Sys2Proof.Machine
end

section
/-! PROOFS. The key lines' own operations keep the budget: plans that reach a line, note-offs, kicks, holds and guards
(R129 to R136). -/

namespace Sys2Proof.Machine

/-! ### Acts in any order -/

/-- Acts on different elements, each of which leaves the others ready for theirs. -/
theorem inAnyOrder_ready {α : Type} {act : α → Part → Part} {I : Part → Prop} {R : α → Part → Prop} {as : List α}
    {p : Part} (nodup : as.Nodup) (start : I { p with choices := p.choices + (as.length - 1) })
    (ready : ∀ a ∈ as, R a { p with choices := p.choices + (as.length - 1) })
    (step : ∀ a ∈ as, ∀ q, I q → R a q → I (act a q) ∧ ∀ b ∈ as, b ≠ a → R b q → R b (act a q)) :
    I (inAnyOrder as act p) := by
  have fold : ∀ (bs : List α), (∀ b ∈ bs, b ∈ as) → bs.Nodup → ∀ q, I q → (∀ b ∈ bs, R b q) →
      I (bs.foldl (fun q a => act a q) q) := by
    intro bs
    induction bs with
    | nil => exact fun _ _ _ h _ => h
    | cons b bs ih =>
      intro sub nd q h hr
      obtain ⟨apart, nd⟩ := List.nodup_cons.1 nd
      obtain ⟨h', keep⟩ := step b (sub b (.head bs)) q h (hr b (.head bs))
      exact ih (fun c hc => sub c (.tail b hc)) nd _ h' fun c hc =>
        keep c (sub c (.tail b hc)) (fun e => apart (e ▸ hc)) (hr c (.tail b hc))
  exact fold _ (fun b hb => mem_freeOrder.mp hb) ((freeOrder_perm _ _ _).nodup_iff.2 nodup) _ start
    fun b hb => ready b (mem_freeOrder.mp hb)

theorem allKeys_nodup : allKeys.Nodup := List.nodup_finRange 88

section
variable {dr : Bool} {p : Part} {k : KeyNo}

theorem choices_same (p : Part) (n : Nat) : SameUnits p { p with choices := n } :=
  .of_eq rfl rfl rfl (fun _ => rfl) fun d => by cases d <;> rfl

/-! ### Submissions -/

theorem newEntry_strike_sound (p : Part) (plan : Plan) (cost : Nat) (short : Bool) (prio : 1 ≤ plan.priority) :
    (p.newEntry (keyLineNo plan.line) plan.priority cost (.strike plan) short).sound := by
  simp only [WaitEntry.sound, Part.newEntry]
  exact ⟨trivial, prio⟩

/-- The plan of a line with nothing else in hand is submitted (R129, R136). -/
theorem submitPlan_good {plan : Plan} (h : Good dr p) (idle : (p.key plan.line).state = .idle) (prio : 1 ≤ plan.priority)
    (rest : (p.key plan.line).resting = false) :
    Good dr (submitPlan plan p) ∧ Aside (only (keyLineNo plan.line)) p (submitPlan plan p) := by
  obtain ⟨hg, he, hplan, hpend, hd⟩ := (h.key plan.line).of_idle idle
  exact arrive_good (h.but.leave hg he) h.head (newEntry_strike_sound p plan _ _ prio) ⟨rfl, hplan, hpend, rest, hd⟩

/-! ### Into RELEASE and out of it -/

/-- A line in neither KICK nor QUEUED may enter RELEASE. -/
theorem enterRelease_good (h : Good dr p) (kick : (p.key k).state ≠ .kick) (queued : (p.key k).state ≠ .queued) :
    Good dr (enterRelease k p) := by
  obtain ⟨hg, he⟩ := (h.key k).free kick queued
  refine h.setKey (.settled hg he ?_ ?_ ?_ ?_ ?_ (h.key k).1.2.2.2.2.2.1 fun _ => ⟨fun _ _ => ?_, ?_⟩) <;> simp

theorem enterRelease_aside (k : KeyNo) (p : Part) : Aside (only (keyLineNo k)) p (enterRelease k p) :=
  .setKey (only_self _) _

/-- A line in RELEASE has no plan in hand, no place and no entry, and is not driven. -/
theorem KeyGood.of_release (h : KeyGood dr p k) (hr : (p.key k).state = .release) :
    p.arbiter.grants[keyLineNo k] = none ∧ ¬ p.hasEntry (keyLineNo k) ∧ (p.key k).plan = none
      ∧ (dr = true → (p.key k).drive.duty = none) := by
  obtain ⟨hg, he⟩ := h.free (by simp [hr]) (by simp [hr])
  refine ⟨hg, he, ?_, fun on => (h.2 on).1 (by simp [hr]) (by simp [hr])⟩
  by_contra c
  have := h.1.2.2.1.2 c
  simp [hr] at this

/-- The end-of-guard step (R136). -/
theorem endOfGuard_good (h : Good dr p) (hr : (p.key k).state = .release) :
    Good dr (endOfGuard k p) ∧ Aside (only (keyLineNo k)) p (endOfGuard k p) := by
  obtain ⟨hg, he, hplan, hd⟩ := (h.key k).of_release hr
  unfold endOfGuard
  dsimp only
  split
  · next hp => exact ⟨h.setKey (.idle hg he rfl hplan hp hd), .setKey (only_self _) _⟩
  · next plan hp =>
    split
    · exact ⟨(SameUnits.setKey (by rfl)).good h, .setKey (only_self _) _⟩
    · next rest =>
      obtain ⟨rfl, prio⟩ := (h.key k).1.2.2.2.2.2.1 plan hp
      generalize hl : ({ p.key plan.line with
        state := .idle
        guardDone := false
        pending := none
        queuedOrigin := some plan.origin } : KeyLine) = l
      have idle : Good dr (p.setKey plan.line l) := by
        rw [← hl]
        exact h.setKey (.idle hg he rfl hplan rfl hd)
      obtain ⟨good, aside⟩ := submitPlan_good idle (by rw [Part.key_setKey_same, ← hl]) prio
        (by rw [Part.key_setKey_same, ← hl]; simpa using rest)
      exact ⟨good, (Aside.setKey (only_self _) _).trans aside⟩

/-- A key line that is not QUEUED has no entry. -/
theorem KeyGood.noEntry (h : KeyGood dr p k) (hq : (p.key k).state ≠ .queued) : ¬ p.hasEntry (keyLineNo k) :=
  fun c => hq (h.1.2.1.2 c)

/-- Lines other than the one acted on stay as they are, unless they are QUEUED. -/
theorem Aside.other {m : LineNo} {q : Part} (h : Aside (only m) p q) (good : Good dr p)
    (hk : keyLineNo k ≠ m) (hq : (p.key k).state ≠ .queued) : q.key k = p.key k :=
  (h.still _ hk ((good.key k).noEntry hq)).key k rfl

theorem keyLineNo_ne {j k : KeyNo} (h : j ≠ k) : keyLineNo j ≠ keyLineNo k :=
  fun c => h (keyLineNo_inj.1 c)

/-- Acts on lines in RELEASE, in any order, each on its own line alone. -/
theorem inAnyOrder_release_good {act : KeyNo → Part → Part} {as : List KeyNo} (nodup : as.Nodup) (h : Good dr p)
    (ready : ∀ a ∈ as, (p.key a).state = .release)
    (step : ∀ a ∈ as, ∀ q, Good dr q → (q.key a).state = .release →
      Good dr (act a q) ∧ Aside (only (keyLineNo a)) q (act a q)) :
    Good dr (inAnyOrder as act p) := by
  refine inAnyOrder_ready (I := Good dr) (R := fun a q => (q.key a).state = .release) nodup
    ((choices_same _ _).good h) ready fun a ha q hq hr => ?_
  obtain ⟨good, aside⟩ := step a ha q hq hr
  refine ⟨good, fun b _ hb hrb => ?_⟩
  rw [aside.other hq (keyLineNo_ne hb) (by simp [hrb])]
  exact hrb

theorem mayResume_release {l : KeyLine} (h : l.mayResume = true) : l.state = .release := by
  simp only [KeyLine.mayResume, Bool.and_eq_true, beq_iff_eq] at h
  exact h.1.1.1

theorem guarding_release {l : KeyLine} (h : l.guarding = true) : l.state = .release := by
  simp only [KeyLine.guarding, Bool.and_eq_true, beq_iff_eq] at h
  exact h.1

/-- The lines that may resume do so (R143). -/
theorem resumeLines_good (h : Good dr p) : Good dr (resumeLines p) :=
  inAnyOrder_release_good (allKeys_nodup.filter _) h
    (fun _ ha => mayResume_release (List.mem_filter.1 ha).2) fun _ _ _ hq hr => endOfGuard_good hq hr

theorem guardEnds_good (h : Good dr p) : Good dr (guardEnds k p) := by
  unfold guardEnds
  split
  · next hg => exact (endOfGuard_good h (guarding_release hg)).1
  · exact h

/-- A write of RepeatGuard ends guards (R135). -/
theorem endElapsedGuards_good (h : Good dr p) : Good dr (endElapsedGuards p) := by
  refine inAnyOrder_release_good (allKeys_nodup.filter _) h (fun a ha => ?_) fun a _ q hq hr => ?_
  · have := (List.mem_filter.1 ha).2
    rw [Bool.and_eq_true] at this
    exact guarding_release this.1
  · unfold guardEnds
    split
    · exact endOfGuard_good hq hr
    · exact ⟨hq, .refl _ _⟩

/-! ### Plans reaching a line (R129) -/

/-- A pending plan may be changed in KICK and RELEASE. -/
theorem Good.setPending {l : KeyLine} (h : Good dr p) (state : l.state = (p.key k).state) (plan : l.plan = (p.key k).plan)
    (duty : l.drive.duty = (p.key k).drive.duty) (rest : l.resting = (p.key k).resting)
    (pending : l.pending ≠ none → (p.key k).state = .kick ∨ (p.key k).state = .release)
    (own : ∀ plan, l.pending = some plan → plan.line = k ∧ 1 ≤ plan.priority) : Good dr (p.setKey k l) := by
  refine h.setKey ?_
  obtain ⟨⟨h1, h2, h3, -, h5, -, h7⟩, hd⟩ := h.key k
  unfold KeyGood KeySound KeyLine.DutySound at *
  rw [Part.key_setKey_same]
  dsimp only
  rw [state, plan, duty, rest]
  exact ⟨⟨h1, h2, h3, pending, h5, own, h7⟩, hd⟩

theorem holdPending_good {plan : Plan} (h : Good dr p) (prio : 1 ≤ plan.priority)
    (state : (p.key plan.line).state = .kick ∨ (p.key plan.line).state = .release) :
    Good dr (holdPending plan p) ∧ Aside (only (keyLineNo plan.line)) p (holdPending plan p) := by
  have held : Good dr (p.setKey plan.line { p.key plan.line with pending := some plan }) := by
    refine h.setPending rfl rfl rfl rfl (fun _ => state) fun x hx => ?_
    cases hx
    exact ⟨rfl, prio⟩
  unfold holdPending
  dsimp only
  split
  · exact ⟨held, .setKey (only_self _) _⟩
  · exact ⟨(endPlan_same _ _ _ _).good held, (Aside.setKey (only_self _) _).trans (.endPlan _ _ _)⟩

/-! ### Entries changed in place (R117, R118) -/

theorem entryOf_eq_some {m : LineNo} {e : WaitEntry} (h : p.entryOf m = some e) : e ∈ p.arbiter.wait ∧ e.line = m :=
  ⟨List.mem_of_find?_eq_some h, by simpa using List.find?_some h⟩

theorem entryOf_isSome {m : LineNo} (h : p.hasEntry m) : ∃ e, p.entryOf m = some e := by
  obtain ⟨e, he, hl⟩ := h
  exact Option.isSome_iff_exists.1 (List.find?_isSome.2 ⟨e, he, by simpa using hl⟩)

/-- A list with one line's entry changed, in neither its line nor its priority. -/
theorem changeEntry_map {β : Type} (g : WaitEntry → β) {f : WaitEntry → WaitEntry} (hf : ∀ e, g (f e) = g e) (m : LineNo)
    (w : List WaitEntry) : (changeEntry m f w).map g = w.map g := by
  induction w with
  | nil => rfl
  | cons e rest ih =>
    rw [changeEntry]
    split
    · simp [hf]
    · simp [ih]

theorem mem_changeEntry {f : WaitEntry → WaitEntry} {m : LineNo} {w : List WaitEntry} {x : WaitEntry}
    (hx : x ∈ changeEntry m f w) : x ∈ w ∨ ∃ e ∈ w, e.line = m ∧ x = f e := by
  induction w with
  | nil => cases hx
  | cons e rest ih =>
    rw [changeEntry] at hx
    split at hx
    · next hl =>
      rcases List.mem_cons.1 hx with rfl | hx
      · exact .inr ⟨e, .head _, hl, rfl⟩
      · exact .inl (.tail _ hx)
    · rcases List.mem_cons.1 hx with rfl | hx
      · exact .inl (.head _)
      · rcases ih hx with h | ⟨y, hy, hl, rfl⟩
        · exact .inl (.tail _ h)
        · exact .inr ⟨y, .tail _ hy, hl, rfl⟩

theorem listSound.changeEntry {w : List WaitEntry} (h : listSound w) {f : WaitEntry → WaitEntry} {m : LineNo}
    (line : ∀ e, (f e).line = e.line) (priority : ∀ e, (f e).priority = e.priority)
    (sound : ∀ e ∈ w, e.line = m → (f e).sound) : listSound (changeEntry m f w) := by
  obtain ⟨h1, h2, h3, h4⟩ := h
  refine ⟨?_, ?_, ?_, fun x hx => ?_⟩
  · rwa [← List.length_map (f := WaitEntry.line), changeEntry_map _ line, List.length_map]
  · rwa [changeEntry_map _ line]
  · rw [← List.pairwise_map (f := WaitEntry.priority) (R := (· ≤ ·))] at h3 ⊢
    rwa [changeEntry_map _ priority]
  · rcases mem_changeEntry hx with hx | ⟨e, he, hl, rfl⟩
    · exact h4 x hx
    · exact sound e he hl

/-- The head of a list with one line's entry changed. -/
theorem head_changeEntry {f : WaitEntry → WaitEntry} {m : LineNo} {w : List WaitEntry} {x : WaitEntry}
    (hx : (changeEntry m f w).head? = some x) :
    ∃ e, w.head? = some e ∧ ((e.line = m ∧ x = f e) ∨ (e.line ≠ m ∧ x = e)) := by
  cases w with
  | nil => cases hx
  | cons e rest =>
    refine ⟨e, rfl, ?_⟩
    rw [changeEntry] at hx
    split at hx
    · next hl =>
      cases hx
      exact .inl ⟨hl, rfl⟩
    · next hl =>
      cases hx
      exact .inr ⟨hl, rfl⟩

/-- A change of one line's entry. -/
theorem BudgetBut.changeEntry {ex : LineNo → Prop} (h : BudgetBut dr ex p) {f : WaitEntry → WaitEntry} {m : LineNo}
    (line : ∀ e, (f e).line = e.line) (priority : ∀ e, (f e).priority = e.priority)
    (sound : ∀ e ∈ p.arbiter.wait, e.line = m → (f e).sound) :
    BudgetBut dr ex (p.setWait (changeEntry m f p.arbiter.wait)) := by
  have same : ∀ n, LineKept p (p.setWait (Machine.changeEntry m f p.arbiter.wait)) n := fun n =>
    ⟨rfl, by rw [hasEntry_iff, hasEntry_iff, Part.setWait_wait, changeEntry_map _ line], setWait_view _ _ _⟩
  exact ⟨h.units, h.list.changeEntry line priority sound, fun n hn => (same n).sound (h.lines n hn),
    fun n hn => ⟨(h.free n hn).1, fun c => (h.free n hn).2 ((same n).entry.1 c)⟩⟩

theorem changeEntry_aside {ms : LineNo → Prop} {f : WaitEntry → WaitEntry} (line : ∀ e, (f e).line = e.line) (m : LineNo)
    (p : Part) : Aside ms p (p.setWait (changeEntry m f p.arbiter.wait)) := by
  refine .setWait fun x hx => .inr ?_
  rcases mem_changeEntry hx with hx | ⟨e, he, -, rfl⟩
  · exact ⟨x, hx, rfl⟩
  · exact ⟨e, he, (line e).symm⟩

/-- A change of one line's entry that leaves its cost (R118). -/
theorem shortenEntry_good (h : Good dr p) : Good dr (shortenEntry k p) := by
  refine ⟨h.but.changeEntry (fun _ => rfl) (fun _ => rfl) fun e he _ => h.but.list.2.2.2 e he, fun x hx => ?_⟩
  obtain ⟨e, hw, ⟨-, rfl⟩ | ⟨-, rfl⟩⟩ := head_changeEntry hx
  · exact h.head e hw
  · exact h.head x hw

theorem shortenEntry_aside (ms : LineNo → Prop) (k : KeyNo) (p : Part) : Aside ms p (shortenEntry k p) :=
  changeEntry_aside (f := fun e => { e with short := true }) (fun _ => rfl) _ p

/-- The part in which a line's entry has taken a new plan, before the pass that a change of the head's cost brings
(R117). -/
def mergedEntry (plan : Plan) (e : WaitEntry) (p : Part) : Part :=
  let changed := queueKey plan.line plan.origin
    (p.setWait (changeEntry (keyLineNo plan.line) (fun x => x.merged plan) p.arbiter.wait))
  match e.request with
  | .strike old => endPlan (old.withShort e.short) .merged (wholeMs e.entered p.now) changed
  | .lift _ => changed

theorem mergePlan_of_entry {plan : Plan} {e : WaitEntry} (he : p.entryOf (keyLineNo plan.line) = some e) :
    mergePlan plan p = if p.arbiter.wait.head? = some e ∧ e.cost ≠ plan.cost then grantingPass (mergedEntry plan e p)
      else mergedEntry plan e p := by
  unfold mergePlan mergedEntry
  rw [he] <;> rfl

theorem mergedEntry_same (plan : Plan) (e : WaitEntry) (p : Part) :
    SameUnits (queueKey plan.line plan.origin
      (p.setWait (changeEntry (keyLineNo plan.line) (fun x => x.merged plan) p.arbiter.wait))) (mergedEntry plan e p) := by
  unfold mergedEntry
  dsimp only
  split
  · exact endPlan_same _ _ _ _
  · exact .refl _

theorem mergedEntry_but {plan : Plan} (h : Good dr p) (e : WaitEntry) (queued : (p.key plan.line).state = .queued) :
    BudgetBut dr noLine (mergedEntry plan e p) := by
  refine (mergedEntry_same plan e p).budgetBut ?_
  have changed := h.but.changeEntry (f := fun x => x.merged plan) (m := keyLineNo plan.line) (fun _ => rfl) (fun _ => rfl)
    fun x hx hl => by
      obtain ⟨old, hr, -, prio⟩ := (h.but.list.2.2.2 x hx).strike_of_key hl
      exact ⟨hl, prio⟩
  refine (SameUnits.setKey ?_).budgetBut changed
  rw [KeyLine.view_eq]
  exact ⟨queued.symm, rfl, rfl, rfl, fun _ => rfl⟩

/-- A merge (R117). -/
theorem mergePlan_good {plan : Plan} (h : Good dr p) (queued : (p.key plan.line).state = .queued) :
    Good dr (mergePlan plan p) ∧ Aside (only (keyLineNo plan.line)) p (mergePlan plan p) := by
  obtain ⟨e, he⟩ := entryOf_isSome ((h.key plan.line).1.2.1.1 queued)
  have merged := mergedEntry_but h e queued
  have aside : Aside (only (keyLineNo plan.line)) p (mergedEntry plan e p) := by
    unfold mergedEntry
    dsimp only
    have changed := (changeEntry_aside (ms := only (keyLineNo plan.line)) (f := fun x => x.merged plan) (fun _ => rfl)
      (keyLineNo plan.line) p).trans (.setKey (k := plan.line) (only_self _)
        { p.key plan.line with state := .queued, queuedOrigin := some plan.origin })
    split
    · exact changed.trans (.endPlan _ _ _)
    · exact changed
  rw [mergePlan_of_entry he]
  split
  · exact ⟨grantingPass_good merged, aside.trans (.pass merged)⟩
  · next stands =>
    refine ⟨⟨merged, (mergedEntry_same plan e p).headWaits fun x hx => ?_⟩, aside⟩
    obtain ⟨y, hw, ⟨hl, rfl⟩ | ⟨-, rfl⟩⟩ := head_changeEntry hx
    · have first : y = e := by
        have : p.entryOf (keyLineNo plan.line) = some y := by
          cases hc : p.arbiter.wait with
          | nil => rw [hc] at hw; cases hw
          | cons a t =>
            rw [hc] at hw
            cases hw
            rw [Part.entryOf, hc]
            exact List.find?_cons_of_pos (by simpa using hl)
        rw [he] at this
        exact (Option.some.inj this).symm
      subst first
      have cost : y.cost = plan.cost := not_not.1 fun c => stands ⟨hw, c⟩
      have := h.head y hw
      rw [cost] at this
      exact this
    · exact h.head x hw

/-- A key line takes a new plan (R129). -/
theorem newPlan_good {plan : Plan} (h : Good dr p) (prio : 1 ≤ plan.priority) (rest : (p.key plan.line).resting = false) :
    Good dr (newPlan plan p) ∧ Aside (only (keyLineNo plan.line)) p (newPlan plan p) := by
  unfold newPlan
  dsimp only
  split
  · next idle =>
    obtain ⟨good, aside⟩ := submitPlan_good (plan := plan) ((SameUnits.setKey (k := plan.line)
      (l := { p.key plan.line with queuedOrigin := some plan.origin }) rfl).good h) (by rw [Part.key_setKey_same]; exact idle)
      prio (by rw [Part.key_setKey_same]; exact rest)
    exact ⟨good, (Aside.setKey (only_self _) _).trans aside⟩
  · next queued => exact mergePlan_good h queued
  · next kick => exact holdPending_good h prio (.inl kick)
  · next release => exact holdPending_good h prio (.inr release)
  · next hold =>
    have released := enterRelease_good h (k := plan.line) (by simp [hold]) (by simp [hold])
    obtain ⟨good, aside⟩ := holdPending_good (plan := plan) released prio (.inr (by
      rw [enterRelease, Part.key_setKey_same]))
    exact ⟨good, (enterRelease_aside _ _).trans aside⟩
  · exact ⟨h, .refl _ _⟩

/-! ### Note-offs (R133) -/

theorem noteOff_good (h : Good dr p) : Good dr (noteOff k p) ∧ Aside (only (keyLineNo k)) p (noteOff k p) := by
  have shortened : ∀ plan, (p.key k).pending.filter Plan.ofRoll = some plan →
      Good dr (p.setKey k { p.key k with pending := some (plan.withShort true) }) := fun plan hp => by
    have hp := (Option.filter_eq_some_iff.1 hp).1
    obtain ⟨-, -, -, state, -, own, -⟩ := (h.key k).1
    refine h.setPending rfl rfl rfl rfl (fun _ => state (by simp [hp])) fun x hx => ?_
    cases hx
    exact own plan hp
  unfold noteOff
  dsimp only
  split
  · exact ⟨h, .refl _ _⟩
  · exact ⟨h, .refl _ _⟩
  · split
    · exact ⟨shortenEntry_good h, shortenEntry_aside _ _ _⟩
    · exact ⟨h, .refl _ _⟩
  · split
    · next hp => exact ⟨shortened _ hp, .setKey (only_self _) _⟩
    · exact ⟨(SameUnits.setKey (by rfl)).good h, .setKey (only_self _) _⟩
    · exact ⟨h, .refl _ _⟩
  · next hold =>
    split
    · exact ⟨enterRelease_good h (by simp [hold]) (by simp [hold]), enterRelease_aside _ _⟩
    · exact ⟨h, .refl _ _⟩
  · split
    · next hp => exact ⟨shortened _ hp, .setKey (only_self _) _⟩
    · exact ⟨h, .refl _ _⟩

end

end Sys2Proof.Machine
end

section
/-! PROOFS. The ends of kicks, entries removed, heat, resting and faults on key lines keep the budget (R116, R119, R121, R132,
R141 to R147). -/

namespace Sys2Proof.Machine

section
variable {dr : Bool} {p : Part} {k : KeyNo}

/-! ### Reports and removed entries -/

/-- What a granting pass, or an act that ends in one, leaves of the lines that have no entry. -/
structure Reported (m : LineNo) (dr : Bool) (p q : Part) : Prop where
  but : BudgetBut dr (also m noLine) q
  head : HeadWaits q
  aside : Aside (only m) p q
  key : ∀ k, ¬ p.hasEntry (keyLineNo k) → q.key k = p.key k
  pedal : ∀ d, ¬ p.hasEntry (pedalLineNo d) → q.pedal d = p.pedal d

/-- A pass with one line left out. -/
theorem grantingPass_reported {m : LineNo} (h : BudgetBut dr (also m noLine) p) :
    Reported m dr p (grantingPass p) :=
  have moves := grantingPass_moves h
  ⟨grantingPass_but h, grantingPass_head h, .pass h, fun _ hk => moves.key_of_no_entry hk,
    fun _ hd => moves.pedal_of_no_entry hd⟩

/-- The end of a kick or lift is reported: its line, which has no entry, is left out then (R116). -/
theorem reportEnd_reported {m : LineNo} (h : Good dr p) (he : ¬ p.hasEntry m) : Reported m dr p (reportEnd m p) := by
  unfold reportEnd
  split
  · next hg => exact ⟨h.but.leave hg he, h.head, .refl _ _, fun _ _ => rfl, fun _ _ => rfl⟩
  · obtain ⟨but, head, aside, key, pedal⟩ := grantingPass_reported (h.but.empty he)
    exact ⟨but, head, (Aside.setPlace (only_self m) none).trans aside, key, fun d hd => by
      rw [pedal d hd, Part.setPlace_pedal]⟩

/-- An entry's own line does not stand aside, so that its record may change. -/
theorem unqueue_aside {ms : LineNo → Prop} {e : WaitEntry} {k : KeyNo} (he : e ∈ p.arbiter.wait)
    (line : e.line = keyLineNo k) : Aside ms p (unqueueKey k (p.dropEntry e.line)) :=
  have idle : Aside ms p (p.setKey k { p.key k with state := .idle, queuedOrigin := none }) :=
    .setKey_of_entry ⟨e, he, line⟩ (by simp)
  idle.trans (.setWait_subset List.eraseP_subset)

/-- A key entry is removed and its plan ends (R114). -/
theorem removeKeyEntry_good {e : WaitEntry} {plan : Plan} (h : Good dr p) (he : e ∈ p.arbiter.wait)
    (hr : e.request = .strike plan) (o : StrikeOutcome) (waited : Nat) :
    Good dr (removeKeyEntry e plan o waited p) ∧ Aside noLine p (removeKeyEntry e plan o waited p) := by
  have line := ((h.but.list.2.2.2 e he).of_strike hr).1
  have left := (endPlan_same (plan.withShort e.short) o waited _).budgetBut (h.but.unqueue he hr)
  exact ⟨grantingPass_good left, ((unqueue_aside he line).trans (.endPlan _ _ _)).trans (.pass left)⟩

/-- The line of a removed key entry is IDLE (R131). -/
theorem removeKeyEntry_key {e : WaitEntry} {plan : Plan} (h : Good dr p) (he : e ∈ p.arbiter.wait)
    (hr : e.request = .strike plan) (o : StrikeOutcome) (waited : Nat) :
    (removeKeyEntry e plan o waited p).key plan.line
      = { p.key plan.line with state := .idle, queuedOrigin := none } := by
  have line := ((h.but.list.2.2.2 e he).of_strike hr).1
  have left := (endPlan_same (plan.withShort e.short) o waited _).budgetBut (h.but.unqueue he hr)
  have gone : ¬ (endPlan (plan.withShort e.short) o waited
      (unqueueKey plan.line (p.dropEntry e.line))).hasEntry (keyLineNo plan.line) := by
    intro c
    rw [hasEntry_iff, (endPlan_same _ _ _ _).wait] at c
    exact not_hasEntry_dropEntry h.but.list e.line ((hasEntry_iff _ _).2 (line ▸ c))
  rw [removeKeyEntry, (grantingPass_moves left).key_of_no_entry gone, endPlan_eq_filed]
  obtain ⟨hd, -⟩ := filed_keeps (plan.withShort e.short) o waited (unqueueKey plan.line (p.dropEntry e.line))
  rw [Part.key, hd]
  exact Part.key_setKey_same _ _ _

/-! ### Heat -/

theorem raiseLineResting_same (k : KeyNo) (p : Part) : SameUnits p (raiseLineResting k p) := updateNotices_same _ p

theorem raiseLineFault_same (m : LineNo) (p : Part) : SameUnits p (raiseLineFault m p) := updateNotices_same _ p

/-- What a gain leaves of the line's own record (R141, R143). -/
theorem gainHeat_key (k j : KeyNo) (n : Nat) (p : Part) :
    (gainHeat k n p).key j = if k = j then (p.key k).warmed p.settings n else p.key j := by
  unfold gainHeat
  dsimp only
  split <;> exact key_setKey _ _ _ _

theorem gainHeat_same (n : Nat) (queued : (p.key k).state ≠ .queued) : SameUnits p (gainHeat k n p) := by
  have gained : SameUnits p (p.setKey k { p.key k with
      heat := min ((p.key k).heat + n) 65535
      resting := (p.key k).resting || decide (p.settings.heatHard ≤ min ((p.key k).heat + n) 65535) }) :=
    .setKey (KeyLine.view_eq.2 ⟨rfl, rfl, rfl, rfl, fun c => absurd c queued⟩)
  unfold gainHeat
  dsimp only
  split
  · exact gained.trans (raiseLineResting_same k _)
  · exact gained

theorem gainHeat_aside (k : KeyNo) (n : Nat) (p : Part) : Aside (only (keyLineNo k)) p (gainHeat k n p) := by
  unfold gainHeat
  dsimp only
  split
  · exact (Aside.setKey (only_self _) _).trans (.notices _)
  · exact .setKey (only_self _) _

/-- A tick on one line (R142). -/
theorem coolKey_good (h : Good dr p) : Good dr (coolKey k p) := by
  refine SameUnits.good (SameUnits.setKey ?_) h
  refine KeyLine.view_eq.2 ⟨rfl, rfl, rfl, rfl, fun c => ?_⟩
  dsimp only
  rw [(h.key k).1.2.2.2.2.2.2 c]
  rfl

theorem foldl_good {α : Type} {act : Part → α → Part} (step : ∀ q a, Good dr q → Good dr (act q a)) (as : List α) {p : Part}
    (h : Good dr p) : Good dr (as.foldl act p) := by
  induction as generalizing p with
  | nil => exact h
  | cons a as ih => exact ih (step p a h)

theorem heatTicks_good (h : Good dr p) : Good dr (heatTicks p) :=
  resumeLines_good (foldl_good (fun _ _ hq => coolKey_good hq) _ h)

/-! ### The ends of kicks and holds -/

/-- A line in KICK has a plan of its own in hand and no entry. -/
theorem KeyGood.of_kick (h : KeyGood dr p k) (hs : (p.key k).state = .kick) :
    ¬ p.hasEntry (keyLineNo k) ∧ ∃ plan, (p.key k).plan = some plan ∧ plan.line = k := by
  refine ⟨h.noEntry (by simp [hs]), ?_⟩
  obtain ⟨plan, hp⟩ := Option.ne_none_iff_exists'.1 (h.1.2.2.1.1 (.inl hs))
  exact ⟨plan, hp, h.1.2.2.2.2.1 plan hp⟩

/-- A line that is left out and enters RELEASE is taken in. -/
theorem BudgetBut.enterRelease (h : BudgetBut dr (also (keyLineNo k) noLine) p)
    (own : ∀ plan, (p.key k).pending = some plan → plan.line = k ∧ 1 ≤ plan.priority) :
    BudgetBut dr noLine (enterRelease k p) := by
  obtain ⟨hg, he⟩ := h.free _ (also_self _ _)
  exact (h.setKey (also_self _ _) _).close_key
    (.settled hg he (by simp) (by simp) (by simp) (by simp) (by simp) own fun _ => ⟨fun _ _ => setDuty_duty _ _ _ _, by simp⟩)

/-- A kick runs out (R132). -/
theorem kickRunsOut_good (h : Good dr p) : Good dr (kickRunsOut k p) ∧ Aside (only (keyLineNo k)) p (kickRunsOut k p) := by
  unfold kickRunsOut
  split
  · next plan hs hp =>
    obtain ⟨he, -⟩ := (h.key k).of_kick hs
    have warm := gainHeat_same (k := k) (kickHeat plan.kick plan.kickDuty) (p := p) (by simp [hs])
    have noEntry : ¬ (gainHeat k (kickHeat plan.kick plan.kickDuty) p).hasEntry (keyLineNo k) := fun c =>
      he ((warm.kept _).entry.1 c)
    obtain ⟨but, head, aside, key, -⟩ := reportEnd_reported (m := keyLineNo k) (warm.good h) noEntry
    have same := key k noEntry
    rw [gainHeat_key, if_pos rfl] at same
    have aside := (gainHeat_aside k _ p).trans aside
    dsimp only
    split
    · refine ⟨⟨but.enterRelease ?_, head.of_arbiter rfl rfl⟩, aside.trans (enterRelease_aside _ _)⟩
      rw [same]
      exact (h.key k).1.2.2.2.2.2.1
    · next still =>
      rw [same] at still
      obtain ⟨hg, he'⟩ := but.free _ (also_self _ _)
      have own := (h.key k).1.2.2.2.2.1
      refine ⟨⟨(but.setKey (also_self _ _) _).close_key (.settled hg he' (by simp) (by simp) ?_ ?_ ?_ ?_ fun _ => ⟨?_, ?_⟩),
        head.of_arbiter rfl rfl⟩, aside.trans (.setKey (only_self _) _)⟩ <;> rw [same]
      · simp [KeyLine.warmed, hp]
      · exact own
      · intro c
        simp [KeyLine.warmed] at still c
        exact absurd still.2 c
      · exact (h.key k).1.2.2.2.2.2.1
      · intro _ c
        exact absurd rfl c
      · intro x hx
        have : x = plan := by simpa [KeyLine.warmed, hp] using hx.symm
        subst this
        exact ⟨fun c => by simp at c, fun _ => setDuty_duty _ _ _ _⟩
  · exact ⟨h, .refl _ _⟩

theorem holdGains_same : SameUnits p (holdGains k p) := by
  unfold holdGains
  split
  · next plan hs hp =>
    have counted : SameUnits p (p.setKey k { p.key k with holdGains := (p.key k).holdGains + 1 }) :=
      .setKey (by rfl)
    exact counted.trans (gainHeat_same _ (by simp [hs]))
  · exact .refl p

theorem countHoldCut_same (p : Part) : SameUnits p (countHoldCut p) :=
  .of_eq rfl rfl rfl (fun _ => rfl) fun d => by cases d <;> rfl

theorem holdEnds_good (h : Good dr p) : Good dr (holdEnds k p) := by
  unfold holdEnds
  dsimp only
  split
  · next hold =>
    have released := enterRelease_good h (k := k) (by simp [hold]) (by simp [hold])
    split
    · exact (countHoldCut_same _).good released
    · exact released
  · exact h

/-- The starve-hold expiry lets the held keys go (R139). -/
theorem releaseHolds_good (h : Good dr p) : Good dr (releaseHolds p) := by
  refine foldl_good (fun q k hq => ?_) _ h
  split
  · next hold => exact enterRelease_good hq (by simp [hold]) (by simp [hold])
  · exact hq

/-! ### Pending plans that end (R137) -/

theorem endPending_key (k j : KeyNo) (o : StrikeOutcome) (p : Part) :
    (endPending k o p).key j = if k = j then { p.key j with pending := none } else p.key j := by
  unfold endPending
  split
  · next hp =>
    split
    · next e => rw [← e, ← hp]
    · rfl
  · next plan hp =>
    rw [endPlan_eq_filed, Part.key, (filed_keeps plan o 0 _).1]
    refine (key_setKey _ _ _ _).trans ?_
    split
    · next e => rw [e]
    · rfl

/-- A pending plan of a line that is left out ends. -/
theorem BudgetBut.endPending {ex : LineNo → Prop} (h : BudgetBut dr ex p) (hk : ex (keyLineNo k)) (o : StrikeOutcome) :
    BudgetBut dr ex (endPending k o p) := by
  unfold Machine.endPending
  split
  · exact h
  · exact (endPlan_same _ _ _ _).budgetBut (h.setKey hk _)

theorem endPending_aside (k : KeyNo) (o : StrikeOutcome) (p : Part) :
    Aside (only (keyLineNo k)) p (endPending k o p) := by
  unfold endPending
  split
  · exact .refl _ _
  · exact (Aside.setKey (only_self _) _).trans (.endPlan _ _ _)

theorem endPending_arbiter (k : KeyNo) (o : StrikeOutcome) (p : Part) :
    (endPending k o p).arbiter.grants = p.arbiter.grants ∧ (endPending k o p).arbiter.wait = p.arbiter.wait := by
  unfold endPending
  split
  · exact ⟨rfl, rfl⟩
  · rw [endPlan_eq_filed]
    obtain ⟨-, -, -, -, hg, hw⟩ := filed_keeps ‹Plan› o 0 (p.setKey k { p.key k with pending := none })
    exact ⟨hg, hw⟩

/-- A pending plan of a line in KICK or RELEASE ends. -/
theorem endPending_same_head (h : HeadWaits p) (o : StrikeOutcome) : HeadWaits (endPending k o p) := by
  obtain ⟨hg, hw⟩ := endPending_arbiter k o p
  rw [HeadWaits, hw, KickArbiter.unitsInUse, hg, (endPending_frame k o p).settings]
  exact h

/-! ### Faults (R145) -/

theorem cutKick_key (k j : KeyNo) (p : Part) :
    (cutKick k p).key j = if k = j then
        (match (p.key k).plan with
          | some plan => (p.key k).warmed p.settings (kickHeat (kickStepsRun plan (p.key k) p.now) plan.kickDuty)
          | none => p.key k)
      else p.key j := by
  unfold cutKick
  cases hp : (p.key k).plan with
  | some plan =>
    dsimp only
    rw [Part.setPlace_key, gainHeat_key]
  | none =>
    dsimp only
    split
    · next e => rw [Part.setPlace_key, ← e]
    · rw [Part.setPlace_key]

/-- A kick that is cut leaves its line out. -/
theorem BudgetBut.cutKick (h : BudgetBut dr noLine p) (hs : (p.key k).state = .kick) :
    BudgetBut dr (also (keyLineNo k) noLine) (cutKick k p) := by
  have he := (h.key (k := k) id).noEntry (by simp [hs])
  unfold Machine.cutKick
  split
  · have warm := gainHeat_same (k := k) (p := p) (kickHeat (kickStepsRun ‹Plan› (p.key k) p.now) ‹Plan›.kickDuty)
      (by simp [hs])
    exact (warm.budgetBut h).empty fun c => he ((warm.kept _).entry.1 c)
  · exact h.empty he

theorem cutKick_aside (k : KeyNo) (p : Part) : Aside (only (keyLineNo k)) p (cutKick k p) := by
  unfold cutKick
  split
  · exact (gainHeat_aside _ _ _).trans (.setPlace (only_self _) _)
  · exact .setPlace (only_self _) _

/-- What a fault report cuts leaves the line out, with no pending plan (R145). -/
theorem faultCuts_reported (h : Good dr p) :
    BudgetBut dr (also (keyLineNo k) noLine) (faultCuts k p) ∧ HeadWaits (faultCuts k p)
      ∧ Aside (only (keyLineNo k)) p (faultCuts k p) ∧ ((faultCuts k p).key k).pending = none := by
  have still : (p.key k).state ≠ .kick → (p.key k).state ≠ .queued → (p.key k).state ≠ .release →
      BudgetBut dr (also (keyLineNo k) noLine) p ∧ HeadWaits p ∧ Aside (only (keyLineNo k)) p p
        ∧ (p.key k).pending = none := fun kick queued release => by
    obtain ⟨hg, he⟩ := (h.key k).free kick queued
    refine ⟨h.but.leave hg he, h.head, .refl _ _, ?_⟩
    by_contra c
    rcases (h.key k).1.2.2.2.1 c with c | c
    · exact kick c
    · exact release c
  unfold faultCuts
  split
  · next queued =>
    obtain ⟨e, he⟩ := entryOf_isSome ((h.key k).1.2.1.1 queued)
    obtain ⟨mem, line⟩ := entryOf_eq_some he
    obtain ⟨plan, hr, rfl, -⟩ := (h.but.list.2.2.2 e mem).strike_of_key line
    have cut : faultEntry plan.line p = removeKeyEntry e plan .faulted (wholeMs e.entered p.now) p := by
      simp only [faultEntry, he, hr]
    obtain ⟨good, aside⟩ := removeKeyEntry_good h mem hr .faulted (wholeMs e.entered p.now)
    have key := removeKeyEntry_key h mem hr .faulted (wholeMs e.entered p.now)
    rw [cut]
    obtain ⟨hg, he', -⟩ := (good.key plan.line).of_idle (by rw [key])
    refine ⟨good.but.leave hg he', good.head, aside.mono fun _ c => c.elim, ?_⟩
    rw [key]
    exact ((h.key plan.line).of_queued queued).2.1
  · next kick =>
    obtain ⟨but, head, aside, -, -⟩ := grantingPass_reported (h.but.cutKick kick)
    refine ⟨but.endPending (also_self _ _) _, endPending_same_head head _,
      ((cutKick_aside k p).trans aside).trans (endPending_aside _ _ _), ?_⟩
    rw [endPending_key, if_pos rfl]
  · next release =>
    obtain ⟨hg, he⟩ := (h.key k).free (by simp [release]) (by simp [release])
    refine ⟨(h.but.leave hg he).endPending (also_self _ _) _, endPending_same_head h.head _, endPending_aside _ _ _, ?_⟩
    rw [endPending_key, if_pos rfl]
  · next hs => exact still (by simp [hs]) (by simp [hs]) (by simp [hs])
  · next hs => exact still (by simp [hs]) (by simp [hs]) (by simp [hs])
  · next hs => exact still (by simp [hs]) (by simp [hs]) (by simp [hs])

/-- A fault report for a key line (R145). -/
theorem faultKey_good (kind : FaultKind) (h : Good dr p) :
    Good dr (faultKey k kind p) ∧ Aside (only (keyLineNo k)) p (faultKey k kind p) := by
  unfold faultKey
  split
  · exact ⟨h, .refl _ _⟩
  · obtain ⟨but, head, aside, pending⟩ := faultCuts_reported (k := k) h
    obtain ⟨hg, he⟩ := but.free _ (also_self _ _)
    refine ⟨(raiseLineFault_same _ _).good ⟨(but.setKey (also_self _ _) _).close_key (.settled hg he (by simp) (by simp)
      (by simp) (by simp) (fun c => absurd pending c) (by simp [pending]) fun _ => ⟨fun _ _ => setDuty_duty _ _ _ _, by simp⟩),
      head.of_arbiter rfl rfl⟩, (aside.trans (.setKey (only_self _) _)).trans (.notices _)⟩

/-- An admitted RESTORE LINE on a key line (R147). -/
theorem restoreKey_good (h : Good dr p) (kick : (p.key k).state ≠ .kick) (queued : (p.key k).state ≠ .queued) :
    Good dr (restoreKey k p) :=
  (SameUnits.setKey (by rfl)).good (enterRelease_good h kick queued)

end

end Sys2Proof.Machine
end

section
/-! PROOFS. The pedals' operations keep the budget: lifts, drops, depths, late lifts, and faults (R119, R120, R150 to R155). -/

namespace Sys2Proof.Machine

section
variable {dr : Bool} {p : Part} {d : Pedal}

/-! ### Lifts that are asked for, and entries that are withdrawn -/

/-- A pedal that is neither LIFTING nor WAITING has no waiting origin. -/
theorem PedalSound.no_origin (h : PedalSound p d) (waiting : (p.pedal d).state ≠ .waiting) : (p.pedal d).origin = none :=
  not_not.1 fun c => waiting (h.2.2.2 c)

/-- A lift goes to the arbiter (R150). -/
theorem beginWait_good (h : Good dr p) (origin : WaitOrigin) (depth : Depth) (lifting : (p.pedal d).state ≠ .lifting)
    (waiting : (p.pedal d).state ≠ .waiting) :
    Good dr (beginWait d origin depth p) ∧ Aside (only (pedalLineNo d)) p (beginWait d origin depth p) := by
  obtain ⟨hg, he⟩ := (h.pedal d).free lifting waiting
  unfold beginWait submitLift
  dsimp only
  generalize hr : ({ p.pedal d with
    state := .waiting
    origin := some origin
    depth := liftDepth d (p.pedal d) depth
    settleTimer := none } : PedalRecord) = r
  have left := (h.but.leave hg he).setPedal (d := d) (also_self _ _) r
  have sound : ((p.setPedal d r).newEntry (pedalLineNo d) 0 ((p.setPedal d r).settings.pedalCost d)
      (.lift (liftDepth d (p.pedal d) depth)) false).sound := by
    simp only [WaitEntry.sound, Part.newEntry]
    exact ⟨pedalLineNo_ge d, trivial⟩
  obtain ⟨good, aside⟩ := arrive_good left
    (h.head.of_arbiter (Part.setPedal_arbiter p d r) (by rw [Part.setPedal_settings])) sound
    ⟨d, rfl, by rw [Part.pedal_setPedal_same, ← hr], by rw [Part.pedal_setPedal_same, ← hr]; exact Option.some_ne_none _⟩
  exact ⟨good, (Aside.setPedal (only_self _) _).trans aside⟩

theorem countWithdrawal_same (p : Part) : SameUnits p (countWithdrawal p) :=
  .of_eq rfl rfl rfl (fun _ => rfl) fun d => by cases d <;> rfl

theorem countLatePedal_same (p : Part) : SameUnits p (countLatePedal p) :=
  .of_eq rfl rfl rfl (fun _ => rfl) fun d => by cases d <;> rfl

theorem dropEntry_aside (ms : LineNo → Prop) (p : Part) (m : LineNo) : Aside ms p (p.dropEntry m) :=
  .setWait_subset List.eraseP_subset

/-- A WAITING pedal has no place. -/
theorem PedalSound.place_of_waiting (h : PedalSound p d) (waiting : (p.pedal d).state = .waiting) :
    p.arbiter.grants[pedalLineNo d] = none :=
  not_not.1 fun c => by
    have := h.1.2 c
    simp [waiting] at this

/-- The entry of a WAITING pedal is withdrawn (R120). -/
theorem withdrawLift_left (h : Good dr p) (waiting : (p.pedal d).state = .waiting) :
    BudgetBut dr (also (pedalLineNo d) noLine) (withdrawLift d p) ∧ HeadWaits (withdrawLift d p)
      ∧ Aside (only (pedalLineNo d)) p (withdrawLift d p) ∧ (withdrawLift d p).pedal d = p.pedal d := by
  have left := (countWithdrawal_same _).budgetBut (h.but.drop ((h.pedal d).place_of_waiting waiting))
  obtain ⟨but, head, aside, -, pedal⟩ := grantingPass_reported left
  have counted : Aside (only (pedalLineNo d)) (p.dropEntry (pedalLineNo d))
      (countWithdrawal (p.dropEntry (pedalLineNo d))) :=
    .of_eq rfl rfl (fun _ => rfl) fun d => by cases d <;> rfl
  refine ⟨but, head, ((dropEntry_aside _ _ _).trans counted).trans aside, ?_⟩
  rw [withdrawLift, pedal d (left.free _ (also_self _ _)).2]
  cases d <;> rfl

/-- A pedal whose lift is withdrawn goes back (R152). -/
theorem withdrawn_good (h : Good dr p) (waiting : (p.pedal d).state = .waiting) :
    Good dr (returnPedal d (withdrawLift d p))
      ∧ Aside (only (pedalLineNo d)) p (returnPedal d (withdrawLift d p)) := by
  obtain ⟨but, head, aside, -⟩ := withdrawLift_left h waiting
  exact ⟨⟨but.return_pedal, head.of_arbiter (returnPedal_arbiter d _) (by rw [(returnPedal_frame d _).settings])⟩,
    aside.trans (returnPedal_aside (only_self _))⟩

/-- The record of a pedal whose entry has left (R152, R154). -/
def PedalRecord.returned (r : PedalRecord) (t : Settings) (d : Pedal) (now : Time) : PedalRecord :=
  match r.origin with
  | some .dropping =>
    { r with state := .dropping, origin := none, settleTimer := some { started := now, length := t.pedalSettle d } }
  | some .deepen => { r with state := .raised, origin := none, depth := .part }
  | some .lowered | none => { r with state := .lowered, origin := none }

theorem returnPedal_eq (d : Pedal) (p : Part) :
    returnPedal d p = p.setPedal d ((p.pedal d).returned p.settings d p.now) := by
  unfold returnPedal PedalRecord.returned
  dsimp only
  split <;> next ho => simp only [ho]

/-! ### Drops and depths -/

/-- A pedal that is neither LIFTING nor WAITING is dropped (R152). -/
theorem beginDrop_good (h : Good dr p) (lifting : (p.pedal d).state ≠ .lifting) (waiting : (p.pedal d).state ≠ .waiting) :
    Good dr (beginDrop d p) := by
  obtain ⟨hg, he⟩ := (h.pedal d).free lifting waiting
  exact h.setPedal (.settled hg he (by simp) (by simp) ((h.pedal d).no_origin waiting))

theorem beginDrop_aside (d : Pedal) (p : Part) : Aside (only (pedalLineNo d)) p (beginDrop d p) :=
  .setPedal (only_self _) _

/-- A change of a pedal's record in neither its state nor its origin. -/
theorem setPedal_good {r : PedalRecord} (h : Good dr p) (state : r.state = (p.pedal d).state)
    (origin : r.origin = (p.pedal d).origin) : Good dr (p.setPedal d r) :=
  (SameUnits.setPedal (by rw [PedalRecord.view, PedalRecord.view, state, origin])).good h

/-- A change of depth (R153). -/
theorem changeDepth_good (h : Good dr p) (depth : Depth) :
    Good dr (changeDepth d depth p) ∧ Aside (only (pedalLineNo d)) p (changeDepth d depth p) := by
  unfold changeDepth
  dsimp only
  split
  · next raised =>
    split
    · exact ⟨setPedal_good h rfl rfl, .setPedal (only_self _) _⟩
    · exact beginWait_good h _ _ (by simp [raised]) (by simp [raised])
  · next waiting =>
    split
    · exact withdrawn_good h waiting
    · exact ⟨setPedal_good h rfl rfl, .setPedal (only_self _) _⟩
  · exact ⟨setPedal_good h rfl rfl, .setPedal (only_self _) _⟩
  · exact ⟨h, .refl _ _⟩
  · exact ⟨h, .refl _ _⟩

/-- A lift (R150). -/
theorem liftPedal_good (h : Good dr p) (depth : Depth) :
    Good dr (liftPedal d depth p) ∧ Aside (only (pedalLineNo d)) p (liftPedal d depth p) := by
  unfold liftPedal
  dsimp only
  split
  · next lowered =>
    split
    · exact ⟨(countWithdrawal_same p).good h, .of_eq rfl rfl (fun _ => rfl) fun e => by cases e <;> rfl⟩
    · exact beginWait_good h _ _ (by simp [lowered]) (by simp [lowered])
  · next dropping => exact beginWait_good h _ _ (by simp [dropping]) (by simp [dropping])
  · split
    · exact changeDepth_good h depth
    · exact ⟨h, .refl _ _⟩
  · exact ⟨setPedal_good h rfl rfl, .setPedal (only_self _) _⟩
  · split
    · exact changeDepth_good h depth
    · exact ⟨h, .refl _ _⟩

/-- A drop (R152). -/
theorem dropPedal_good (h : Good dr p) :
    Good dr (dropPedal d p) ∧ Aside (only (pedalLineNo d)) p (dropPedal d p) := by
  unfold dropPedal
  dsimp only
  split
  · exact ⟨h, .refl _ _⟩
  · exact ⟨h, .refl _ _⟩
  · next waiting =>
    obtain ⟨good, aside⟩ := withdrawn_good h waiting
    split
    · next deepen =>
      have raised : ((returnPedal d (withdrawLift d p)).pedal d).state = .raised := by
        rw [returnPedal_eq, Part.pedal_setPedal_same, (withdrawLift_left h waiting).2.2.2, PedalRecord.returned, deepen]
      exact ⟨beginDrop_good good (by simp [raised]) (by simp [raised]), aside.trans (beginDrop_aside _ _)⟩
    · exact ⟨good, aside⟩
  · exact ⟨setPedal_good h rfl rfl, .setPedal (only_self _) _⟩
  · next raised => exact ⟨beginDrop_good h (by simp [raised]) (by simp [raised]), beginDrop_aside _ _⟩

/-! ### The ends of lifts and settles -/

/-- A pedal that is left out is taken in again in a state without a place and an entry. -/
theorem BudgetBut.settle_pedal {r : PedalRecord} (h : BudgetBut dr (also (pedalLineNo d) noLine) p)
    (lifting : r.state ≠ .lifting) (waiting : r.state ≠ .waiting) (origin : r.origin = none) :
    BudgetBut dr noLine (p.setPedal d r) := by
  obtain ⟨hg, he⟩ := h.free _ (also_self _ noLine)
  exact (h.setPedal (also_self _ _) r).close_pedal (.settled hg he lifting waiting origin)

/-- A pedal's kick ends (R151). -/
theorem liftEnds_good (h : Good dr p) : Good dr (liftEnds d p) ∧ Aside (only (pedalLineNo d)) p (liftEnds d p) := by
  unfold liftEnds
  split
  · next lifting =>
    have he : ¬ p.hasEntry (pedalLineNo d) := fun c => by
      have := (h.pedal d).2.1.2 c
      simp [lifting] at this
    obtain ⟨but, head, aside, -, pedal⟩ := reportEnd_reported h he
    have origin : ((reportEnd (pedalLineNo d) p).pedal d).origin = none := by
      rw [pedal d he]
      exact (h.pedal d).no_origin (by simp [lifting])
    dsimp only
    split
    · unfold beginDrop
      dsimp only
      rw [Part.setPedal_setPedal]
      refine ⟨⟨but.settle_pedal (by simp) (by simp) ?_, head.of_arbiter (Part.setPedal_arbiter _ _ _)
        (by rw [Part.setPedal_settings])⟩, aside.trans (.setPedal (only_self _) _)⟩
      simpa [PedalRecord.driven] using origin
    · rw [Part.setPedal_setPedal]
      refine ⟨⟨but.settle_pedal (by simp) (by simp) ?_, head.of_arbiter (Part.setPedal_arbiter _ _ _)
        (by rw [Part.setPedal_settings])⟩, aside.trans (.setPedal (only_self _) _)⟩
      simpa [PedalRecord.driven] using origin
  · exact ⟨h, .refl _ _⟩

theorem settleEnds_good (h : Good dr p) : Good dr (settleEnds d p) := by
  unfold settleEnds
  dsimp only
  split
  · next dropping =>
    obtain ⟨hg, he⟩ := (h.pedal d).free (by simp [dropping]) (by simp [dropping])
    exact h.setPedal (.settled hg he (by simp) (by simp) ((h.pedal d).no_origin (by simp [dropping])))
  · exact h

/-- An entry's deadline passes (R119). -/
theorem expireEntry_good {e : WaitEntry} (h : Good dr p) (he : e ∈ p.arbiter.wait) : Good dr (expireEntry e p) := by
  unfold expireEntry
  have sound := h.but.list.2.2.2 e he
  split
  · next plan _ hr => exact (removeKeyEntry_good h he hr .late _).1
  · next depth d hr hl =>
    obtain ⟨⟨x, hx⟩, -⟩ := sound.of_lift hr
    obtain rfl : x = d := by
      rw [hx, lineKey_pedalLineNo] at hl
      exact Sum.inr.inj hl
    have waiting : (p.pedal x).state = .waiting := (h.pedal x).2.1.2 (hx ▸ ⟨e, he, rfl⟩)
    rw [hx]
    exact grantingPass_good ((countLatePedal_same _).budgetBut
      (h.but.drop ((h.pedal x).place_of_waiting waiting))).return_pedal
  · next depth k hr hl =>
    obtain ⟨⟨x, hx⟩, -⟩ := sound.of_lift hr
    rw [hx, lineKey_pedalLineNo] at hl
    cases hl

/-! ### Faults, restores and holds -/

/-- What a fault cuts on a pedal's line, which is left out then (R155). -/
theorem pedalFaulted_good (h : Good dr p) :
    Good dr (pedalFaulted d p) ∧ Aside (only (pedalLineNo d)) p (pedalFaulted d p) := by
  have lowered : ∀ q : Part, ∀ r : PedalRecord, BudgetBut dr (also (pedalLineNo d) noLine) q → HeadWaits q →
      Aside (only (pedalLineNo d)) p q → r.state = .lowered → r.origin = none →
      Good dr (q.setPedal d r) ∧ Aside (only (pedalLineNo d)) p (q.setPedal d r) :=
    fun q r but head aside state origin =>
      ⟨⟨but.settle_pedal (by simp [state]) (by simp [state]) origin,
        head.of_arbiter (Part.setPedal_arbiter _ _ _) (by rw [Part.setPedal_settings])⟩,
        aside.trans (.setPedal (only_self _) _)⟩
  have still : (p.pedal d).state ≠ .lifting → (p.pedal d).state ≠ .waiting →
      BudgetBut dr (also (pedalLineNo d) noLine) p := fun lifting waiting => by
    obtain ⟨hg, he⟩ := (h.pedal d).free lifting waiting
    exact h.but.leave hg he
  unfold pedalFaulted
  dsimp only
  split
  · next lifting =>
    have he : ¬ p.hasEntry (pedalLineNo d) := fun c => by
      have := (h.pedal d).2.1.2 c
      simp [lifting] at this
    obtain ⟨but, head, aside, -, -⟩ := reportEnd_reported h he
    exact lowered _ _ but head aside rfl rfl
  · next waiting =>
    obtain ⟨but, head, aside, -⟩ := withdrawLift_left h waiting
    exact lowered _ _ but head aside rfl rfl
  · next hs => exact lowered _ _ (still (by simp [hs]) (by simp [hs])) h.head (.refl _ _) rfl rfl
  · next hs => exact lowered _ _ (still (by simp [hs]) (by simp [hs])) h.head (.refl _ _) rfl rfl
  · next hs => exact lowered _ _ (still (by simp [hs]) (by simp [hs])) h.head (.refl _ _) rfl rfl

theorem faultPedal_good (kind : FaultKind) (h : Good dr p) :
    Good dr (faultPedal d kind p) ∧ Aside (only (pedalLineNo d)) p (faultPedal d kind p) := by
  unfold faultPedal
  split
  · exact ⟨h, .refl _ _⟩
  · obtain ⟨good, aside⟩ := pedalFaulted_good (d := d) ((raiseLineFault_same (pedalLineNo d) _).good
      (setPedal_good (d := d) (r := { (p.pedal d).driven p none with fault := kind }) h rfl rfl))
    exact ⟨good, ((Aside.setPedal (only_self _) _).trans (.notices _)).trans aside⟩

theorem clearPedalFault_good (h : Good dr p) : Good dr (clearPedalFault d p) := setPedal_good h rfl rfl

theorem applyHold_good (holding : PedalRecord → Bool) (duty : Nat) (h : Good dr p) : Good dr (applyHold d holding duty p) := by
  unfold applyHold
  split
  · exact setPedal_good h rfl rfl
  · exact h

end

end Sys2Proof.Machine
end

section
/-! PROOFS. The release of the key lines, line by line, and that it keeps the budget (R122, R138). -/

namespace Sys2Proof.Machine

/-! ### Acts on a key line of their own -/

/-- `q` differs from `p` in nothing that the budget sees but the record and the place of one key line. -/
structure OwnLine (k : KeyNo) (p q : Part) : Prop extends LinesOnly p q where
  keys : ∀ j, j ≠ k → q.key j = p.key j
  places : ∀ m, m ≠ keyLineNo k → q.arbiter.grants[m] = p.arbiter.grants[m]
  wait : q.arbiter.wait = p.arbiter.wait
  pedals : ∀ d, q.pedal d = p.pedal d

namespace OwnLine

variable {k : KeyNo} {p q r : Part}

theorem refl (k : KeyNo) (p : Part) : OwnLine k p p :=
  ⟨.refl p, fun _ _ => rfl, fun _ _ => rfl, rfl, fun _ => rfl⟩

theorem trans (h : OwnLine k p q) (g : OwnLine k q r) : OwnLine k p r :=
  ⟨h.toLinesOnly.trans g.toLinesOnly, fun j hj => (g.keys j hj).trans (h.keys j hj),
    fun m hm => (g.places m hm).trans (h.places m hm), g.wait.trans h.wait, fun d => (g.pedals d).trans (h.pedals d)⟩

theorem setKey (k : KeyNo) (l : KeyLine) (p : Part) : OwnLine k p (p.setKey k l) :=
  ⟨setKey_frame p k l, fun _ hj => Part.key_setKey_ne p l hj, fun _ _ => rfl, rfl, fun d => Part.setKey_pedal p k l d⟩

theorem endPlan (plan : Plan) (o : StrikeOutcome) (waited : Nat) (p : Part) :
    OwnLine k p (endPlan plan o waited p) := by
  have frame := endPlan_frame plan o waited p
  rw [endPlan_eq_filed] at frame ⊢
  obtain ⟨hd, hp, -, -, hg, hw⟩ := filed_keeps plan o waited p
  exact ⟨frame, fun j _ => by rw [Part.key, hd, Part.key], fun m _ => by rw [hg], hw,
    fun d => by cases d <;> simp only [Part.pedal, hp]⟩

theorem emptyPlace (k : KeyNo) (p : Part) : OwnLine k p (p.setPlace (keyLineNo k) none) :=
  ⟨setPlace_frame p _ _, fun _ _ => rfl, fun _ hm => (setPlace_kept p _ none hm).grant, rfl, fun d => Part.setPlace_pedal p _ _ d⟩

theorem notices (f : Notices → Notices) (p : Part) (frame : LinesOnly p (updateNotices f p)) :
    OwnLine k p (updateNotices f p) :=
  ⟨frame, fun _ _ => rfl, fun _ _ => rfl, rfl, fun d => by cases d <;> rfl⟩

end OwnLine

/-- What acts on key lines of their own leave: each line of theirs as its own act leaves it, and every other line as it
was. -/
structure OwnLines (ks : List KeyNo) (g : KeyNo → KeyLine) (c : KeyNo → Option Nat) (p q : Part) : Prop
    extends LinesOnly p q where
  acted : ∀ k ∈ ks, q.key k = g k ∧ q.arbiter.grants[keyLineNo k] = c k
  keys : ∀ k, k ∉ ks → q.key k = p.key k
  places : ∀ m, (∀ k ∈ ks, m ≠ keyLineNo k) → q.arbiter.grants[m] = p.arbiter.grants[m]
  wait : q.arbiter.wait = p.arbiter.wait
  pedals : ∀ d, q.pedal d = p.pedal d

/-- Acts on different key lines, one after the other. -/
theorem own_foldl {α : Type} {act : α → Part → Part} {line : α → KeyNo} {g : KeyNo → KeyLine} {c : KeyNo → Option Nat}
    (as : List α) (nodup : (as.map line).Nodup) (p : Part) (own : ∀ a ∈ as, ∀ q, OwnLine (line a) q (act a q))
    (acted : ∀ a ∈ as, ∀ q, LinesOnly p q → q.key (line a) = p.key (line a) →
      q.arbiter.grants[keyLineNo (line a)] = p.arbiter.grants[keyLineNo (line a)] →
        (act a q).key (line a) = g (line a) ∧ (act a q).arbiter.grants[keyLineNo (line a)] = c (line a)) :
    OwnLines (as.map line) g c p (as.foldl (fun q a => act a q) p) := by
  induction as using List.reverseRecOn with
  | nil =>
    exact ⟨.refl p, fun _ h => absurd h List.not_mem_nil, fun _ _ => rfl, fun _ _ => rfl, rfl, fun _ => rfl⟩
  | append_singleton as a ih =>
    rw [List.map_append, List.map_singleton] at nodup ⊢
    obtain ⟨nd, -, apart⟩ := List.nodup_append.1 nodup
    have new : ∀ k ∈ as.map line, k ≠ line a := fun k hk => apart k hk _ (by simp)
    have before := ih nd (fun b hb => own b (by simp [hb])) fun b hb => acted b (by simp [hb])
    rw [List.foldl_append, List.foldl_cons, List.foldl_nil]
    generalize as.foldl (fun q a => act a q) p = q at before
    have step := own a (by simp) q
    have fresh : line a ∉ as.map line := fun h => new _ h rfl
    have free : ∀ k ∈ as.map line, keyLineNo (line a) ≠ keyLineNo k := fun k hk e => new k hk (keyLineNo_inj.1 e).symm
    refine ⟨before.toLinesOnly.trans step.toLinesOnly, fun k hk => ?_, fun k hk => ?_, fun m hm => ?_,
      step.wait.trans before.wait, fun d => (step.pedals d).trans (before.pedals d)⟩
    · rcases List.mem_append.1 hk with hk | hk
      · rw [step.keys k (new k hk), step.places _ fun e => new k hk (keyLineNo_inj.1 e)]
        exact before.acted k hk
      · rw [List.mem_singleton.1 hk]
        exact acted a (by simp) q before.toLinesOnly (before.keys _ fresh) (before.places _ free)
    · rw [List.mem_append, not_or, List.mem_singleton] at hk
      rw [step.keys k hk.2, before.keys k hk.1]
    · rw [step.places m (hm _ (by simp)), before.places m fun k hk => hm k (by simp [List.mem_append, List.mem_map.1 hk])]

/-- Acts on different key lines in any order. -/
theorem own_inAnyOrder {act : KeyNo → Part → Part} {g : KeyNo → KeyLine} {c : KeyNo → Option Nat} {ks : List KeyNo}
    (nodup : ks.Nodup) (p : Part) (own : ∀ k q, OwnLine k q (act k q))
    (acted : ∀ k ∈ ks, ∀ q, LinesOnly p q → q.key k = p.key k →
      q.arbiter.grants[keyLineNo k] = p.arbiter.grants[keyLineNo k] →
        (act k q).key k = g k ∧ (act k q).arbiter.grants[keyLineNo k] = c k) :
    OwnLines ks g c p (inAnyOrder ks act p) := by
  have perm := freeOrder_perm ks.length p.choices ks
  have chosen : LinesOnly p { p with choices := p.choices + (ks.length - 1) } := choices_frame p _
  have all := own_foldl (act := act) (line := id) (g := g) (c := c) (freeOrder ks.length p.choices ks)
    (by rw [List.map_id]; exact perm.nodup_iff.2 nodup) { p with choices := p.choices + (ks.length - 1) }
    (fun k _ q => own k q) fun k hk q hq => acted k (perm.mem_iff.1 hk) q (chosen.trans hq)
  rw [List.map_id] at all
  exact ⟨chosen.trans all.toLinesOnly, fun k hk => all.acted k (perm.mem_iff.2 hk),
    fun k hk => all.keys k fun c => hk (perm.mem_iff.1 c),
    fun m hm => all.places m fun k hk => hm k (perm.mem_iff.1 hk), all.wait, fun d => all.pedals d⟩

/-! ### The flush of the list (R122) -/

/-- The key an entry asks a strike of. -/
def WaitEntry.key (e : WaitEntry) : KeyNo :=
  match e.request with
  | .strike plan => plan.line
  | .lift _ => 0

/-- A key line whose entry has left without a grant (R131). -/
def KeyLine.unqueued (l : KeyLine) : KeyLine := { l with state := .idle, queuedOrigin := none }

theorem flushEntry_own {e : WaitEntry} (he : e.isKey = true) (q : Part) : OwnLine e.key q (flushEntry e q) := by
  unfold flushEntry WaitEntry.key
  cases hr : e.request with
  | strike plan => exact (OwnLine.setKey _ _ q).trans (.endPlan _ _ _ _)
  | lift depth => simp [WaitEntry.isKey, hr] at he

theorem flushEntry_acted {e : WaitEntry} (he : e.isKey = true) (q : Part) :
    (flushEntry e q).key e.key = (q.key e.key).unqueued ∧ (flushEntry e q).arbiter.grants = q.arbiter.grants := by
  unfold flushEntry WaitEntry.key
  cases hr : e.request with
  | strike plan =>
    simp only [endPlan_eq_filed]
    obtain ⟨hd, -, -, -, hg, -⟩ := filed_keeps (plan.withShort e.short) .flushed (wholeMs e.entered q.now)
      (unqueueKey plan.line q)
    rw [Part.key, hd, hg]
    exact ⟨Part.key_setKey_same _ _ _, rfl⟩
  | lift depth => simp [WaitEntry.isKey, hr] at he

/-- A key entry of a sound list stands under its key's line. -/
theorem WaitEntry.sound.line_of_isKey {e : WaitEntry} (h : e.sound) (he : e.isKey = true) : e.line = keyLineNo e.key := by
  unfold WaitEntry.key
  cases hr : e.request with
  | strike plan => exact (h.of_strike hr).1
  | lift depth => simp [WaitEntry.isKey, hr] at he

/-- Every QUEUED line is IDLE, and the pedals' entries alone are left (R122). -/
structure Flushed (p q : Part) : Prop extends LinesOnly p q where
  key : ∀ k, q.key k = if (p.key k).state = .queued then (p.key k).unqueued else p.key k
  grants : q.arbiter.grants = p.arbiter.grants
  wait : q.arbiter.wait = p.arbiter.wait.filter fun e => !e.isKey
  pedals : ∀ d, q.pedal d = p.pedal d

theorem flushEntries_flushed {p : Part} (h : BudgetSound p) : Flushed p (flushEntries p) := by
  have list := h.good.but.list
  have isKey : ∀ e ∈ p.arbiter.wait.filter WaitEntry.isKey, e ∈ p.arbiter.wait ∧ e.isKey = true := fun e he =>
    List.mem_filter.1 he
  have line : ∀ e ∈ p.arbiter.wait.filter WaitEntry.isKey, e.line = keyLineNo e.key := fun e he =>
    (list.2.2.2 e (isKey e he).1).line_of_isKey (isKey e he).2
  have nodup : ((p.arbiter.wait.filter WaitEntry.isKey).map WaitEntry.key).Nodup := by
    have lines := list.2.1.sublist ((List.filter_sublist (p := WaitEntry.isKey)).map WaitEntry.line)
    rw [List.map_congr_left line] at lines
    exact List.Nodup.of_map keyLineNo (by rw [List.map_map]; exact lines)
  have all := own_foldl (act := fun e q => flushEntry e q) (line := WaitEntry.key)
    (g := fun k => (p.key k).unqueued) (c := fun k => p.arbiter.grants[keyLineNo k]) _ nodup
    (p.setWait (p.arbiter.wait.filter fun e => !e.isKey)) (fun e he q => flushEntry_own (isKey e he).2 q)
    fun e he q _ hk hg => by
      obtain ⟨key, grants⟩ := flushEntry_acted (isKey e he).2 q
      exact ⟨by rw [key, hk]; rfl, by rw [grants]; exact hg⟩
  have queued : ∀ k, (p.key k).state = .queued ↔ k ∈ (p.arbiter.wait.filter WaitEntry.isKey).map WaitEntry.key := by
    intro k
    rw [(h.key k).2.1]
    constructor
    · rintro ⟨e, he, hl⟩
      obtain ⟨plan, hr, rfl, -⟩ := (list.2.2.2 e he).strike_of_key hl
      exact List.mem_map.2 ⟨e, List.mem_filter.2 ⟨he, by simp [WaitEntry.isKey, hr]⟩, by simp [WaitEntry.key, hr]⟩
    · intro hk
      obtain ⟨e, he, rfl⟩ := List.mem_map.1 hk
      exact ⟨e, (isKey e he).1, line e he⟩
  refine ⟨(setWait_frame _ _).trans all.toLinesOnly, fun k => ?_, ?_, all.wait, fun d => (all.pedals d).trans (by simp)⟩
  · split
    · next hq => exact (all.acted k ((queued k).1 hq)).1
    · next hq => exact all.keys k fun c => hq ((queued k).2 c)
  · refine Vector.ext fun i hi => ?_
    rcases line_cases ⟨i, hi⟩ with ⟨k, hk⟩ | ⟨d, hd⟩
    · have : i = (keyLineNo k).val := congrArg Fin.val hk
      subst this
      by_cases hm : k ∈ (p.arbiter.wait.filter WaitEntry.isKey).map WaitEntry.key
      · exact (all.acted k hm).2
      · exact all.places (keyLineNo k) fun j hj c => hm (keyLineNo_inj.1 c ▸ hj)
    · have : i = (pedalLineNo d).val := congrArg Fin.val hd
      subst this
      exact all.places (pedalLineNo d) fun j _ c => keyLineNo_ne_pedalLineNo j d c.symm

/-! ### The release of one line (R138) -/

@[simp] theorem setDuty_none (base : Nat) (now : Time) (d : Drive) : d.setDuty base now none = { d with duty := none } := by
  unfold Drive.setDuty
  split
  · rfl
  · next h => cases h
  · next h => cases h

/-- A line that enters RELEASE is let go. -/
theorem enterRelease_eq (k : KeyNo) (p : Part) : enterRelease k p = p.setKey k ((p.key k).letGo p.now) := by
  unfold enterRelease KeyLine.letGo
  dsimp only
  rw [setDuty_none]

/-- A key line after its release, but for its pending plan (R138, R140). -/
def KeyLine.releasing (l : KeyLine) (restore : Bool) (t : Settings) (now : Time) : KeyLine :=
  match l.state with
  | .idle | .release => l
  | .queued => l.unqueued
  | .kick =>
    match l.plan with
    | some plan => (l.warmed t (kickHeat (kickStepsRun plan l now) plan.kickDuty)).letGo now
    | none => l.letGo now
  | .hold => l.letGo now
  | .faulted => if restore then { l.letGo now with fault := .none } else l

theorem gainHeat_own (k : KeyNo) (n : Nat) (p : Part) : OwnLine k p (gainHeat k n p) := by
  unfold gainHeat
  dsimp only
  split
  · exact (OwnLine.setKey k _ p).trans (.notices _ _ (raiseLineResting_frame k _))
  · exact .setKey k _ p

theorem cutKick_own (k : KeyNo) (p : Part) : OwnLine k p (cutKick k p) := by
  unfold cutKick
  split
  · exact (gainHeat_own k _ p).trans (.emptyPlace k _)
  · exact .emptyPlace k p

theorem cutKick_place (k : KeyNo) (p : Part) : (cutKick k p).arbiter.grants[keyLineNo k] = none := by
  unfold cutKick
  split <;> exact setPlace_getElem _ _ _

theorem enterRelease_own (k : KeyNo) (p : Part) : OwnLine k p (enterRelease k p) := .setKey k _ p

theorem releaseKey_own (restore : Bool) (k : KeyNo) (p : Part) : OwnLine k p (releaseKey restore k p) := by
  unfold releaseKey
  split
  · exact (cutKick_own k p).trans (enterRelease_own k _)
  · exact enterRelease_own k p
  · exact .setKey k _ p
  · split
    · exact (enterRelease_own k p).trans (.setKey k _ _)
    · exact .refl k p
  · exact .refl k p
  · exact .refl k p

theorem releaseKey_key (restore : Bool) (k : KeyNo) (p : Part) :
    (releaseKey restore k p).key k = (p.key k).releasing restore p.settings p.now := by
  unfold releaseKey KeyLine.releasing
  split <;> rename_i hs <;> simp only [hs]
  · rw [enterRelease_eq, Part.key_setKey_same, cutKick_key, if_pos rfl, (cutKick_frame k p).now]
    cases (p.key k).plan <;> rfl
  · rw [enterRelease_eq, Part.key_setKey_same]
  · exact Part.key_setKey_same _ _ _
  · split
    · rw [Part.key_setKey_same, enterRelease_eq, Part.key_setKey_same]
    · rfl

theorem releaseKey_place (restore : Bool) {k : KeyNo} {p : Part} (h : (p.key k).state = .kick ∨
    p.arbiter.grants[keyLineNo k] = none) : (releaseKey restore k p).arbiter.grants[keyLineNo k] = none := by
  unfold releaseKey
  split
  · exact cutKick_place k p
  · next hs => exact h.resolve_left (by simp [hs])
  · next hs => exact h.resolve_left (by simp [hs])
  · next hs =>
    split <;> exact h.resolve_left (by simp [hs])
  · next hs => exact h.resolve_left (by simp [hs])
  · next hs => exact h.resolve_left (by simp [hs])

/-- A line whose pending plan is flushed: one that waited with its guard complete is IDLE then (log entry 12). -/
def KeyLine.cleared (l : KeyLine) : KeyLine :=
  if l.pending = none then l
  else if l.state = .release ∧ l.guardDone = true then { l with state := .idle, guardDone := false, pending := none }
  else { l with pending := none }

theorem endPending_own (k : KeyNo) (o : StrikeOutcome) (p : Part) : OwnLine k p (endPending k o p) := by
  unfold endPending
  split
  · exact .refl k p
  · exact (OwnLine.setKey k _ p).trans (.endPlan _ _ _ _)

theorem endWait_eq {k : KeyNo} {p : Part} (pending : (p.key k).pending = none) :
    endWait k p = if (p.key k).state = .release ∧ (p.key k).guardDone = true then
      p.setKey k { p.key k with state := .idle, guardDone := false } else p := by
  unfold endWait endOfGuard
  simp only [pending, and_true]

theorem endWait_own {k : KeyNo} {p : Part} (pending : (p.key k).pending = none) : OwnLine k p (endWait k p) := by
  rw [endWait_eq pending]
  split
  · exact .setKey k _ p
  · exact .refl k p

theorem flushPlan_own (k : KeyNo) (p : Part) : OwnLine k p (endWait k (endPending k .flushed p)) :=
  (endPending_own k _ p).trans (endWait_own (by rw [endPending_key, if_pos rfl]))

theorem flushPlan_acted {k : KeyNo} {p : Part} (pending : (p.key k).pending ≠ none) :
    (endWait k (endPending k .flushed p)).key k = (p.key k).cleared
      ∧ (endWait k (endPending k .flushed p)).arbiter.grants = p.arbiter.grants := by
  have key : (endPending k .flushed p).key k = { p.key k with pending := none } := by
    rw [endPending_key, if_pos rfl]
  rw [endWait_eq (by rw [key]), key, KeyLine.cleared, if_neg pending]
  split
  · exact ⟨Part.key_setKey_same _ _ _, (endPending_arbiter _ _ _).1⟩
  · exact ⟨key, (endPending_arbiter _ _ _).1⟩

/-- The pending plans are flushed, and nothing else moves (R122, R138). -/
theorem flushPending_flushed (p : Part) :
    LinesOnly p (flushPending p) ∧ (∀ k, (flushPending p).key k = (p.key k).cleared)
      ∧ (∀ k, (flushPending p).arbiter.grants[keyLineNo k] = p.arbiter.grants[keyLineNo k])
      ∧ (∀ d, (flushPending p).arbiter.grants[pedalLineNo d] = p.arbiter.grants[pedalLineNo d])
      ∧ (flushPending p).arbiter.wait = p.arbiter.wait ∧ ∀ d, (flushPending p).pedal d = p.pedal d := by
  have isSome : ∀ k ∈ allKeys.filter fun k => (p.key k).pending.isSome, (p.key k).pending ≠ none := fun k hk =>
    Option.isSome_iff_ne_none.1 (List.mem_filter.1 hk).2
  have all := own_inAnyOrder (act := fun k q => endWait k (endPending k .flushed q)) (g := fun k => (p.key k).cleared)
    (c := fun k => p.arbiter.grants[keyLineNo k]) (allKeys_nodup.filter _) p flushPlan_own fun k hk q _ hkey hg => by
      obtain ⟨key, grants⟩ := flushPlan_acted (k := k) (p := q) (by rw [hkey]; exact isSome k hk)
      exact ⟨by rw [key, hkey], by rw [grants]; exact hg⟩
  refine ⟨all.toLinesOnly, fun k => ?_, fun k => ?_, fun d => ?_, all.wait, all.pedals⟩
  · by_cases hk : k ∈ allKeys.filter fun k => (p.key k).pending.isSome
    · exact (all.acted k hk).1
    · have none : (p.key k).pending = none := by
        by_contra c
        exact hk (List.mem_filter.2 ⟨List.mem_finRange k, Option.isSome_iff_ne_none.2 c⟩)
      rw [KeyLine.cleared, if_pos none]
      exact all.keys k hk
  · by_cases hk : k ∈ allKeys.filter fun k => (p.key k).pending.isSome
    · exact (all.acted k hk).2
    · exact all.places _ fun j hj c => hk (keyLineNo_inj.1 c ▸ hj)
  · exact all.places _ fun j _ c => keyLineNo_ne_pedalLineNo j d c.symm

/-! ### The release of the key lines (R138) -/

/-- The part after the release of the key lines, before the granting pass. -/
def releasedLines (restore : Bool) (p : Part) : Part :=
  flushPending (allKeys.foldl (fun q k => releaseKey restore k q) (flushEntries p))

/-- The steps of a release, taken together, are those of `KeyLine.released`. -/
theorem released_eq {l : KeyLine} (restore : Bool) (t : Settings) (now : Time) (kick : l.state = .kick → l.plan ≠ none)
    (pending : l.pending ≠ none → l.state = .kick ∨ l.state = .release) :
    ((if l.state = .queued then l.unqueued else l).releasing restore t now).cleared = l.released restore t now := by
  have none : l.state ≠ .kick → l.state ≠ .release → l.pending = none := fun h1 h2 => by
    by_contra c
    exact (pending c).elim h1 h2
  unfold KeyLine.released
  cases hs : l.state with
  | idle => simp [KeyLine.releasing, KeyLine.cleared, hs, none]
  | queued => simp [KeyLine.releasing, KeyLine.cleared, KeyLine.unqueued, hs, none]
  | kick =>
    obtain ⟨plan, hp⟩ := Option.ne_none_iff_exists'.1 (kick hs)
    simp only [KeyLine.releasing, hs, hp, reduceCtorEq, if_false, kickHeat, kickStepsRun]
    simp only [KeyLine.cleared, KeyLine.letGo, KeyLine.warmed]
    split
    · next h => simp [h]
    · simp
  | hold => simp [KeyLine.releasing, KeyLine.cleared, KeyLine.letGo, hs, none]
  | release => simp [KeyLine.releasing, KeyLine.cleared, hs]
  | faulted => cases restore <;> simp [KeyLine.releasing, KeyLine.cleared, KeyLine.letGo, hs, none]

theorem releasedLines_spec {p : Part} (h : BudgetSound p) (restore : Bool) :
    LinesOnly p (releasedLines restore p)
      ∧ (∀ k, (releasedLines restore p).key k = (p.key k).released restore p.settings p.now)
      ∧ (∀ k, (releasedLines restore p).arbiter.grants[keyLineNo k] = none)
      ∧ (∀ d, (releasedLines restore p).arbiter.grants[pedalLineNo d] = p.arbiter.grants[pedalLineNo d])
      ∧ (releasedLines restore p).arbiter.wait = (p.arbiter.wait.filter fun e => !e.isKey)
      ∧ ∀ d, (releasedLines restore p).pedal d = p.pedal d := by
  have flushed := flushEntries_flushed h
  have all := own_foldl (act := fun k q => releaseKey restore k q) (line := id)
    (g := fun k => ((flushEntries p).key k).releasing restore p.settings p.now) (c := fun _ => none) allKeys
    (by rw [List.map_id]; exact allKeys_nodup) (flushEntries p) (fun k _ q => releaseKey_own restore k q)
    fun k _ q hq hkey hg => by
      refine ⟨?_, releaseKey_place restore ?_⟩
      · rw [id, releaseKey_key, hq.settings, hq.now, flushed.settings, flushed.now]
        exact congrArg (fun l : KeyLine => l.releasing restore p.settings p.now) hkey
      · by_cases hs : (p.key k).state = .kick
        · left
          refine (congrArg KeyLine.state hkey).trans ?_
          rw [id, flushed.key, if_neg (by simp [hs])]
          exact hs
        · right
          refine hg.trans ?_
          rw [flushed.grants]
          exact not_not.1 fun c => hs ((h.key k).1.2 c)
  rw [List.map_id] at all
  obtain ⟨frame, key, places, pedalPlaces, wait, pedals⟩ :=
    flushPending_flushed (allKeys.foldl (fun q k => releaseKey restore k q) (flushEntries p))
  refine ⟨(flushed.toLinesOnly.trans all.toLinesOnly).trans frame, fun k => ?_, fun k => ?_, fun d => ?_, ?_, fun d => ?_⟩
  · obtain ⟨-, -, hplan, hpend, -⟩ := h.key k
    rw [releasedLines, key, (all.acted k (List.mem_finRange k)).1, flushed.key,
      released_eq restore _ _ (fun hs => hplan.1 (.inl hs)) hpend]
  · rw [releasedLines, places, (all.acted k (List.mem_finRange k)).2]
  · rw [releasedLines, pedalPlaces, all.places _ fun j _ c => keyLineNo_ne_pedalLineNo j d c.symm, flushed.grants]
  · rw [releasedLines, wait, all.wait, flushed.wait]
  · rw [releasedLines, pedals, all.pedals, flushed.pedals]

end Sys2Proof.Machine
end

section
/-! PROOFS. The release of the key lines keeps the budget; so do the writes of the heat thresholds (R138, R143). -/

namespace Sys2Proof.Machine

/-! ### Places that are emptied -/

theorem unitsInUse_eq_sum (a : KickArbiter) :
    a.unitsInUse = ((List.finRange 91).map fun m => (a.grants[m]).getD 0).sum := by
  unfold KickArbiter.unitsInUse
  congr 1
  refine List.ext_getElem (by simp) fun i h1 h2 => ?_
  simp

/-- With no place filled that was not, and no more in it, the units in use do not rise. -/
theorem unitsInUse_le {a b : KickArbiter} (h : ∀ m : LineNo, b.grants[m] = none ∨ b.grants[m] = a.grants[m]) :
    b.unitsInUse ≤ a.unitsInUse := by
  rw [unitsInUse_eq_sum, unitsInUse_eq_sum]
  refine List.sum_le_sum fun m _ => ?_
  rcases h m with e | e <;> rw [e]
  exact Nat.zero_le _

@[simp] theorem Part.setKey_self (p : Part) (k : KeyNo) : p.setKey k (p.key k) = p := by
  simp only [Part.setKey, Part.key]
  have : p.drives.keys.set k p.drives.keys[k] = p.drives.keys := Vector.set_getElem_self k.isLt
  rw [this]

/-! ### The release of the key lines (R138) -/

section
variable {dr : Bool} {p : Part}

/-- A released line has nothing in hand and is not driven. -/
theorem released_rests {k : KeyNo} (h : KeyGood dr p k) (restore : Bool) (t : Settings) (now : Time) :
    let l := (p.key k).released restore t now
    l.state ≠ .kick ∧ l.state ≠ .queued ∧ l.state ≠ .hold ∧ l.plan = none ∧ l.pending = none
      ∧ (dr = true → l.drive.duty = none) := by
  obtain ⟨⟨-, -, hplan, hpend, -, -, -⟩, hd⟩ := h
  have plan : (p.key k).state ≠ .kick → (p.key k).state ≠ .hold → (p.key k).plan = none := fun h1 h2 =>
    not_not.1 fun c => (hplan.2 c).elim h1 h2
  have pending : (p.key k).state ≠ .kick → (p.key k).state ≠ .release → (p.key k).pending = none := fun h1 h2 =>
    not_not.1 fun c => (hpend c).elim h1 h2
  have duty : (p.key k).state ≠ .kick → (p.key k).state ≠ .hold → dr = true → (p.key k).drive.duty = none :=
    fun h1 h2 on => (hd on).1 h1 h2
  intro l
  cases hs : (p.key k).state with
  | idle =>
    simp only [l, KeyLine.released, hs]
    exact ⟨by simp, by simp, by simp, plan (by simp [hs]) (by simp [hs]), pending (by simp [hs]) (by simp [hs]),
      duty (by simp [hs]) (by simp [hs])⟩
  | queued =>
    simp only [l, KeyLine.released, hs]
    exact ⟨by simp, by simp, by simp, plan (by simp [hs]) (by simp [hs]), pending (by simp [hs]) (by simp [hs]),
      duty (by simp [hs]) (by simp [hs])⟩
  | kick =>
    obtain ⟨x, hx⟩ := Option.ne_none_iff_exists'.1 (hplan.1 (.inl hs))
    simp [l, KeyLine.released, hs, hx, KeyLine.letGo]
  | hold =>
    simpa [l, KeyLine.released, hs, KeyLine.letGo] using pending (by simp [hs]) (by simp [hs])
  | release =>
    have d := duty (by simp [hs]) (by simp [hs])
    have pl := plan (by simp [hs]) (by simp [hs])
    simp only [l, KeyLine.released, hs]
    split
    · next hp => exact ⟨by simp [hs], by simp [hs], by simp [hs], pl, hp, d⟩
    · split
      · exact ⟨by simp, by simp, by simp, pl, rfl, d⟩
      · exact ⟨by simp, by simp, by simp, pl, rfl, d⟩
  | faulted =>
    have pe := pending (by simp [hs]) (by simp [hs])
    simp only [l, KeyLine.released, hs]
    split
    · simp [KeyLine.letGo, pe]
    · exact ⟨by simp [hs], by simp [hs], by simp [hs], plan (by simp [hs]) (by simp [hs]), pe,
        duty (by simp [hs]) (by simp [hs])⟩

/-- The budget is kept while the lines are released. -/
theorem releasedLines_but (h : Good dr p) (restore : Bool) : BudgetBut dr noLine (releasedLines restore p) := by
  obtain ⟨frame, key, grants, pedalGrants, wait, pedals⟩ := releasedLines_spec h.budget restore
  have entry : ∀ m, (releasedLines restore p).hasEntry m ↔ ∃ e ∈ p.arbiter.wait, e.isKey = false ∧ e.line = m := by
    intro m
    unfold Part.hasEntry
    rw [wait]
    simp [and_assoc]
  refine ⟨?_, ?_, fun m _ => ?_, fun _ c => c.elim⟩
  · rw [frame.settings]
    refine le_trans (unitsInUse_le fun m => ?_) h.but.units
    rcases line_cases m with ⟨k, rfl⟩ | ⟨d, rfl⟩
    · exact .inl (grants k)
    · exact .inr (pedalGrants d)
  · rw [wait]
    exact h.but.list.sublist List.filter_sublist
  · rcases line_cases m with ⟨k, rfl⟩ | ⟨d, rfl⟩
    · obtain ⟨kick, queued, hold, plan, pending, duty⟩ := released_rests (h.key k) restore p.settings p.now
      rw [← key k] at kick queued hold plan pending duty
      have noEntry : ¬ (releasedLines restore p).hasEntry (keyLineNo k) := fun c => by
        obtain ⟨e, he, isKey, hl⟩ := (entry _).1 c
        obtain ⟨x, hr, -⟩ := (h.but.list.2.2.2 e he).strike_of_key hl
        simp [WaitEntry.isKey, hr] at isKey
      rw [lineSound_keyLineNo, ← Part.setKey_self (releasedLines restore p) k]
      exact .settled (grants k) noEntry kick queued (by simp [hold, plan]) (by simp [plan]) (by simp [pending])
        (by simp [pending]) fun on => ⟨fun _ _ => duty on, by simp [plan]⟩
    · rw [lineSound_pedalLineNo]
      have sound := h.pedal d
      unfold PedalSound at sound ⊢
      rw [pedals, pedalGrants]
      refine ⟨sound.1, sound.2.1.trans ?_, sound.2.2⟩
      rw [entry]
      constructor
      · rintro ⟨e, he, hl⟩
        obtain ⟨⟨depth, hr⟩, -⟩ := (h.but.list.2.2.2 e he).lift_of_pedal hl
        exact ⟨e, he, by simp [WaitEntry.isKey, hr], hl⟩
      · rintro ⟨e, he, -, hl⟩
        exact ⟨e, he, hl⟩

theorem releaseKeyLines_good (h : Good dr p) (restore : Bool) : Good dr (releaseKeyLines restore p) :=
  grantingPass_good (releasedLines_but h restore)

/-- What the release of the key lines leaves: every key line released, no place of a key line filled, no key entry, and
the pedals as they were but for those that waited, whose entries alone are left (R122, R138). -/
theorem releaseKeyLines_spec (h : BudgetSound p) (restore : Bool) :
    (∀ k, (releaseKeyLines restore p).key k = (p.key k).released restore p.settings p.now)
      ∧ (∀ k, (releaseKeyLines restore p).arbiter.grants[keyLineNo k] = none)
      ∧ (∀ e ∈ (releaseKeyLines restore p).arbiter.wait, e.isKey = false)
      ∧ ∀ d, (releaseKeyLines restore p).pedal d = p.pedal d ∨ ((p.pedal d).state = .waiting
          ∧ (releaseKeyLines restore p).pedal d = (p.pedal d).lifted p.settings d p.now) := by
  obtain ⟨frame, key, grants, pedalGrants, wait, pedals⟩ := releasedLines_spec h restore
  have but := releasedLines_but h.good restore
  have moves := grantingPass_moves but
  have isKey : ∀ e ∈ (releasedLines restore p).arbiter.wait, e.isKey = false := fun e he => by
    rw [wait] at he
    simpa using (List.mem_filter.1 he).2
  have noEntry : ∀ k, ¬ (releasedLines restore p).hasEntry (keyLineNo k) := fun k ⟨e, he, hl⟩ => by
    obtain ⟨x, hr, -⟩ := (but.list.2.2.2 e he).strike_of_key hl
    have := isKey e he
    simp [WaitEntry.isKey, hr] at this
  rw [show releaseKeyLines restore p = grantingPass (releasedLines restore p) from rfl]
  refine ⟨fun k => ?_, fun k => ?_, fun e he => isKey e (moves.wait.subset he), fun d => ?_⟩
  · exact (moves.key_of_no_entry (noEntry k)).trans (key k)
  · exact (moves.grants _ (noEntry k)).trans (grants k)
  · rcases moves.pedal d with same | ⟨-, he, hd⟩
    · exact .inl (same.trans (pedals d))
    · refine .inr ⟨?_, ?_⟩
      · rw [← pedals d]
        exact (but.pedal id).2.1.2 he
      · refine hd.trans ?_
        rw [pedals d, frame.settings, frame.now]

end

end Sys2Proof.Machine
end

section
/-! PROOFS. Writes of the heat thresholds keep the budget (R143): while they are taken a QUEUED line may rest. -/

namespace Sys2Proof.Machine

/-! ### The part with no line resting -/

/-- The part with every resting flag cleared: what the budget sees of a part whose QUEUED lines may rest. -/
def Part.awake (p : Part) : Part :=
  { p with drives := { p.drives with keys := p.drives.keys.map fun l => { l with resting := false } } }

@[simp] theorem awake_key (p : Part) (k : KeyNo) : p.awake.key k = { p.key k with resting := false } := by
  simp [Part.awake, Part.key]

@[simp] theorem awake_arbiter (p : Part) : p.awake.arbiter = p.arbiter := rfl

@[simp] theorem awake_settings (p : Part) : p.awake.settings = p.settings := rfl

@[simp] theorem awake_pedal (p : Part) (d : Pedal) : p.awake.pedal d = p.pedal d := by
  cases d <;> rfl

section
variable {dr : Bool} {p : Part}

/-- With no QUEUED line resting, the budget sees no resting flag. -/
theorem awake_same (h : ∀ k, (p.key k).state = .queued → (p.key k).resting = false) : SameUnits p p.awake := by
  refine .of_eq rfl rfl rfl (fun k => ?_) fun d => by simp
  rw [awake_key, KeyLine.view_eq]
  exact ⟨rfl, rfl, rfl, rfl, fun hq => (h k hq).symm⟩

theorem SameUnits.symm {p q : Part} (h : SameUnits p q) : SameUnits q p :=
  ⟨h.budget.symm, h.grants.symm, h.wait.symm, fun m => (h.views m).symm⟩

/-! ### The flags brought up to date -/

/-- A line whose resting flag has been brought up to date (R143). -/
def KeyLine.rested (l : KeyLine) (t : Settings) : KeyLine :=
  { l with resting := if t.heatHard ≤ l.heat then true else if l.heat < t.heatSoft then false else l.resting }

theorem updateResting_key (k j : KeyNo) (p : Part) :
    (updateResting k p).key j = if k = j then (p.key k).rested p.settings else p.key j := by
  unfold updateResting KeyLine.rested
  dsimp only
  split
  · split
    · next hr =>
      rw [key_setKey]
    · exact key_setKey _ _ _ _
  · split
    · exact key_setKey _ _ _ _
    · split
      · next e => rw [e]
      · rfl

theorem updateResting_own (k : KeyNo) (p : Part) : OwnLine k p (updateResting k p) := by
  unfold updateResting
  dsimp only
  split
  · split
    · exact .setKey k _ p
    · exact (OwnLine.setKey k _ p).trans (.notices _ _ (raiseLineResting_frame k _))
  · split
    · exact .setKey k _ p
    · exact .refl k p

theorem updateResting_grants (k : KeyNo) (p : Part) : (updateResting k p).arbiter = p.arbiter := by
  unfold updateResting
  dsimp only
  split
  · split <;> rfl
  · split <;> rfl

/-- The part with every resting flag brought up to date. -/
def restedLines (p : Part) : Part := allKeys.foldl (fun q k => updateResting k q) p

theorem restedLines_own (p : Part) :
    OwnLines allKeys (fun k => (p.key k).rested p.settings) (fun k => p.arbiter.grants[keyLineNo k]) p (restedLines p) := by
  have all := own_foldl (act := fun k q => updateResting k q) (line := id) (g := fun k => (p.key k).rested p.settings)
    (c := fun k => p.arbiter.grants[keyLineNo k]) allKeys (by rw [List.map_id]; exact allKeys_nodup) p
    (fun k _ q => updateResting_own k q) fun k _ q hq hkey hg => by
      simp only [id] at hkey hg ⊢
      refine ⟨by rw [updateResting_key, if_pos rfl, hkey, hq.settings], ?_⟩
      rw [updateResting_grants]
      exact hg
  rwa [List.map_id] at all

theorem restedLines_key (p : Part) (k : KeyNo) : (restedLines p).key k = (p.key k).rested p.settings :=
  ((restedLines_own p).acted k (List.mem_finRange k)).1

theorem OwnLines.same_grants {ks : List KeyNo} {g : KeyNo → KeyLine} {p q : Part}
    (h : OwnLines ks g (fun k => p.arbiter.grants[keyLineNo k]) p q) : q.arbiter.grants = p.arbiter.grants := by
  refine Vector.ext fun i hi => ?_
  by_cases hk : ∃ k ∈ ks, (⟨i, hi⟩ : LineNo) = keyLineNo k
  · obtain ⟨k, hk, e⟩ := hk
    have : i = (keyLineNo k).val := congrArg Fin.val e
    subst this
    exact (h.acted k hk).2
  · exact h.places ⟨i, hi⟩ fun k hm e => hk ⟨k, hm, e⟩

theorem restedLines_grants (p : Part) : (restedLines p).arbiter.grants = p.arbiter.grants :=
  (restedLines_own p).same_grants

/-- The flags are all that the budget may see of it. -/
theorem restedLines_awake (p : Part) : SameUnits p.awake (restedLines p).awake := by
  refine .of_eq ?_ ?_ ?_ (fun k => ?_) fun d => ?_
  · rw [awake_settings, awake_settings, (restedLines_own p).settings]
  · rw [awake_arbiter, awake_arbiter, restedLines_grants]
  · rw [awake_arbiter, awake_arbiter, (restedLines_own p).wait]
  · rw [awake_key, awake_key, restedLines_key]
    rfl
  · rw [awake_pedal, awake_pedal, (restedLines_own p).pedals]

/-! ### The entries of the lines that rest -/

theorem removeRestingEntry_of_rests {e : WaitEntry} {plan : Plan} (hr : e.request = .strike plan)
    (rests : (p.key plan.line).resting = true) :
    removeRestingEntry e p = endPlan (plan.withShort e.short) .resting (wholeMs e.entered p.now)
      (unqueueKey plan.line (p.dropEntry e.line)) := by
  simp only [removeRestingEntry, hr, rests, if_true]

/-- The entries up to here have been looked at: those still in the list are of lines that do not rest. -/
def NoneRests (p : Part) (seen : List WaitEntry) : Prop :=
  ∀ e ∈ seen, ∀ plan, e.request = .strike plan → (p.key plan.line).resting = false

theorem awake_dropEntry (p : Part) (m : LineNo) : (p.dropEntry m).awake = p.awake.dropEntry m := rfl

/-- An entry that leaves is unqueued, as the budget sees it. -/
theorem unqueue_awake (k : KeyNo) (plan : Plan) (o : StrikeOutcome) (waited : Nat) (p : Part) :
    SameUnits (unqueueKey k p.awake) (endPlan plan o waited (unqueueKey k p)).awake := by
  rw [endPlan_eq_filed]
  obtain ⟨hd, hp, hs, -, hg, hw⟩ := filed_keeps plan o waited (unqueueKey k p)
  refine .of_eq ?_ hg hw (fun j => ?_) fun d => ?_
  · exact congrArg Settings.budgetUnits hs
  · have key : ((unqueueKey k p).filed plan o waited).key j = (unqueueKey k p).key j := by rw [Part.key, hd, Part.key]
    rw [awake_key, key, unqueueKey, unqueueKey, key_setKey, key_setKey, awake_key, awake_key]
    split <;> rfl
  · have pedal : ((unqueueKey k p).filed plan o waited).pedal d = (unqueueKey k p).pedal d := by
      cases d <;> simp only [Part.pedal, hp]
    rw [awake_pedal, pedal]
    cases d <;> rfl

theorem removeRestingEntry_resting (e : WaitEntry) (p : Part) (k : KeyNo) :
    ((removeRestingEntry e p).key k).resting = (p.key k).resting := by
  unfold removeRestingEntry
  split
  · split
    · rw [endPlan_eq_filed, Part.key, (filed_keeps _ _ _ _).1]
      refine (congrArg KeyLine.resting (key_setKey _ _ k _)).trans ?_
      split
      · next e => rw [← e]; rfl
      · rfl
    · rfl
  · rfl

/-- The entries of the lines that rest leave, one after the other in the order of the list. -/
theorem removeResting_but (rest seen : List WaitEntry) (p : Part) (hw : p.arbiter.wait = seen ++ rest)
    (h : BudgetBut dr noLine p.awake) (none : NoneRests p seen) :
    BudgetBut dr noLine (rest.foldl (fun q e => removeRestingEntry e q) p).awake
      ∧ NoneRests (rest.foldl (fun q e => removeRestingEntry e q) p)
          (rest.foldl (fun q e => removeRestingEntry e q) p).arbiter.wait := by
  induction rest generalizing seen p with
  | nil =>
    refine ⟨h, ?_⟩
    rw [List.append_nil] at hw
    rw [List.foldl_nil, hw]
    exact none
  | cons e rest ih =>
    rw [List.foldl_cons]
    have mem : e ∈ p.awake.arbiter.wait := by
      rw [show p.awake.arbiter.wait = p.arbiter.wait from rfl, hw]
      simp
    have keeps : NoneRests (removeRestingEntry e p) seen := fun x hx plan hr => by
      rw [removeRestingEntry_resting]
      exact none x hx plan hr
    by_cases rests : ∃ plan, e.request = .strike plan ∧ (p.key plan.line).resting = true
    · obtain ⟨plan, hr, rests⟩ := rests
      have eq := removeRestingEntry_of_rests hr rests
      have left : (removeRestingEntry e p).arbiter.wait = seen ++ rest := by
        rw [eq, endPlan_eq_filed, (filed_keeps _ _ _ _).2.2.2.2.2]
        have nodup := h.list.2.1
        rw [show p.awake.arbiter.wait = p.arbiter.wait from rfl, hw, List.map_append, List.nodup_append] at nodup
        refine (congrArg (List.eraseP fun x => x.line == e.line) hw).trans ?_
        rw [List.eraseP_append_right]
        · rw [List.eraseP_cons_of_pos (by simp)]
        · intro x hx c
          exact nodup.2.2 _ (List.mem_map_of_mem hx) e.line (by simp) (by simpa using c)
      refine ih seen _ left ?_ keeps
      have unqueued := h.unqueue mem hr
      rw [← awake_dropEntry] at unqueued
      rw [eq]
      exact (unqueue_awake _ _ _ _ _).budgetBut unqueued
    · have same : removeRestingEntry e p = p := by
        unfold removeRestingEntry
        split
        · next plan hr =>
          split
          · next c => exact absurd ⟨plan, hr, c⟩ rests
          · rfl
        · rfl
      rw [same] at keeps ⊢
      refine ih (seen ++ [e]) p (by simp [hw]) h fun x hx plan hr => ?_
      rcases List.mem_append.1 hx with hx | hx
      · exact none x hx plan hr
      · rw [List.mem_singleton.1 hx] at hr
        by_contra c
        exact rests ⟨plan, hr, by simpa using c⟩

/-- The part from which the entries of resting lines have been taken. -/
def restingRemoved (p : Part) : Part := p.arbiter.wait.foldl (fun q e => removeRestingEntry e q) p

/-- Once they have, the budget is kept: no QUEUED line rests. -/
theorem restingRemoved_but (h : BudgetBut dr noLine p.awake) : BudgetBut dr noLine (restingRemoved p) := by
  obtain ⟨but, none⟩ := removeResting_but p.arbiter.wait [] p rfl h fun _ he => absurd he List.not_mem_nil
  refine (awake_same (p := restingRemoved p) fun k hq => ?_).symm.budgetBut but
  have entry : (restingRemoved p).awake.hasEntry (keyLineNo k) := by
    refine (but.key (k := k) id).1.2.1.1 ?_
    rw [awake_key]
    exact hq
  obtain ⟨e, he, hl⟩ := entry
  obtain ⟨plan, hr, rfl, -⟩ := (but.list.2.2.2 e he).strike_of_key hl
  exact none e he plan hr

theorem updateAllResting_eq (p : Part) :
    updateAllResting p = resumeLines (grantingPass (restingRemoved (restedLines p))) := by
  simp only [updateAllResting, restingRemoved, restedLines]

theorem restedRemoved_but (h : Good dr p) : BudgetBut dr noLine (restingRemoved (restedLines p)) :=
  restingRemoved_but ((restedLines_awake p).budgetBut ((awake_same fun k hq => (h.key k).1.2.2.2.2.2.2 hq).budgetBut h.but))

/-- A threshold write keeps the budget (R143). -/
theorem updateAllResting_good (h : Good dr p) : Good dr (updateAllResting p) := by
  rw [updateAllResting_eq]
  exact resumeLines_good (grantingPass_good (restedRemoved_but h))

end

end Sys2Proof.Machine
end

section
/-! PROOFS. A step is an act of one command on the part: what every act keeps, every step keeps. -/

namespace Sys2Proof.Machine

/-- What a relation `R` between the part before and the part after must hold of, to hold of every step from a part of
which `C` holds: the acts of the commands, one field for each. -/
structure KeptByActs (C : Part → Prop) (R : Part → Part → Prop) : Prop where
  refl : ∀ p, C p → R p p
  finished : ∀ f p q, R p q → R p (finishRequest f q)
  time : ∀ p, C p → R p (passTime p)
  byte : ∀ b p, C p → R p (acceptByte b p)
  gap : ∀ p, C p → R p (expireGap p)
  silence : ∀ p, C p → R p (expireSilence p)
  send : ∀ p, C p → R p (sendNext p)
  place : ∀ p, C p → R p (placeNotice p)
  notices : ∀ payload p, C p → R p (takeNoticeNames payload p).2
  history : ∀ payload p, C p → R p (takeHistory payload p).2
  load : ∀ payload p, C p → R p (loadRoll payload p).2
  feed : ∀ payload p, C p → R p (feedRows payload p).2
  run : ∀ p, C p → R p (runRequest p).2
  pause : ∀ p, C p → R p (pauseRequest p).2
  stop : ∀ p, C p → R p (stopRequest p).2
  tempo : ∀ payload p, C p → R p (setTempo payload p).2
  write : ∀ item index value p, C p → R p (writeItem item index value p).2
  arm : ∀ p, C p → R p (armAllCues p)
  save : ∀ p, C p → R p { p with saving := some p.settings }
  saved : ∀ good p, C p → R p (endSave good p)
  recalled : ∀ p, C p → R p (recallSettings p).2
  strike : ∀ payload p, C p → R p (strikeKey payload p).2
  play : ∀ payload p, C p → R p (playPattern payload p).2
  cancel : ∀ p, C p → R p (cancelPlayer p)
  restore : ∀ payload p, C p → R p (restoreLine payload p).2
  soft : ∀ f p, C p → R p (softReset (finishRequest f p))
  held : ∀ p, C p → R p { cutSave p with power := .held }
  off : ∀ p, C p → R p { cutSave p with power := .off }
  pin : ∀ rate1 rate0 p, C p → R p (pinResetPart rate1 rate0 p)
  feedTick : ∀ p, C p → R p (feedTick p)
  starve : ∀ p, C p → R p (starveExpires p)
  expression : ∀ p, C p → R p (expressionTick p)
  heat : ∀ p, C p → R p (heatTick p)
  chain : ∀ bits p, C p → R p (readChain bits p)
  kick : ∀ k p, C p → R p (kickRunsOut k p)
  gain : ∀ k p, C p → R p (holdGains k p)
  hold : ∀ k p, C p → R p (holdEnds k p)
  guard : ∀ k p, C p → R p (guardEnds k p)
  deadline : ∀ m p, C p → R p (lineDeadline m p)
  lift : ∀ d p, C p → R p (liftEnds d p)
  settle : ∀ d p, C p → R p (settleEnds d p)
  pattern : ∀ p, C p → R p (takePatternStep p)
  patternEnd : ∀ p, C p → R p (endPattern p)

namespace KeptByActs

variable {C : Part → Prop} {R : Part → Part → Prop} (h : KeptByActs C R) {s t : State} (start : C s.part)
include h start

/-- A command of a running part. -/
theorem ofWhileOn {act : Part → Part} (keep : ∀ p, C p → R p (act p)) (run : whileOn act s = .next t) :
    R s.part t.part := by
  unfold whileOn at run
  cases run
  split
  · exact keep s.part start
  · exact h.refl s.part start

theorem ofKeyLine {line : Nat} {act : KeyNo → Part → Part} (keep : ∀ k p, C p → R p (act k p))
    (run : onKeyLine line act s = .next t) : R s.part t.part := by
  unfold onKeyLine at run
  split at run
  · exact h.ofWhileOn start (keep _) run
  · cases run

theorem ofLine {line : Nat} {act : LineNo → Part → Part} (keep : ∀ m p, C p → R p (act m p))
    (run : onLine line act s = .next t) : R s.part t.part := by
  unfold onLine at run
  split at run
  · exact h.ofWhileOn start (keep _) run
  · cases run

/-- A command that takes a request. -/
theorem ofRequest {row : Instr} {take : Frame → Part → Part} (keep : ∀ f p, C p → R p (take f p))
    (run : takeRequest row take s = .next t) : R s.part t.part := by
  refine h.ofWhileOn start (fun p hp => ?_) run
  split
  · exact keep _ p hp
  · exact h.refl p hp

/-- A command that takes a request and answers it. -/
theorem ofAnswer {row : Instr} {act : List Byte → Part → List Byte × Part}
    (keep : ∀ payload p, C p → R p (act payload p).2) (run : takeRequest row (answer act) s = .next t) :
    R s.part t.part :=
  h.ofRequest start (fun _ p hp => h.finished _ _ _ (keep _ p hp)) run

theorem ofFixed {n : Nat} {row : Instr} {act : List Byte → Part → List Byte × Part}
    (keep : ∀ payload p, C p → R p (act payload p).2) (run : takeRequest row (answer (fixedLength n act)) s = .next t) :
    R s.part t.part := by
  refine h.ofAnswer start (fun payload p hp => ?_) run
  unfold fixedLength
  split
  · exact keep payload p hp
  · exact h.refl p hp

/-- A write by an item's own command. -/
theorem ofWrite {row : Instr} {item : Item} {write : Nat → List Byte → Part → Written}
    (own : ∀ index value p, write index value p = writeItem item index value p)
    (run : takeRequest row (answer (itemWrite item write)) s = .next t) : R s.part t.part := by
  refine h.ofAnswer start (fun payload p hp => ?_) run
  unfold itemWrite Written.alone
  split
  · rw [own]
    exact h.write _ _ _ p hp
  · exact h.refl p hp

omit start

/-- A WRITE SETTING. -/
theorem writeSetting (payload : List Byte) (p : Part) (hp : C p) : R p (writeSettingItem payload p).2 := by
  unfold writeSettingItem
  split
  · exact h.refl p hp
  · split
    · exact h.refl p hp
    · split
      · exact h.write _ _ _ p hp
      · exact h.refl p hp

theorem beginSave (f : Frame) (p : Part) (hp : C p) : R p (beginSave f p) := by
  unfold Machine.beginSave
  split
  · exact h.finished _ p p (h.refl p hp)
  · split
    · exact h.finished _ p p (h.refl p hp)
    · exact h.save p hp

theorem resetPart (f : Frame) (p : Part) (hp : C p) : R p (resetPart f p) := by
  unfold Machine.resetPart
  split
  · exact h.finished _ p p (h.refl p hp)
  · exact h.soft _ p hp

theorem cancelPattern (payload : List Byte) (p : Part) (hp : C p) : R p (cancelPattern payload p).2 := by
  unfold Machine.cancelPattern
  split
  · exact h.refl p hp
  · exact h.cancel p hp

include start

/-- What a command makes of the part. -/
theorem ofExec {c : Instr} (run : exec c s = .next t) : R s.part t.part := by
  cases c with
  | receiveByte byte stop =>
    refine h.ofWhileOn start (act := fun p => if stop then acceptByte byte p else p) (fun p hp => ?_) run
    split
    · exact h.byte byte p hp
    · exact h.refl p hp
  | gapTimerExpiry => exact h.ofWhileOn start h.gap run
  | hostSilenceExpiry => exact h.ofWhileOn start h.silence run
  | sendFrame =>
    refine h.ofWhileOn start (act := fun p => if p.lineFree then sendNext p else p) (fun p hp => ?_) run
    split
    · exact h.send p hp
    · exact h.refl p hp
  | noticeFramePlace => exact h.ofWhileOn start h.place run
  | unknownKind => exact h.ofRequest start (fun _ p hp => h.finished _ p p (h.refl p hp)) run
  | identify => exact h.ofFixed start (fun _ p hp => h.refl p hp) run
  | readStatus => exact h.ofFixed start (fun _ p hp => h.refl p hp) run
  | takeNotices => exact h.ofAnswer start h.notices run
  | readHistory => exact h.ofAnswer start h.history run
  | loadRoll => exact h.ofAnswer start h.load run
  | feedRows => exact h.ofAnswer start h.feed run
  | run => exact h.ofFixed start (fun _ => h.run) run
  | pause => exact h.ofFixed start (fun _ => h.pause) run
  | stop => exact h.ofFixed start (fun _ => h.stop) run
  | setTempo => exact h.ofFixed start h.tempo run
  | writeSetting => exact h.ofAnswer start h.writeSetting run
  | writeRingLow | writeTrackMap | writeOnRows | writeOffRows | writeCueSlot | writeRailMode | writeRepeatGuard
  | writePwmBase | writeHeatSoft | writeHeatHard | writeDamperHoldFull | writeDamperHoldPart | writeRailHold
  | writePedalLead | writeNoticeMask | writeLineFaultMask | writeLineRestingMask =>
    exact h.ofWrite start (fun _ _ _ => rfl) run
  | readSetting => exact h.ofAnswer start (fun _ p hp => h.refl p hp) run
  | armCues => exact h.ofFixed start (fun _ => h.arm) run
  | saveSettings => exact h.ofRequest start h.beginSave run
  | saveSettingsDone good => exact h.ofWhileOn start (h.saved good) run
  | recallSettings => exact h.ofFixed start (fun _ => h.recalled) run
  | strikeKey => exact h.ofAnswer start h.strike run
  | playPattern => exact h.ofAnswer start h.play run
  | cancelPattern => exact h.ofAnswer start h.cancelPattern run
  | restoreLine => exact h.ofAnswer start h.restore run
  | resetPart => exact h.ofRequest start h.resetPart run
  | resetAsserted => exact h.ofWhileOn start h.held run
  | pinReset rate1 rate0 =>
    cases run
    exact h.pin rate1 rate0 s.part start
  | feedTick => exact h.ofWhileOn start h.feedTick run
  | starveHoldExpiry => exact h.ofWhileOn start h.starve run
  | expressionTick => exact h.ofWhileOn start h.expression run
  | heatTick => exact h.ofWhileOn start h.heat run
  | statusChainRead bits => exact h.ofWhileOn start (h.chain bits) run
  | kickEnd line => exact h.ofKeyLine start h.kick run
  | holdHeatGain line => exact h.ofKeyLine start h.gain run
  | holdDeadline line => exact h.ofKeyLine start h.hold run
  | guardEnd line => exact h.ofKeyLine start h.guard run
  | waitDeadline line => exact h.ofLine start h.deadline run
  | pedalKickEnd d => exact h.ofWhileOn start (h.lift d) run
  | settleEnd d => exact h.ofWhileOn start (h.settle d) run
  | patternStep => exact h.ofWhileOn start h.pattern run
  | patternEnd => exact h.ofWhileOn start h.patternEnd run
  | powerFail =>
    cases run
    exact h.off s.part start

/-- Every step keeps what every act keeps. -/
theorem ofStep (run : step s = .next t) : R s.part t.part := by
  unfold step at run
  split at run
  · next c rest _ => exact h.ofExec (s := { s with pending := rest }) start run
  · unfold idleStep at run
    split at run
    · exact h.ofExec start run
    · cases run
      exact h.time s.part start

end KeptByActs

end Sys2Proof.Machine
end

section
/-! PROOFS. What the updates of the blocks and the acts on lines keep, the roll's operations keep: the transport, the take of a
row, the cues and the requests are made of them. -/

namespace Sys2Proof.Machine

/-- What a relation must hold of on the operations on lines that the roll asks for, and on the updates of the blocks beside
the paper: a new level leaves the shades, a pedal's inputs leave its line and the lead decoder. -/
structure KeptByPlay (R : Part → Part → Prop) : Prop where
  refl : ∀ p, R p p
  trans : ∀ {p q r}, R p q → R q r → R p r
  choices : ∀ n p, R p { p with choices := n }
  setLevels : ∀ x p, (∀ y, (x.halves.get y).shade = (p.expression.halves.get y).shade) → R p { p with expression := x }
  setInputs : ∀ (f : PedalUnit → PedalUnit) p, (f p.pedals).damper = p.pedals.damper →
    (f p.pedals).bassRail = p.pedals.bassRail → (f p.pedals).trebleRail = p.pedals.trebleRail →
      (f p.pedals).lead = p.pedals.lead → R p { p with pedals := f p.pedals }
  updateNotices : ∀ f p, R p (updateNotices f p)
  setTracks : ∀ x p, R p { p with tracks := x }
  setCues : ∀ x p, R p { p with cues := x }
  setPlayer : ∀ x p, R p { p with player := x }
  reported : ∀ x p, R p { p with drives := { p.drives with reported := x } }
  lift : ∀ d depth p, R p (liftPedal d depth p)
  drop : ∀ d p, R p (dropPedal d p)
  onset : ∀ o p, R p (takeOnset o p)
  noteOff : ∀ k p, R p (noteOff k p)
  release : ∀ restore p, R p (releaseKeyLines restore p)
  holds : ∀ p, R p (releaseHolds p)
  report : ∀ m kind p, R p (reportFault m kind p)
  clearFault : ∀ d p, R p (clearPedalFault d p)
  restoreKey : ∀ k p, (p.key k).state = .faulted → R p (restoreKey k p)

/-- What a relation must hold of on the updates of the roll's blocks too. -/
structure KeptByRoll (R : Part → Part → Prop) : Prop extends KeptByPlay R where
  setExpression : ∀ x p, R p { p with expression := x }
  setPedalInputs : ∀ (f : PedalUnit → PedalUnit) p, (f p.pedals).damper = p.pedals.damper →
    (f p.pedals).bassRail = p.pedals.bassRail → (f p.pedals).trebleRail = p.pedals.trebleRail →
      R p { p with pedals := f p.pedals }
  setFeed : ∀ f p, R p (p.setFeed f)
  setRing : ∀ ring p, R p { p with ring := ring }
  setLead : ∀ l p, R p (p.setLead l)

namespace KeptByPlay

variable {R : Part → Part → Prop} (h : KeptByPlay R)
include h

/-! ### Orders -/

theorem foldl {α : Type} {act : Part → α → Part} (step : ∀ q a, R q (act q a)) (as : List α) (p : Part) :
    R p (as.foldl act p) := by
  induction as generalizing p with
  | nil => exact h.refl p
  | cons a as ih => exact h.trans (step p a) (ih (act p a))

theorem inAnyOrder {α : Type} {act : α → Part → Part} (step : ∀ a q, R q (act a q)) (as : List α) (p : Part) :
    R p (inAnyOrder as act p) :=
  inAnyOrder_keeps (P := R p) (h.choices _ p) fun a _ q hq => h.trans hq (step a q)

/-! ### Pedals -/

theorem moveRail (d : Pedal) (up : Bool) (p : Part) : R p (moveRail d up p) := by
  unfold Machine.moveRail
  split
  · exact h.lift d _ p
  · exact h.drop d p

/-- A half whose shade stays. -/
theorem setHalf (x : Half) (y : HalfExpression) (p : Part) (same : y.shade = (p.expression.halves.get x).shade) :
    R p (p.setHalf x y) := by
  refine h.setLevels _ p fun z => ?_
  cases x <;> cases z
  case bass.bass => exact same
  case treble.treble => exact same
  all_goals rfl

theorem setAutoUp (x : Half) (up : Bool) (p : Part) : R p (p.setAutoUp x up) := h.setHalf x _ p rfl

theorem demandDamper (p : Part) : R p (demandDamper p) := by
  unfold Machine.demandDamper
  split
  · exact h.lift _ _ p
  · exact h.drop _ p

theorem railStage (x : Half) (p : Part) : R p (railStage x p) := by
  unfold Machine.railStage
  dsimp only
  split
  · exact h.trans (h.setAutoUp _ _ p) (h.moveRail _ _ _)
  · split
    · exact h.trans (h.setAutoUp _ _ p) (h.moveRail _ _ _)
    · exact h.refl p

theorem autoRailStage (x : Half) (p : Part) : R p (autoRailStage x p) := by
  unfold Machine.autoRailStage
  split
  · exact h.railStage x p
  · exact h.refl p

theorem resyncRail (x : Half) (p : Part) : R p (resyncRail x p) := by
  unfold Machine.resyncRail
  split
  · exact h.trans (h.setAutoUp _ _ p) (h.moveRail _ _ _)
  · exact h.moveRail _ _ p
  · exact h.moveRail _ _ p
  · exact h.moveRail _ _ p

theorem resyncPedal (d : Pedal) (p : Part) : R p (resyncPedal d p) := by
  unfold Machine.resyncPedal
  split
  · exact h.refl p
  · split
    · exact h.demandDamper p
    · exact h.resyncRail _ p
    · exact h.resyncRail _ p

theorem resyncPedals (p : Part) : R p (resyncPedals p) :=
  h.trans (h.trans (h.resyncPedal _ p) (h.resyncPedal _ _)) (h.resyncPedal _ _)

theorem followSoft (x : Half) (p : Part) : R p (followSoft x p) := by
  unfold Machine.followSoft
  split
  · exact h.moveRail _ _ p
  · exact h.refl p

theorem takeLiftLevel (level : Bool) (p : Part) : R p (takeLiftLevel level p) := by
  unfold Machine.takeLiftLevel
  exact h.trans (h.setInputs (fun u => { u with liftLevel := level }) p rfl rfl rfl rfl) (h.demandDamper _)

theorem takeFeatherLevel (level : Bool) (p : Part) : R p (takeFeatherLevel level p) := by
  unfold Machine.takeFeatherLevel
  exact h.trans (h.setInputs (fun u => { u with featherLevel := level }) p rfl rfl rfl rfl) (h.demandDamper _)

theorem takeSoftLevel (level : Bool) (p : Part) : R p (takeSoftLevel level p) := by
  unfold Machine.takeSoftLevel
  refine h.trans ?_ (h.followSoft .treble _)
  exact h.trans (h.setInputs (fun u => { u with softLevel := level }) p rfl rfl rfl rfl) (h.followSoft .bass _)

theorem handRailMode (x : Half) (p : Part) : R p (handRailMode x p) := by
  unfold Machine.handRailMode
  split
  · split
    · exact h.railStage x p
    · exact h.trans (h.setAutoUp _ _ p) (h.drop _ _)
  · exact h.moveRail _ _ p
  · exact h.moveRail _ _ p
  · exact h.moveRail _ _ p

theorem dropPlayedRail (x : Half) (p : Part) : R p (dropPlayedRail x p) := by
  unfold Machine.dropPlayedRail
  split
  · exact h.drop _ p
  · exact h.drop _ p
  · exact h.refl p
  · exact h.refl p

theorem dropPlayedPedals (p : Part) : R p (dropPlayedPedals p) :=
  h.trans (h.trans (h.drop _ p) (h.dropPlayedRail _ _)) (h.dropPlayedRail _ _)

theorem dropAllPedals (p : Part) : R p (dropAllPedals p) :=
  h.trans (h.trans (h.drop _ p) (h.drop _ _)) (h.drop _ _)

theorem restoreAllPedals (p : Part) : R p (restoreAllPedals p) :=
  h.trans (h.trans (h.clearFault _ p) (h.clearFault _ _)) (h.clearFault _ _)

theorem restorePedal (d : Pedal) (p : Part) : R p (restorePedal d p) := by
  unfold Machine.restorePedal
  dsimp only
  split
  · exact h.trans (h.clearFault d p) (h.resyncPedal d _)
  · exact h.clearFault d p

/-! ### Notices, tracks and levels -/

theorem raise (src : NoticeSource) (p : Part) : R p (raise src p) := h.updateNotices _ p

theorem cancelPlayer (p : Part) : R p (cancelPlayer p) := h.setPlayer none p

theorem closeTracks (p : Part) : R p (closeTracks p) := h.setTracks _ p

theorem levelRefresh (p : Part) : R p (levelRefresh p) := by
  unfold Machine.levelRefresh
  refine h.trans (h.setLevels (Machine.levelRefresh p).expression p fun y => ?_) ?_
  · cases y <;> rfl
  · exact h.setInputs (fun u => { u with
      liftLevel := targetLevel p.settings p.tracks.states .damperLift .bass
      featherLevel := targetLevel p.settings p.tracks.states .damperFeather .bass
      softLevel := targetLevel p.settings p.tracks.states .soft .bass }) _ rfl rfl rfl rfl

/-! ### The transport and the take of a row -/

theorem releasePlay (p : Part) : R p (releasePlay p) := h.trans (h.release _ p) (h.dropPlayedPedals _)

theorem setRole (f : TrackFunction) (x : Half) (level : Bool) (p : Part) : R p (takeRoleLevel f x level p) :=
  h.setHalf _ _ p rfl

theorem handEvent (t : TrackNo) (event : TrackEvent) (p : Part) : R p (handEvent t event p) := by
  unfold Machine.handEvent
  dsimp only
  split
  · exact h.refl p
  · split
    · exact h.refl p
    · exact h.onset _ p
    · exact h.takeLiftLevel _ p
    · exact h.takeFeatherLevel _ p
    · exact h.takeSoftLevel _ p
    all_goals exact h.setRole _ _ _ p
  · split
    · exact h.refl p
    · exact h.noteOff _ p
    · exact h.takeLiftLevel _ p
    · exact h.takeFeatherLevel _ p
    · exact h.takeSoftLevel _ p
    all_goals exact h.setRole _ _ _ p

theorem handOut (events : Vector TrackEvent 112) (p : Part) : R p (handOut events p) :=
  h.foldl (act := fun q t => Machine.handEvent t events[t] q) (fun q t => h.handEvent t events[t] q) allTracks p

/-! ### Requests -/

theorem strikeKey (payload : List Byte) (p : Part) : R p (strikeKey payload p).2 := by
  unfold Machine.strikeKey
  dsimp only
  split
  · exact h.refl p
  · split
    · exact h.refl p
    · split
      · split
        · exact h.onset _ p
        · exact h.refl p
      · exact h.refl p

theorem takePatternStep (p : Part) : R p (takePatternStep p) := by
  unfold Machine.takePatternStep takePatternOnset
  split
  · exact h.refl p
  · split
    · exact h.refl p
    · split
      · exact h.trans (h.onset _ p) (h.setPlayer _ _)
      · exact h.setPlayer _ p

theorem playPattern (payload : List Byte) (p : Part) : R p (playPattern payload p).2 := by
  unfold Machine.playPattern
  dsimp only
  split
  · exact h.refl p
  · split
    · exact h.refl p
    · split
      · split
        · dsimp only
          refine h.trans ?_ (h.takePatternStep _)
          exact h.trans (h.cancelPlayer p) (h.setPlayer _ _)
        · exact h.refl p
      · exact h.refl p

theorem endPattern (p : Part) : R p (endPattern p) := by
  unfold Machine.endPattern
  split
  · split
    · exact h.cancelPlayer p
    · exact h.refl p
  · exact h.refl p

theorem restoreLine (payload : List Byte) (p : Part) : R p (restoreLine payload p).2 := by
  unfold Machine.restoreLine
  split
  · exact h.refl p
  · split
    · exact h.refl p
    · next line _ =>
      split
      · next faulted =>
        split
        · unfold restoreNow
          unfold Part.lineFaulted at faulted
          split
          · next k hl =>
            rw [hl] at faulted
            exact h.restoreKey k p (by simpa using faulted)
          · exact h.restorePedal _ p
        · exact h.refl p
      · exact h.refl p

theorem readChain (bits : BitVec 182) (p : Part) : R p (readChain bits p) :=
  h.trans (h.reported _ p) (h.inAnyOrder (fun m q => h.report m _ q) _ _)

theorem disarmCues (p : Part) : R p (disarmCues p) := by
  unfold Machine.disarmCues
  dsimp only
  split
  · exact h.trans (h.setCues _ p) (h.raise _ _)
  · exact h.setCues _ p

end KeptByPlay

namespace KeptByRoll

variable {R : Part → Part → Prop} (h : KeptByRoll R)
include h

/-! ### The transport -/

theorem resetLead (p : Part) : R p (resetLead p) := h.setLead _ p

theorem pauseTransport (p : Part) : R p (pauseTransport p) := h.trans (h.setFeed _ p) (h.releasePlay _)

theorem endRoll (p : Part) : R p (endRoll p) := by
  unfold Machine.endRoll
  split
  · exact h.trans (h.trans (h.setFeed _ p) (h.releasePlay _)) (h.raise _ _)
  · exact h.trans (h.trans (h.setFeed _ p) (h.releasePlay _)) (h.raise _ _)
  all_goals exact h.refl p

theorem expireStarve (p : Part) : R p (expireStarve p) :=
  h.trans (h.trans (h.setFeed _ p) (h.holds _)) (h.drop _ _)

theorem enterStarve (p : Part) : R p (enterStarve p) := by
  unfold Machine.enterStarve
  dsimp only
  have starved := h.trans (h.setFeed { p.feed with
      transport := .starved
      fraction := 0
      starve := some { started := p.now, hold := p.settings.starveHold } } p) (h.raise .starved _)
  split
  · exact h.trans starved (h.expireStarve _)
  · exact starved

theorem reportTake (row : Nat) (p : Part) : R p (reportTake row p) := by
  unfold Machine.reportTake
  dsimp only
  split
  · exact h.trans (h.setFeed _ p) (h.endRoll _)
  · exact h.setFeed _ p

theorem takeCueAction (a : FiredAction) (p : Part) : R p (takeCueAction a p) := by
  unfold Machine.takeCueAction
  split
  · exact h.refl p
  · split
    · exact h.pauseTransport p
    · exact h.refl p
  · exact h.endRoll p
  · exact h.setFeed _ p
  · exact h.setFeed _ p

/-! ### The take of a row -/

theorem matchCues (levels : TrackSet) (p : Part) : R p (matchCues levels p) := by
  unfold Machine.matchCues
  dsimp only
  split
  · refine h.trans (h.trans (h.setCues (moveCues levels p).cues p) ?_)
      (h.inAnyOrder h.takeCueAction _ _)
    exact h.foldl (fun q i => h.updateNotices _ q) _ _
  · exact h.refl p

theorem examineRow (row : StoredRow) (p : Part) : R p (examineRow row p) := by
  unfold Machine.examineRow leadOnset
  dsimp only
  split
  · split
    · exact h.trans (h.setLead _ p) (h.lift _ _ _)
    · exact h.setLead _ p
  · exact h.setLead _ p

theorem examineFrom (last : Nat) (rows : List StoredRow) (p : Part) : R p (examineFrom last rows p) := by
  induction rows generalizing p with
  | nil => exact h.refl p
  | cons row rest ih =>
    rw [Machine.examineFrom]
    split
    · exact ih p
    · split
      · exact h.trans (h.examineRow row p) (ih _)
      · exact h.refl p

theorem examineAhead (p : Part) : R p (examineAhead p) := by
  unfold Machine.examineAhead
  split
  · exact h.refl p
  · exact h.examineFrom _ _ p

theorem decodeRow (row : StoredRow) (p : Part) : R p (decodeRow row p) := by
  unfold Machine.decodeRow
  dsimp only
  refine h.trans ?_ (h.reportTake _ _)
  refine h.trans ?_ (h.matchCues _ _)
  refine h.trans ?_ (h.handOut _ _)
  unfold updateTracks
  exact h.setTracks _ p

theorem takeRow (row : StoredRow) (p : Part) : R p (takeRow row p) := by
  have before : R p (examineBeforeTake row p) := by
    unfold examineBeforeTake
    split
    · exact h.examineRow row p
    · exact h.refl p
  have head : ∀ q, R q (takeHead q) := fun q => by
    unfold takeHead
    dsimp only
    split
    · exact h.trans (h.setRing _ q) (h.raise _ _)
    · exact h.setRing _ q
  have after : ∀ q, R q (examineAfterTake q) := fun q => by
    unfold examineAfterTake
    split
    · exact h.setLead _ q
    · exact h.examineAhead q
  unfold Machine.takeRow
  refine h.trans ?_ (after _)
  refine h.trans ?_ (h.decodeRow _ _)
  exact h.trans before (head _)

theorem rowDue (p : Part) : R p (rowDue p) := by
  unfold Machine.rowDue
  split
  · exact h.enterStarve p
  · exact h.takeRow _ p

theorem startRunning (p : Part) : R p (startRunning p) := by
  have running : R p (Machine.examineAhead (Machine.resyncPedals
      (Machine.cancelPlayer (p.setFeed { p.feed with transport := .running })))) := by
    refine h.trans ?_ (h.examineAhead _)
    refine h.trans ?_ (h.resyncPedals _)
    exact h.trans (h.setFeed _ p) (h.cancelPlayer _)
  unfold Machine.startRunning
  dsimp only
  split
  · exact running
  · exact h.trans running (h.rowDue _)

theorem resumeStarved (p : Part) : R p (resumeStarved p) := by
  unfold Machine.resumeStarved
  dsimp only
  have taken := h.trans (h.setFeed { p.feed with transport := .running, starve := none } p) (h.rowDue _)
  split
  · exact h.trans taken (h.resyncPedals _)
  · exact taken

theorem rowsArrive (p : Part) : R p (rowsArrive p) := by
  unfold Machine.rowsArrive
  split
  · exact h.trans (h.resumeStarved p) (h.examineAhead _)
  · split
    · exact h.examineAhead p
    · exact h.refl p

theorem feedTick (p : Part) : R p (feedTick p) := by
  unfold Machine.feedTick advanceFeed
  dsimp only
  split
  · split
    · exact h.trans (h.setFeed _ p) (h.setFeed _ _)
    · exact h.trans (h.trans (h.setFeed _ p) (h.setFeed _ _)) (h.rowDue _)
  · exact h.setFeed _ p

/-! ### Requests -/

theorem loadTransport (startRow endRow pitch tempo buildUp : Nat) (p : Part) :
    R p (loadTransport startRow endRow pitch tempo buildUp p) := by
  unfold Machine.loadTransport
  dsimp only
  refine h.trans ?_ (h.cancelPlayer _)
  refine h.trans ?_ (h.drop _ _)
  refine h.trans ?_ (h.release _ _)
  refine h.trans ?_ (h.levelRefresh _)
  refine h.trans ?_ (h.setExpression _ _)
  refine h.trans ?_ (h.setExpression _ _)
  refine h.trans ?_ (h.setCues _ _)
  refine h.trans ?_ (h.resetLead _)
  refine h.trans ?_ (h.closeTracks _)
  exact h.trans (h.setFeed _ p) (h.setRing _ _)

theorem loadRoll (payload : List Byte) (p : Part) : R p (loadRoll payload p).2 := by
  unfold Machine.loadRoll
  dsimp only
  split
  · exact h.refl p
  · split
    · exact h.refl p
    · split
      · exact h.refl p
      · exact h.loadTransport _ _ _ _ _ p

theorem feedRows (payload : List Byte) (p : Part) : R p (feedRows payload p).2 := by
  unfold Machine.feedRows storeBatch
  dsimp only
  split
  · exact h.refl p
  · split
    · exact h.refl p
    · split
      · exact h.refl p
      · split
        · exact h.refl p
        · split
          · exact h.refl p
          · split
            · exact h.refl p
            · exact h.trans (h.setRing _ p) (h.rowsArrive _)

theorem runRequest (p : Part) : R p (runRequest p).2 := by
  unfold Machine.runRequest
  split
  · exact h.startRunning p
  · exact h.startRunning p
  all_goals exact h.refl p

theorem pauseRequest (p : Part) : R p (pauseRequest p).2 := by
  unfold Machine.pauseRequest
  split <;> dsimp only
  · exact h.pauseTransport p
  · exact h.pauseTransport p
  all_goals exact h.refl p

theorem unloadRoll (p : Part) : R p (unloadRoll p) := by
  unfold Machine.unloadRoll
  refine h.trans ?_ (h.cancelPlayer _)
  refine h.trans ?_ (h.levelRefresh _)
  refine h.trans ?_ (h.setExpression _ _)
  refine h.trans ?_ (h.setCues _ _)
  refine h.trans ?_ (h.resetLead _)
  refine h.trans ?_ (h.closeTracks _)
  exact h.setRing _ p

theorem stopTransport (p : Part) : R p (stopTransport p) := by
  unfold Machine.stopTransport
  refine h.trans ?_ (h.unloadRoll _)
  refine h.trans ?_ (h.dropAllPedals _)
  exact h.trans (h.setFeed _ p) (h.release _ _)

theorem stopRequest (p : Part) : R p (stopRequest p).2 := by
  unfold Machine.stopRequest
  split
  · exact h.refl p
  all_goals exact h.stopTransport p

theorem setTempo (payload : List Byte) (p : Part) : R p (setTempo payload p).2 := by
  unfold Machine.setTempo
  dsimp only
  split
  · exact h.refl p
  · split
    · exact h.refl p
    · exact h.setFeed _ p

theorem softReset (p : Part) : R p (softReset p) := by
  unfold Machine.softReset
  dsimp only
  refine h.trans ?_ (h.raise _ _)
  refine h.trans ?_ (h.setCues _ _)
  refine h.trans ?_ (h.unloadRoll _)
  refine h.trans ?_ (h.setFeed _ _)
  refine h.trans ?_ (h.dropAllPedals _)
  exact h.trans (h.release true p) (h.restoreAllPedals _)

theorem expressionTick (p : Part) : R p (expressionTick p) := by
  unfold Machine.expressionTick expressionTicks
  dsimp only
  split
  · refine h.trans ?_ (h.autoRailStage .treble _)
    refine h.trans ?_ (h.autoRailStage .bass _)
    exact h.setExpression _ p
  · exact h.setExpression _ p

theorem starveExpires (p : Part) : R p (starveExpires p) := by
  unfold Machine.starveExpires
  split
  · exact h.expireStarve p
  · exact h.refl p

end KeptByRoll

end Sys2Proof.Machine
end

section
/-! PROOFS. What the updates of the settings keep besides, every write of an item keeps. -/

namespace Sys2Proof.Machine

/-- What a relation must hold of besides, to hold of the writes. -/
structure KeptByWrites (R : Part → Part → Prop) : Prop extends KeptByRoll R where
  withSettings : ∀ (f : Settings → Settings) p, (f p.settings).budgetUnits = p.settings.budgetUnits →
    (f p.settings).heatSoft = p.settings.heatSoft → (f p.settings).heatHard = p.settings.heatHard → R p (p.withSettings f)
  applyHold : ∀ d holding duty p, R p (applyHold d holding duty p)
  guards : ∀ p, R p (endElapsedGuards p)
  rebase : ∀ p, R p (rebaseDrives p)
  budget : ∀ v p, R p (writeBudgetUnitsValue v p).2
  soft : ∀ v p, R p (writeHeatSoftValue v p).2
  hard : ∀ v p, R p (writeHeatHardValue v p).2

namespace KeptByWrites

variable {R : Part → Part → Prop} (h : KeptByWrites R)
include h

/-! ### Settings -/

theorem writeChecked (ok : Bool) (f : Settings → Settings) (p : Part)
    (budget : (f p.settings).budgetUnits = p.settings.budgetUnits)
    (soft : (f p.settings).heatSoft = p.settings.heatSoft) (hard : (f p.settings).heatHard = p.settings.heatHard) :
    R p (writeChecked ok f p).2 := by
  unfold Machine.writeChecked
  split
  · exact h.withSettings f p budget soft hard
  · exact h.refl p

theorem writeAgainst (ok conflict : Bool) (f : Settings → Settings) (p : Part)
    (budget : (f p.settings).budgetUnits = p.settings.budgetUnits)
    (soft : (f p.settings).heatSoft = p.settings.heatSoft) (hard : (f p.settings).heatHard = p.settings.heatHard) :
    R p (writeAgainst ok conflict f p).2 := by
  unfold Machine.writeAgainst
  split
  · exact h.refl p
  · split
    · exact h.refl p
    · exact h.withSettings f p budget soft hard

theorem writeBudget (ok conflict : Bool) (f : Settings → Settings) (p : Part)
    (budget : (f p.settings).budgetUnits = p.settings.budgetUnits)
    (soft : (f p.settings).heatSoft = p.settings.heatSoft) (hard : (f p.settings).heatHard = p.settings.heatHard) :
    R p (writeBudget ok conflict f p).2 := by
  unfold Machine.writeBudget
  split
  · exact h.refl p
  · exact h.writeAgainst ok conflict f p budget soft hard

theorem writeRingLow (v : Nat) (p : Part) : R p (writeRingLowValue v p).2 := by
  unfold writeRingLowValue
  split
  · exact h.trans (h.withSettings (fun t => { t with ringLow := v }) p rfl rfl rfl) (h.setRing _ _)
  · exact h.refl p

theorem writeTrackMap (index : Nat) (value : List Byte) (p : Part) : R p (writeTrackMapValue index value p).2 := by
  unfold writeTrackMapValue
  split
  · exact h.refl p
  · split
    · split
      · exact h.refl p
      · unfold replaceEntry
        dsimp only
        refine h.trans ?_ (h.levelRefresh _)
        refine h.trans ?_ (h.resetLead _)
        refine h.trans ?_ (h.setTracks _ _)
        exact h.withSettings _ p rfl rfl rfl
    · exact h.refl p

theorem writeSplitKey (v : Nat) (p : Part) : R p (writeSplitKeyValue v p).2 := by
  unfold writeSplitKeyValue
  split
  · exact h.refl p
  · exact h.writeChecked _ _ p rfl rfl rfl

theorem mapDebounce (f : Debounce → Debounce) (p : Part) : R p (mapDebounce f p) := by
  unfold Machine.mapDebounce
  refine h.trans (h.setTracks (Machine.mapDebounce f p).tracks p) ?_
  exact h.setPedalInputs (fun u => { u with lead := { u.lead with lift := f u.lead.lift, feather := f u.lead.feather } }) _ rfl rfl rfl

theorem writeOnRows (v : Nat) (p : Part) : R p (writeOnRowsValue v p).2 := by
  unfold writeOnRowsValue
  split
  · exact h.refl p
  · split
    · exact h.trans (h.withSettings (fun t => { t with onRows := v }) p rfl rfl rfl) (h.mapDebounce _ _)
    · exact h.refl p

theorem writeOffRows (v : Nat) (p : Part) : R p (writeOffRowsValue v p).2 := by
  unfold writeOffRowsValue
  split
  · exact h.refl p
  · split
    · exact h.trans (h.withSettings (fun t => { t with offRows := v }) p rfl rfl rfl) (h.mapDebounce _ _)
    · exact h.refl p

theorem writeCueSlot (index : Nat) (value : List Byte) (p : Part) : R p (writeCueSlotValue index value p).2 := by
  unfold writeCueSlotValue
  split
  · next i c _ _ =>
    split
    · unfold replaceSlot
      dsimp only
      refine h.trans ?_ (h.disarmCues _)
      refine h.trans ?_ (h.setCues _ _)
      exact h.withSettings _ p rfl rfl rfl
    · exact h.refl p
  · exact h.refl p

theorem writeStepTable (index v : Nat) (p : Part) : R p (writeStepTableValue index v p).2 := by
  unfold writeStepTableValue
  split
  · exact h.writeAgainst _ _ _ p rfl rfl rfl
  · exact h.refl p

theorem writeRailMode (index v : Nat) (p : Part) : R p (writeRailModeValue index v p).2 := by
  unfold writeRailModeValue
  split
  · next x m _ _ =>
    exact h.trans (h.withSettings (fun t => { t with railMode := t.railMode.set x m }) p rfl rfl rfl) (h.handRailMode x _)
  · exact h.refl p

theorem writeRailScale (index v : Nat) (p : Part) : R p (writeRailScaleValue index v p).2 := by
  unfold writeRailScaleValue
  split
  · exact h.writeChecked _ _ p rfl rfl rfl
  · exact h.refl p

theorem writeVoicing (index : Nat) (value : List Byte) (p : Part) : R p (writeVoicingValue index value p).2 := by
  unfold writeVoicingValue
  split
  · next k v _ _ => exact h.withSettings (fun t => { t with voicing := t.voicing.set k v }) p rfl rfl rfl
  · exact h.refl p

theorem writeRepeatGuard (v : Nat) (p : Part) : R p (writeRepeatGuardValue v p).2 := by
  unfold writeRepeatGuardValue
  split
  · exact h.trans (h.withSettings (fun t => { t with repeatGuard := v }) p rfl rfl rfl) (h.guards _)
  · exact h.refl p

theorem writePwmBase (v : Nat) (p : Part) : R p (writePwmBaseValue v p).2 := by
  unfold writePwmBaseValue
  split
  · exact h.refl p
  · split
    · exact h.trans (h.withSettings (fun t => { t with pwmBase := v }) p rfl rfl rfl) (h.rebase _)
    · exact h.refl p

theorem applyRailHold (p : Part) : R p (applyRailHold p) :=
  h.trans (h.applyHold _ _ _ p) (h.applyHold _ _ _ _)

theorem writeDamperHoldFull (v : Nat) (p : Part) : R p (writeDamperHoldFullValue v p).2 := by
  unfold writeDamperHoldFullValue
  split
  · exact h.refl p
  · split
    · exact h.refl p
    · exact h.trans (h.withSettings (fun t => { t with damperHoldFull := v }) p rfl rfl rfl) (h.applyHold _ _ _ _)

theorem writeDamperHoldPart (v : Nat) (p : Part) : R p (writeDamperHoldPartValue v p).2 := by
  unfold writeDamperHoldPartValue
  split
  · exact h.refl p
  · split
    · exact h.refl p
    · exact h.trans (h.withSettings (fun t => { t with damperHoldPart := v }) p rfl rfl rfl) (h.applyHold _ _ _ _)

theorem writeRailHold (v : Nat) (p : Part) : R p (writeRailHoldValue v p).2 := by
  unfold writeRailHoldValue
  split
  · exact h.trans (h.withSettings (fun t => { t with railHold := v }) p rfl rfl rfl) (h.applyRailHold _)
  · exact h.refl p

theorem writePedalLead (v : Nat) (p : Part) : R p (writePedalLeadValue v p).2 := by
  unfold writePedalLeadValue
  split
  · exact h.refl p
  · split
    · exact h.trans (h.withSettings (fun t => { t with pedalLead := v }) p rfl rfl rfl) (h.resetLead _)
    · exact h.refl p

theorem writeNoticeMask (v : Nat) (p : Part) : R p (writeNoticeMaskValue v p).2 := by
  unfold writeNoticeMaskValue
  split
  · dsimp only
    exact h.updateNotices _ p
  · exact h.refl p

theorem writeLineFaultMask (index v : Nat) (p : Part) : R p (writeLineFaultMaskValue index v p).2 := by
  unfold writeLineFaultMaskValue
  split
  · dsimp only
    exact h.updateNotices _ p
  · exact h.refl p

theorem writeLineRestingMask (index v : Nat) (p : Part) : R p (writeLineRestingMaskValue index v p).2 := by
  unfold writeLineRestingMaskValue
  split
  · dsimp only
    exact h.updateNotices _ p
  · exact h.refl p

/-- A write of an item (R172). -/
theorem writeItem (item : Item) (index : Nat) (value : List Byte) (p : Part) : R p (writeItem item index value p).2 := by
  unfold Machine.writeItem
  cases item <;> dsimp only
  case ringLow => exact h.writeRingLow _ p
  case trackMap => exact h.writeTrackMap _ _ p
  case splitKey => exact h.writeSplitKey _ p
  case onRows => exact h.writeOnRows _ p
  case offRows => exact h.writeOffRows _ p
  case cueSlot => exact h.writeCueSlot _ _ p
  case stepTable => exact h.writeStepTable _ _ p
  case railOn | railOff => exact h.writeAgainst _ _ _ p rfl rfl rfl
  case railMode => exact h.writeRailMode _ _ p
  case railScale => exact h.writeRailScale _ _ p
  case voicing => exact h.writeVoicing _ _ p
  case budgetUnits => exact h.budget _ p
  case damperCost | railCost => exact h.writeBudget _ _ _ p rfl rfl rfl
  case repeatGuard => exact h.writeRepeatGuard _ p
  case pwmBase => exact h.writePwmBase _ p
  case heatSoft => exact h.soft _ p
  case heatHard => exact h.hard _ p
  case damperHoldFull => exact h.writeDamperHoldFull _ p
  case damperHoldPart => exact h.writeDamperHoldPart _ p
  case railHold => exact h.writeRailHold _ p
  case pedalLead => exact h.writePedalLead _ p
  case noticeMask => exact h.writeNoticeMask _ p
  case lineFaultMask => exact h.writeLineFaultMask _ _ p
  case lineRestingMask => exact h.writeLineRestingMask _ _ p
  all_goals exact h.writeChecked _ _ p rfl rfl rfl

end KeptByWrites

end Sys2Proof.Machine
end

section
/-! PROOFS. What the acts on lines keep, every act keeps: the transport, the take of a row, the cues, the settings and the
requests act on the lines through a few operations. -/

namespace Sys2Proof.Machine

/-- The arbiter, the key lines, the pedals' records, and the settings that bind them, are the same. -/
structure SameLines (p q : Part) : Prop where
  arbiter : q.arbiter = p.arbiter
  keys : ∀ k, q.key k = p.key k
  pedals : ∀ d, q.pedal d = p.pedal d
  budget : q.settings.budgetUnits = p.settings.budgetUnits
  soft : q.settings.heatSoft = p.settings.heatSoft
  hard : q.settings.heatHard = p.settings.heatHard

/-- A part that shares these blocks. -/
theorem SameLines.of_blocks {p q : Part} (arbiter : q.arbiter = p.arbiter) (drives : q.drives.keys = p.drives.keys)
    (damper : q.pedals.damper = p.pedals.damper) (bass : q.pedals.bassRail = p.pedals.bassRail)
    (treble : q.pedals.trebleRail = p.pedals.trebleRail) (budget : q.settings.budgetUnits = p.settings.budgetUnits)
    (soft : q.settings.heatSoft = p.settings.heatSoft) (hard : q.settings.heatHard = p.settings.heatHard) :
    SameLines p q :=
  ⟨arbiter, fun k => by rw [Part.key, drives, Part.key], fun d => by cases d <;> assumption, budget, soft, hard⟩

/-- What a relation must hold of on the operations that act on lines. -/
structure KeptByOps (R : Part → Part → Prop) : Prop where
  refl : ∀ p, R p p
  trans : ∀ {p q r}, R p q → R q r → R p r
  elsewhere : ∀ {p q}, SameLines p q → R p q
  lift : ∀ d depth p, R p (liftPedal d depth p)
  drop : ∀ d p, R p (dropPedal d p)
  onset : ∀ o p, R p (takeOnset o p)
  noteOff : ∀ k p, R p (noteOff k p)
  release : ∀ restore p, R p (releaseKeyLines restore p)
  holds : ∀ p, R p (releaseHolds p)
  kick : ∀ k p, R p (kickRunsOut k p)
  gain : ∀ k p, R p (holdGains k p)
  hold : ∀ k p, R p (holdEnds k p)
  guard : ∀ k p, R p (guardEnds k p)
  deadline : ∀ m p, R p (lineDeadline m p)
  liftEnds : ∀ d p, R p (liftEnds d p)
  settle : ∀ d p, R p (settleEnds d p)
  report : ∀ m kind p, R p (reportFault m kind p)
  clearFault : ∀ d p, R p (clearPedalFault d p)
  restoreKey : ∀ k p, (p.key k).state = .faulted → R p (restoreKey k p)
  applyHold : ∀ d holding duty p, R p (applyHold d holding duty p)
  guards : ∀ p, R p (endElapsedGuards p)
  rebase : ∀ p, R p (rebaseDrives p)
  forget : ∀ p : Part, R p { p with arbiter := { p.arbiter with history := [] } }

/-- What it must hold of besides, to hold of every step from a part of which `C` holds: the changes of the settings that
bind the lines, the heat tick, and the pin reset. -/
structure KeptByLines (C : Part → Prop) (R : Part → Part → Prop) : Prop extends KeptByOps R where
  budget : ∀ v p, R p (writeBudgetUnitsValue v p).2
  soft : ∀ v p, R p (writeHeatSoftValue v p).2
  hard : ∀ v p, R p (writeHeatHardValue v p).2
  cool : ∀ p, C p → R p (heatTick p)
  recalled : ∀ p, C p → R p (recallSettings p).2
  pin : ∀ rate1 rate0 p, C p → R p (pinResetPart rate1 rate0 p)

namespace KeptByOps

variable {R : Part → Part → Prop} (h : KeptByOps R)
include h

/-- A part in which other blocks have changed. -/
theorem other {p q : Part} (arbiter : q.arbiter = p.arbiter) (drives : q.drives.keys = p.drives.keys)
    (damper : q.pedals.damper = p.pedals.damper) (bass : q.pedals.bassRail = p.pedals.bassRail)
    (treble : q.pedals.trebleRail = p.pedals.trebleRail) (settings : q.settings = p.settings) : R p q :=
  h.elsewhere (.of_blocks arbiter drives damper bass treble (by rw [settings]) (by rw [settings]) (by rw [settings]))

/-- It holds of the roll's operations too. -/
theorem roll : KeptByRoll R where
  refl := h.refl
  trans := h.trans
  choices _ _ := h.other rfl rfl rfl rfl rfl rfl
  setLevels _ _ _ := h.other rfl rfl rfl rfl rfl rfl
  setInputs _ _ damper bass treble _ := h.other rfl rfl damper bass treble rfl
  setExpression _ _ := h.other rfl rfl rfl rfl rfl rfl
  setPedalInputs _ _ damper bass treble := h.other rfl rfl damper bass treble rfl
  updateNotices _ _ := h.other rfl rfl rfl rfl rfl rfl
  setFeed _ _ := h.other rfl rfl rfl rfl rfl rfl
  setRing _ _ := h.other rfl rfl rfl rfl rfl rfl
  setTracks _ _ := h.other rfl rfl rfl rfl rfl rfl
  setCues _ _ := h.other rfl rfl rfl rfl rfl rfl
  setLead _ _ := h.other rfl rfl rfl rfl rfl rfl
  setPlayer _ _ := h.other rfl rfl rfl rfl rfl rfl
  reported _ _ := h.other rfl rfl rfl rfl rfl rfl
  lift := h.lift
  drop := h.drop
  onset := h.onset
  noteOff := h.noteOff
  release := h.release
  holds := h.holds
  report := h.report
  clearFault := h.clearFault
  restoreKey := h.restoreKey

/-! ### Notices and the link -/

theorem takeScan (x : Scan) (p : Part) : R p (takeScan x p) := by
  unfold Machine.takeScan countDiscards
  split
  · exact h.other rfl rfl rfl rfl rfl rfl
  · exact h.other rfl rfl rfl rfl rfl rfl

theorem acceptByte (b : Byte) (p : Part) : R p (acceptByte b p) := by
  unfold Machine.acceptByte
  split
  · exact h.other rfl rfl rfl rfl rfl rfl
  · exact h.takeScan _ p

theorem expireGap (p : Part) : R p (expireGap p) := by
  unfold Machine.expireGap
  split
  · exact h.refl p
  · exact h.takeScan _ p

theorem sendNext (p : Part) : R p (sendNext p) := by
  unfold Machine.sendNext
  split
  · exact h.refl p
  · exact h.other rfl rfl rfl rfl rfl rfl

theorem placeNotice (p : Part) : R p (placeNotice p) := by
  unfold Machine.placeNotice
  split
  · exact h.other rfl rfl rfl rfl rfl rfl
  · exact h.refl p

theorem finishRequest (f : Frame) (p : Part) : R p (finishRequest f p) := h.other rfl rfl rfl rfl rfl rfl

theorem takeNoticeNames (payload : List Byte) (p : Part) : R p (takeNoticeNames payload p).2 := by
  unfold Machine.takeNoticeNames askIfPending
  split
  · exact h.refl p
  · dsimp only
    split
    · exact h.other rfl rfl rfl rfl rfl rfl
    · exact h.other rfl rfl rfl rfl rfl rfl

theorem takeHistory (payload : List Byte) (p : Part) : R p (takeHistory payload p).2 := by
  unfold Machine.takeHistory
  split
  · exact h.refl p
  · split
    · exact h.refl p
    · dsimp only
      split
      · exact h.forget p
      · exact h.refl p

theorem stopSilence (p : Part) : R p { p with link := { p.link with silenceRunning := false } } :=
  h.other rfl rfl rfl rfl rfl rfl

theorem expireSilence (p : Part) : R p (expireSilence p) := by
  unfold Machine.expireSilence
  split
  · exact h.refl p
  · dsimp only
    split
    · exact h.trans (h.trans (h.stopSilence p) (h.roll.pauseTransport _)) (h.roll.raise _ _)
    · exact h.stopSilence p

theorem endSave (good : Bool) (p : Part) : R p (endSave good p) := by
  unfold Machine.endSave
  split
  · exact h.other rfl rfl rfl rfl rfl rfl
  · exact h.refl p

theorem cutSave_power (x : Power) (p : Part) : R p { cutSave p with power := x } := by
  unfold cutSave
  split
  · exact h.other rfl rfl rfl rfl rfl rfl
  · exact h.other rfl rfl rfl rfl rfl rfl

theorem applyRailHold (p : Part) : R p (applyRailHold p) :=
  h.trans (h.applyHold _ _ _ p) (h.applyHold _ _ _ _)

end KeptByOps

namespace KeptByLines

variable {C : Part → Prop} {R : Part → Part → Prop} (h : KeptByLines C R)
include h

/-- It holds of the writes too. -/
theorem writes : KeptByWrites R where
  toKeptByRoll := h.roll
  withSettings _ _ budget soft hard := h.elsewhere (.of_blocks rfl rfl rfl rfl rfl budget soft hard)
  applyHold := h.applyHold
  guards := h.guards
  rebase := h.rebase
  budget := h.budget
  soft := h.soft
  hard := h.hard

/-! ### Every act -/

theorem acts : KeptByActs C R where
  refl p _ := h.refl p
  finished f _ q kept := h.trans kept (h.finishRequest f q)
  time _ _ := h.other rfl rfl rfl rfl rfl rfl
  byte b p _ := h.acceptByte b p
  gap p _ := h.expireGap p
  silence p _ := h.expireSilence p
  send p _ := h.sendNext p
  place p _ := h.placeNotice p
  notices payload p _ := h.takeNoticeNames payload p
  history payload p _ := h.takeHistory payload p
  load payload p _ := h.roll.loadRoll payload p
  feed payload p _ := h.roll.feedRows payload p
  run p _ := h.roll.runRequest p
  pause p _ := h.roll.pauseRequest p
  stop p _ := h.roll.stopRequest p
  tempo payload p _ := h.roll.setTempo payload p
  write item index value p _ := h.writes.writeItem item index value p
  arm p _ := h.roll.setCues _ p
  save _ _ := h.other rfl rfl rfl rfl rfl rfl
  saved good p _ := h.endSave good p
  recalled p hp := h.recalled p hp
  strike payload p _ := h.roll.strikeKey payload p
  play payload p _ := h.roll.playPattern payload p
  cancel p _ := h.roll.cancelPlayer p
  restore payload p _ := h.roll.restoreLine payload p
  soft f p _ := h.trans (h.finishRequest f p) (h.roll.softReset _)
  held p _ := h.cutSave_power .held p
  off p _ := h.cutSave_power .off p
  pin rate1 rate0 p hp := h.pin rate1 rate0 p hp
  feedTick p _ := h.roll.feedTick p
  starve p _ := h.roll.starveExpires p
  expression p _ := h.roll.expressionTick p
  heat p hp := h.cool p hp
  chain bits p _ := h.roll.readChain bits p
  kick k p _ := h.kick k p
  gain k p _ := h.gain k p
  hold k p _ := h.hold k p
  guard k p _ := h.guard k p
  deadline m p _ := h.deadline m p
  lift d p _ := h.liftEnds d p
  settle d p _ := h.settle d p
  pattern p _ := h.roll.takePatternStep p
  patternEnd p _ := h.roll.endPattern p

end KeptByLines

end Sys2Proof.Machine
end

section
/-! PROOFS. Every step keeps the budget (R108, R111, R114), and the drives with it (R127, R130, R132). -/

namespace Sys2Proof.Machine

section
variable {dr : Bool} {p q : Part}

/-! ### A part where nothing kicks -/

/-- Nothing kicks, lifts or waits (R109). -/
theorem kicking_eq_false : p.kicking = false ↔
    (∀ k, (p.key k).state ≠ .kick) ∧ (∀ d, (p.pedal d).state ≠ .lifting) ∧ p.arbiter.wait = [] := by
  unfold Part.kicking
  simp only [Bool.or_eq_false_iff, List.any_eq_false, bne_eq_false_iff_eq, beq_iff_eq, and_assoc]
  refine and_congr ⟨fun h k => h k (List.mem_finRange k), fun h k _ => h k⟩ (and_congr ⟨fun h d => h d ?_, fun h d _ => h d⟩
    Iff.rfl)
  cases d <;> decide

/-- Where nothing kicks, no unit is in use. -/
theorem Good.no_units (h : Good dr p) (quiet : p.kicking = false) : p.arbiter.unitsInUse = 0 := by
  obtain ⟨keys, pedals, -⟩ := kicking_eq_false.1 quiet
  have none : ∀ m : LineNo, p.arbiter.grants[m] = none := fun m => by
    rcases line_cases m with ⟨k, rfl⟩ | ⟨d, rfl⟩
    · exact not_not.1 fun c => keys k ((h.key k).1.1.2 c)
    · exact not_not.1 fun c => pedals d ((h.pedal d).1.2 c)
  rw [unitsInUse_eq_sum]
  simp [none]

/-- The budget may change where nothing kicks. -/
theorem Good.of_quiet (h : Good dr p) (quiet : p.kicking = false) (grants : q.arbiter.grants = p.arbiter.grants)
    (wait : q.arbiter.wait = p.arbiter.wait) (views : ∀ m, q.lineView m = p.lineView m) : Good dr q := by
  have empty : q.arbiter.wait = [] := wait.trans (kicking_eq_false.1 quiet).2.2
  have units : q.arbiter.unitsInUse = 0 := by
    rw [KickArbiter.unitsInUse, grants]
    exact h.no_units quiet
  refine ⟨⟨by omega, by rw [wait]; exact h.but.list, fun m hm => ?_, fun _ c => c.elim⟩, fun e he => ?_⟩
  · exact LineKept.sound ⟨by rw [grants], by rw [Part.hasEntry, wait, Part.hasEntry], views m⟩ (h.but.lines m hm)
  · rw [empty] at he
    cases he

theorem writeBudgetUnits_good (v : Nat) (h : Good dr p) : Good dr (writeBudgetUnitsValue v p).2 := by
  unfold writeBudgetUnitsValue writeBudget writeAgainst
  split
  · exact h
  · next quiet =>
    split
    · exact h
    · split
      · exact h
      · exact h.of_quiet (Bool.not_eq_true _ ▸ quiet) rfl rfl fun _ => rfl

/-! ### The operations -/

theorem takeOnset_good (o : Onset) (h : Good dr p) : Good dr (takeOnset o p) := by
  unfold takeOnset
  split
  · exact (endPlan_same _ _ _ p).good h
  · next none =>
    have rests : (p.key o.key).resting = false := by
      unfold dropOutcome at none
      split at none
      · cases none
      · split at none
        · cases none
        · next rests => exact Bool.not_eq_true _ ▸ rests
    refine (newPlan_good h ?_ rests).1
    unfold planOf priorityOf
    dsimp only
    split
    · split <;> decide
    · decide
    · decide

theorem lineDeadline_good (m : LineNo) (h : Good dr p) : Good dr (lineDeadline m p) := by
  unfold lineDeadline
  split
  · next e he => exact expireEntry_good h (entryOf_eq_some he).1
  · exact h

theorem reportFault_good (m : LineNo) (kind : FaultKind) (h : Good dr p) : Good dr (reportFault m kind p) := by
  unfold reportFault
  split
  · exact (faultKey_good kind h).1
  · exact (faultPedal_good kind h).1

theorem rebased_key (k : KeyNo) (p : Part) : (rebaseDrives p).key k = (p.key k).rebased p.now := by
  simp [rebaseDrives, Part.key]

theorem rebased_pedal (d : Pedal) (p : Part) : (rebaseDrives p).pedal d = (p.pedal d).rebased p.now := by
  cases d <;> rfl

theorem rebase_duty (x : Drive) (now : Time) : (x.rebase now).duty = x.duty := by
  unfold Drive.rebase
  split <;> simp_all

theorem rebaseDrives_same (p : Part) : SameUnits p (rebaseDrives p) :=
  .of_eq rfl rfl rfl (fun k => by rw [rebased_key, KeyLine.view, KeyLine.view, KeyLine.rebased, rebase_duty])
    fun d => by rw [rebased_pedal, PedalRecord.view, PedalRecord.view, PedalRecord.rebased]

/-- A setting other than the budget. -/
theorem withSettings_same (f : Settings → Settings) (p : Part)
    (budget : (f p.settings).budgetUnits = p.settings.budgetUnits) : SameUnits p (p.withSettings f) :=
  .of_eq budget rfl rfl (fun _ => rfl) fun _ => rfl

theorem SameLines.same (h : SameLines p q) : SameUnits p q :=
  .of_eq h.budget (by rw [h.arbiter]) (by rw [h.arbiter]) (fun k => by rw [h.keys]) fun d => by rw [h.pedals]

/-! ### After a pin reset -/

theorem afterPinReset_key (store : StoreImage) (rate1 rate0 : Bool) (now : Time) (choices : Nat) (k : KeyNo) :
    (Part.afterPinReset store rate1 rate0 now choices).key k
      = KeyLine.atReset (Part.afterPinReset store rate1 rate0 now choices).settings := by
  simp [Part.afterPinReset, Part.key]

theorem afterPinReset_pedal (store : StoreImage) (rate1 rate0 : Bool) (now : Time) (choices : Nat) (d : Pedal) :
    (Part.afterPinReset store rate1 rate0 now choices).pedal d = PedalRecord.atReset := by
  cases d <;> rfl

/-- A part with an arbiter, key lines and pedals as a pin reset leaves them is sound. -/
theorem good_of_fresh (arbiter : p.arbiter = KickArbiter.atReset) (keys : ∀ k, p.key k = KeyLine.atReset p.settings)
    (pedals : ∀ d, p.pedal d = PedalRecord.atReset) : Good dr p := by
  have grants : ∀ m : LineNo, p.arbiter.grants[m] = none := fun m => by
    rw [arbiter]
    simp [KickArbiter.atReset]
  have wait : p.arbiter.wait = [] := by rw [arbiter]; rfl
  have entries : ∀ m, ¬ p.hasEntry m := fun m c => by
    obtain ⟨e, he, -⟩ := c
    rw [wait] at he
    cases he
  refine ⟨⟨?_, ?_, fun m _ => ?_, fun _ c => c.elim⟩, fun e he => ?_⟩
  · rw [unitsInUse_eq_sum]
    simp [grants]
  · rw [wait]
    exact ⟨by decide, by simp, by simp, by simp⟩
  · rcases line_cases m with ⟨k, rfl⟩ | ⟨d, rfl⟩
    · rw [lineSound_keyLineNo]
      have := grants (keyLineNo k)
      have := entries (keyLineNo k)
      simp_all [KeyGood, KeySound, KeyLine.DutySound, KeyLine.atReset, Drive.off]
    · rw [lineSound_pedalLineNo]
      have := grants (pedalLineNo d)
      have := entries (pedalLineNo d)
      simp_all [PedalSound, PedalRecord.atReset]
  · rw [wait] at he
    cases he

theorem pinResetPart_good (rate1 rate0 : Bool) (p : Part) : Good dr (pinResetPart rate1 rate0 p) :=
  good_of_fresh rfl (fun k => afterPinReset_key _ _ _ _ _ k) fun d => afterPinReset_pedal _ _ _ _ _ d

end

/-! ### Every step -/

/-- The part after has a sound budget, with sound drives if `dr` asks for them, if the part before has. -/
def GoodKept (dr : Bool) (p q : Part) : Prop := Good dr p → Good dr q

theorem goodKept_ops (dr : Bool) : KeptByOps (GoodKept dr) where
  refl _ h := h
  trans h g hp := g (h hp)
  elsewhere same h := same.same.good h
  lift _ depth _ h := (liftPedal_good h depth).1
  drop _ _ h := (dropPedal_good h).1
  onset o _ h := takeOnset_good o h
  noteOff _ _ h := (noteOff_good h).1
  release restore _ h := releaseKeyLines_good h restore
  holds _ h := releaseHolds_good h
  kick _ _ h := (kickRunsOut_good h).1
  gain _ _ h := holdGains_same.good h
  hold _ _ h := holdEnds_good h
  guard _ _ h := guardEnds_good h
  deadline m _ h := lineDeadline_good m h
  liftEnds _ _ h := (liftEnds_good h).1
  settle _ _ h := settleEnds_good h
  report m kind _ h := reportFault_good m kind h
  clearFault _ _ h := clearPedalFault_good h
  restoreKey k _ faulted h := restoreKey_good h (by rw [faulted]; decide) (by rw [faulted]; decide)
  applyHold _ holding duty _ h := applyHold_good holding duty h
  guards _ h := endElapsedGuards_good h
  rebase p h := (rebaseDrives_same p).good h
  forget p h := by
    refine SameUnits.good (p := p) ?_ h
    exact .of_eq rfl rfl rfl (fun _ => rfl) fun d => by cases d <;> rfl

theorem recallAll_good {dr : Bool} {p : Part} (t : Settings) (h : Good dr p) (quiet : p.kicking = false) :
    Good dr (recallAll t p) := by
  have ops := goodKept_ops dr
  have replaced : Good dr (p.withSettings fun _ => t) := h.of_quiet quiet rfl rfl fun _ => rfl
  have rebased : Good dr (rebaseDrives (p.withSettings fun _ => t)) := (rebaseDrives_same _).good replaced
  unfold recallAll
  dsimp only
  refine ops.applyRailHold _ (ops.applyHold _ _ _ _ (ops.applyHold _ _ _ _ (endElapsedGuards_good
    (updateAllResting_good ?_))))
  refine ops.roll.handRailMode _ _ (ops.roll.handRailMode _ _ (ops.roll.disarmCues _ (ops.roll.setCues _ _ ?_)))
  exact ops.roll.resetLead _ (ops.roll.levelRefresh _ (ops.roll.closeTracks _ (ops.roll.setRing _ _ rebased)))

theorem recallSettings_good {dr : Bool} {p : Part} (h : Good dr p) : Good dr (recallSettings p).2 := by
  unfold recallSettings
  split <;> try dsimp only
  · exact h
  · next quiet =>
    rw [Bool.not_eq_true, Bool.or_eq_false_iff] at quiet
    split <;> dsimp only
    · exact recallAll_good _ h quiet.2
    · exact h

theorem writeHeatSoft_good {dr : Bool} {p : Part} (v : Nat) (h : Good dr p) :
    Good dr (writeHeatSoftValue v p).2 := by
  unfold writeHeatSoftValue
  split
  · exact h
  · split
    · exact h
    · dsimp only
      exact updateAllResting_good ((withSettings_same _ p rfl).good h)

theorem writeHeatHard_good {dr : Bool} {p : Part} (v : Nat) (h : Good dr p) :
    Good dr (writeHeatHardValue v p).2 := by
  unfold writeHeatHardValue
  split
  · exact h
  · split
    · exact h
    · dsimp only
      exact updateAllResting_good ((withSettings_same _ p rfl).good h)

theorem goodKept (dr : Bool) : KeptByLines (fun _ => True) (GoodKept dr) where
  toKeptByOps := goodKept_ops dr
  budget v _ h := writeBudgetUnits_good v h
  soft v _ h := writeHeatSoft_good v h
  hard v _ h := writeHeatHard_good v h
  cool p _ h := by
    refine heatTicks_good (SameUnits.good (p := p) ?_ h)
    exact .of_eq rfl rfl rfl (fun _ => rfl) fun d => by cases d <;> rfl
  recalled _ _ h := recallSettings_good h
  pin rate1 rate0 p _ _ := pinResetPart_good rate1 rate0 p

theorem step_good {dr : Bool} {s t : State} (h : Good dr s.part) (run : step s = .next t) : Good dr t.part :=
  (goodKept dr).acts.ofStep trivial run h

/-- Settles O55: every act on the lines keeps the budget but for the line it acts on, and every operation of the part is
made of those acts. -/
theorem budgetStaysKept : Obligations.BudgetStaysKept :=
  fun _ _ sound run => (step_good sound.good run).budget

/-- Settles O56, by the same invariant with the drives. -/
theorem drivesStaySound : Obligations.DrivesStaySound :=
  fun _ _ sound drives run => (good_iff.1 (step_good (good_iff.2 ⟨sound, fun _ => drives⟩) run)).2 rfl

end Sys2Proof.Machine
end

section
/-! PROOFS. What the smallest updates keep, every operation on the lines keeps: the heats and the strike history follow. -/

namespace Sys2Proof.Machine

/-- No notice flag has been taken down. -/
def FlagsKept (p q : Part) : Prop := ∀ src, p.notices.flag src = true → q.notices.flag src = true

theorem FlagsKept.of_eq {p q : Part} (h : q.notices = p.notices) : FlagsKept p q := fun src hs => by
  rw [h]
  exact hs

theorem FlagsKept.raise (p : Part) {src : NoticeSource} (h : src.hasSet = false) : FlagsKept p (raise src p) :=
  fun other ho => by rw [raise_flag p h, ho, Bool.true_or]

theorem FlagsKept.raiseLineFault (m : LineNo) (p : Part) : FlagsKept p (raiseLineFault m p) :=
  fun other ho => by rw [raiseLineFault_flag, ho, Bool.true_or]

theorem FlagsKept.raiseLineResting (k : KeyNo) (p : Part) : FlagsKept p (raiseLineResting k p) :=
  fun other ho => by rw [raiseLineResting_flag, ho, Bool.true_or]

/-- Outside the lines, a flag may have been raised, no cue slot has fired, and no hold cut is counted. -/
structure RaisedOnly (p q : Part) : Prop extends SameLines p q where
  flags : FlagsKept p q
  cuts : q.drives.holdCuts = p.drives.holdCuts
  cueSet : q.notices.cueSet = p.notices.cueSet

/-- What a relation must hold of on the smallest updates of the lines and the arbiter, none of which warms a coil. -/
structure KeptByMoves (R : Part → Part → Prop) : Prop where
  refl : ∀ p, R p p
  trans : ∀ {p q r}, R p q → R q r → R p r
  elsewhere : ∀ {p q}, RaisedOnly p q → R p q
  key : ∀ k l p, l.heat = (p.key k).heat → l.resting = (p.key k).resting → R p (p.setKey k l)
  pedal : ∀ d r p, r.fault = (p.pedal d).fault → r.faulted = (p.pedal d).faulted → R p (p.setPedal d r)
  place : ∀ m n p, R p (p.setPlace m n)
  wait : ∀ w p, R p (p.setWait w)
  ended : ∀ plan o n p, R p (endPlan plan o n p)
  withdrawal : ∀ p, R p (countWithdrawal p)
  late : ∀ p, R p (countLatePedal p)

/-- A pedal that goes back keeps its fault and its mark (R154). -/
theorem returned_fault (r : PedalRecord) (t : Settings) (d : Pedal) (now : Time) :
    (r.returned t d now).fault = r.fault ∧ (r.returned t d now).faulted = r.faulted := by
  unfold PedalRecord.returned
  split <;> exact ⟨rfl, rfl⟩

namespace KeptByMoves

variable {R : Part → Part → Prop} (h : KeptByMoves R)
include h

theorem raise {src : NoticeSource} (plain : src.hasSet = false) (p : Part) : R p (raise src p) :=
  h.elsewhere ⟨⟨rfl, fun _ => rfl, fun _ => rfl, rfl, rfl, rfl⟩, .raise p plain, rfl, rfl⟩

theorem raiseLineFault (m : LineNo) (p : Part) : R p (raiseLineFault m p) :=
  h.elsewhere ⟨⟨rfl, fun _ => rfl, fun _ => rfl, rfl, rfl, rfl⟩, .raiseLineFault m p, rfl, rfl⟩

theorem foldl {α : Type} {act : Part → α → Part} (step : ∀ q a, R q (act q a)) (as : List α) (p : Part) :
    R p (as.foldl act p) := by
  induction as generalizing p with
  | nil => exact h.refl p
  | cons a as ih => exact h.trans (step p a) (ih (act p a))

theorem inAnyOrder {α : Type} {act : α → Part → Part} (step : ∀ a q, R q (act a q)) (as : List α) (p : Part) :
    R p (inAnyOrder as act p) :=
  inAnyOrder_keeps (P := R p) (h.elsewhere ⟨⟨rfl, fun _ => rfl, fun _ => rfl, rfl, rfl, rfl⟩, .of_eq rfl, rfl, rfl⟩)
    fun a _ q hq => h.trans hq (step a q)

/-! ### The arbiter -/

theorem grant (line : LineNo) (cost : Nat) (request : KickRequest) (short : Bool) (waited : Nat) (p : Part) :
    R p (grant line cost request short waited p) := by
  unfold Machine.grant
  dsimp only
  split
  · exact h.trans (h.trans (h.place _ _ p) (h.ended _ _ _ _)) (h.key _ _ _ rfl rfl)
  · split
    · exact h.place _ _ p
    · exact h.trans (h.place _ _ p) (h.pedal _ _ _ rfl rfl)

theorem grantFrom (es : List WaitEntry) (p : Part) : R p (grantFrom es p) := by
  induction es generalizing p with
  | nil => exact h.wait _ p
  | cons e rest ih =>
    unfold Machine.grantFrom
    split
    · exact h.trans (h.trans (h.wait _ p) (h.grant _ _ _ _ _ _)) (ih _)
    · exact h.wait _ p

theorem grantingPass (p : Part) : R p (grantingPass p) := h.grantFrom _ p

theorem reportEnd (m : LineNo) (p : Part) : R p (reportEnd m p) := by
  unfold Machine.reportEnd
  split
  · exact h.refl p
  · exact h.trans (h.place _ _ p) (h.grantingPass _)

theorem unqueueKey (k : KeyNo) (p : Part) : R p (unqueueKey k p) := h.key _ _ p rfl rfl

theorem queueKey (k : KeyNo) (origin : Origin) (p : Part) : R p (queueKey k origin p) := h.key _ _ p rfl rfl

theorem dropEntry (m : LineNo) (p : Part) : R p (p.dropEntry m) := h.wait _ p

theorem returnPedal (d : Pedal) (p : Part) : R p (returnPedal d p) := by
  rw [returnPedal_eq]
  exact h.pedal d _ p (returned_fault _ _ _ _).1 (returned_fault _ _ _ _).2

theorem returnLine (e : WaitEntry) (p : Part) : R p (returnLine e p) := by
  unfold Machine.returnLine
  split
  · exact h.unqueueKey _ p
  · exact h.returnPedal _ p
  · exact h.refl p

theorem joinList (e : WaitEntry) (p : Part) : R p (joinList e p) := by
  unfold Machine.joinList
  dsimp only
  split
  · exact h.trans (h.trans (h.wait _ p) (h.queueKey _ _ _)) (h.grantingPass _)
  · exact h.trans (h.wait _ p) (h.grantingPass _)

theorem evict (e : WaitEntry) (p : Part) : R p (evict e p) := by
  unfold Machine.evict
  dsimp only
  have removed := h.trans (h.wait p.arbiter.wait.dropLast p) (h.returnLine e _)
  split
  · exact h.trans removed (h.ended _ _ _ _)
  · exact removed

theorem turnAway (e : WaitEntry) (p : Part) : R p (turnAway e p) := by
  unfold Machine.turnAway
  split
  · exact h.trans (h.returnLine e p) (h.ended _ _ _ _)
  · exact h.returnLine e p

theorem arrive (line : LineNo) (priority cost : Nat) (request : KickRequest) (short : Bool) (p : Part) :
    R p (arrive line priority cost request short p) := by
  unfold Machine.arrive
  dsimp only
  split
  · exact h.grant _ _ _ _ _ p
  · split
    · exact h.joinList _ p
    · split
      · exact h.turnAway _ p
      · split
        · exact h.trans (h.evict _ p) (h.joinList _ _)
        · exact h.turnAway _ p

theorem submitPlan (plan : Plan) (p : Part) : R p (submitPlan plan p) := h.arrive _ _ _ _ _ p

theorem mergePlan (plan : Plan) (p : Part) : R p (mergePlan plan p) := by
  cases he : p.entryOf (keyLineNo plan.line) with
  | none =>
    unfold Machine.mergePlan
    rw [he]
    exact h.refl p
  | some e =>
    have ended : R p (mergedEntry plan e p) := by
      unfold mergedEntry
      dsimp only
      have changed := h.trans (h.wait (changeEntry (keyLineNo plan.line) (fun x => x.merged plan) p.arbiter.wait) p)
        (h.queueKey plan.line plan.origin _)
      split
      · exact h.trans changed (h.ended _ _ _ _)
      · exact changed
    rw [mergePlan_of_entry he]
    split
    · exact h.trans ended (h.grantingPass _)
    · exact ended

theorem removeKeyEntry (e : WaitEntry) (plan : Plan) (o : StrikeOutcome) (n : Nat) (p : Part) :
    R p (removeKeyEntry e plan o n p) :=
  h.trans (h.trans (h.trans (h.dropEntry _ p) (h.unqueueKey _ _)) (h.ended _ _ _ _)) (h.grantingPass _)

theorem withdrawLift (d : Pedal) (p : Part) : R p (withdrawLift d p) :=
  h.trans (h.trans (h.dropEntry _ p) (h.withdrawal _)) (h.grantingPass _)

theorem expireEntry (e : WaitEntry) (p : Part) : R p (expireEntry e p) := by
  unfold Machine.expireEntry
  split
  · exact h.removeKeyEntry _ _ _ _ p
  · exact h.trans (h.trans (h.trans (h.dropEntry _ p) (h.late _)) (h.returnPedal _ _)) (h.grantingPass _)
  · exact h.trans (h.dropEntry _ p) (h.grantingPass _)

theorem lineDeadline (m : LineNo) (p : Part) : R p (lineDeadline m p) := by
  unfold Machine.lineDeadline
  split
  · exact h.expireEntry _ p
  · exact h.refl p

/-! ### Pedals -/

theorem beginWait (d : Pedal) (origin : WaitOrigin) (depth : Depth) (p : Part) : R p (beginWait d origin depth p) := by
  unfold Machine.beginWait submitLift
  refine h.trans (h.pedal _ _ p ?_ ?_) (h.arrive _ _ _ _ _ _) <;> rfl

theorem beginDrop (d : Pedal) (p : Part) : R p (beginDrop d p) := h.pedal _ _ p rfl rfl

theorem changeDepth (d : Pedal) (depth : Depth) (p : Part) : R p (changeDepth d depth p) := by
  unfold Machine.changeDepth
  dsimp only
  split
  · split
    · exact h.pedal _ _ p rfl rfl
    · exact h.beginWait _ _ _ p
  · split
    · exact h.trans (h.withdrawLift d p) (h.returnPedal _ _)
    · exact h.pedal _ _ p rfl rfl
  · exact h.pedal _ _ p rfl rfl
  · exact h.refl p
  · exact h.refl p

theorem liftPedal (d : Pedal) (depth : Depth) (p : Part) : R p (liftPedal d depth p) := by
  unfold Machine.liftPedal
  dsimp only
  split
  · split
    · exact h.withdrawal p
    · exact h.beginWait _ _ _ p
  · exact h.beginWait _ _ _ p
  · split
    · exact h.changeDepth _ _ p
    · exact h.refl p
  · exact h.pedal _ _ p rfl rfl
  · split
    · exact h.changeDepth _ _ p
    · exact h.refl p

theorem dropPedal (d : Pedal) (p : Part) : R p (dropPedal d p) := by
  unfold Machine.dropPedal
  dsimp only
  split
  · exact h.refl p
  · exact h.refl p
  · have back := h.trans (h.withdrawLift d p) (h.returnPedal d _)
    split
    · exact h.trans back (h.beginDrop _ _)
    · exact back
  · exact h.pedal _ _ p rfl rfl
  · exact h.beginDrop _ p

theorem liftEnds (d : Pedal) (p : Part) : R p (liftEnds d p) := by
  unfold Machine.liftEnds
  dsimp only
  split
  · split
    · refine h.trans ?_ (h.beginDrop _ _)
      exact h.trans (h.reportEnd _ p) (h.pedal _ _ _ rfl rfl)
    · refine h.trans ?_ (h.pedal _ _ _ rfl rfl)
      exact h.trans (h.reportEnd _ p) (h.pedal _ _ _ rfl rfl)
  · exact h.refl p

theorem settleEnds (d : Pedal) (p : Part) : R p (settleEnds d p) := by
  unfold Machine.settleEnds
  dsimp only
  split
  · exact h.pedal _ _ p rfl rfl
  · exact h.refl p

/-! ### The key lines -/

theorem enterRelease (k : KeyNo) (p : Part) : R p (enterRelease k p) := h.key _ _ p rfl rfl

theorem endOfGuard (k : KeyNo) (p : Part) : R p (endOfGuard k p) := by
  unfold Machine.endOfGuard
  dsimp only
  split
  · exact h.key _ _ p rfl rfl
  · split
    · exact h.key _ _ p rfl rfl
    · refine h.trans ?_ (h.submitPlan _ _)
      exact h.key _ _ p rfl rfl

theorem resumeLines (p : Part) : R p (resumeLines p) := h.inAnyOrder (fun k q => h.endOfGuard k q) _ p

theorem guardEnds (k : KeyNo) (p : Part) : R p (guardEnds k p) := by
  unfold Machine.guardEnds
  split
  · exact h.endOfGuard k p
  · exact h.refl p

theorem endElapsedGuards (p : Part) : R p (endElapsedGuards p) := h.inAnyOrder (fun k q => h.guardEnds k q) _ p

theorem holdPending (plan : Plan) (p : Part) : R p (holdPending plan p) := by
  unfold Machine.holdPending
  dsimp only
  have held := h.key plan.line { p.key plan.line with pending := some plan } p rfl rfl
  split
  · exact held
  · exact h.trans held (h.ended _ _ _ _)

theorem newPlan (plan : Plan) (p : Part) : R p (newPlan plan p) := by
  unfold Machine.newPlan
  dsimp only
  split
  · refine h.trans ?_ (h.submitPlan _ _)
    exact h.key _ _ p rfl rfl
  · exact h.mergePlan _ p
  · exact h.holdPending _ p
  · exact h.holdPending _ p
  · exact h.trans (h.enterRelease _ p) (h.holdPending _ _)
  · exact h.refl p

theorem takeOnset (o : Onset) (p : Part) : R p (takeOnset o p) := by
  unfold Machine.takeOnset
  split
  · exact h.ended _ _ _ p
  · exact h.newPlan _ p

theorem noteOff (k : KeyNo) (p : Part) : R p (noteOff k p) := by
  unfold Machine.noteOff
  dsimp only
  split
  · exact h.refl p
  · exact h.refl p
  · split
    · exact h.wait _ p
    · exact h.refl p
  · split
    · exact h.key _ _ p rfl rfl
    · exact h.key _ _ p rfl rfl
    · exact h.refl p
  · split
    · exact h.enterRelease k p
    · exact h.refl p
  · split
    · exact h.key _ _ p rfl rfl
    · exact h.refl p

theorem holdEnds (cut : ∀ p, R p (countHoldCut p)) (k : KeyNo) (p : Part) : R p (holdEnds k p) := by
  unfold Machine.holdEnds
  dsimp only
  split
  · split
    · exact h.trans (h.enterRelease k p) (cut _)
    · exact h.enterRelease k p
  · exact h.refl p

theorem releaseHolds (p : Part) : R p (releaseHolds p) := by
  refine h.foldl (fun q k => ?_) _ p
  split
  · exact h.enterRelease k q
  · exact h.refl q

theorem endPending (k : KeyNo) (o : StrikeOutcome) (p : Part) : R p (endPending k o p) := by
  unfold Machine.endPending
  split
  · exact h.refl p
  · refine h.trans ?_ (h.ended _ _ _ _)
    exact h.key _ _ p rfl rfl

theorem endWait (k : KeyNo) (p : Part) : R p (endWait k p) := by
  unfold Machine.endWait
  split
  · exact h.endOfGuard k p
  · exact h.refl p

theorem flushPending (p : Part) : R p (flushPending p) :=
  h.inAnyOrder (fun k q => h.trans (h.endPending k _ q) (h.endWait k _)) _ p

theorem flushEntries (p : Part) : R p (flushEntries p) := by
  refine h.trans (h.wait _ p) (h.foldl (fun q e => ?_) _ _)
  unfold flushEntry
  split
  · exact h.trans (h.unqueueKey _ q) (h.ended _ _ _ _)
  · exact h.refl q

theorem removeRestingEntry (e : WaitEntry) (p : Part) : R p (removeRestingEntry e p) := by
  unfold Machine.removeRestingEntry
  split
  · split
    · exact h.trans (h.trans (h.dropEntry _ p) (h.unqueueKey _ _)) (h.ended _ _ _ _)
    · exact h.refl p
  · exact h.refl p

theorem restingRemoved (p : Part) : R p (restingRemoved p) := h.foldl (fun q e => h.removeRestingEntry e q) _ p

theorem restoreKey (k : KeyNo) (p : Part) : R p (restoreKey k p) :=
  h.trans (h.enterRelease k p) (h.key _ _ _ rfl rfl)

theorem faultEntry (k : KeyNo) (p : Part) : R p (faultEntry k p) := by
  unfold Machine.faultEntry
  split
  · split
    · exact h.removeKeyEntry _ _ _ _ p
    · exact h.refl p
  · exact h.refl p

end KeptByMoves

/-- What a relation must hold of besides, to hold of the operations that warm a coil or mark a fault. -/
structure KeptByWarming (R : Part → Part → Prop) : Prop extends KeptByMoves R where
  mark : ∀ d r p, R p (p.setPedal d r)
  warm : ∀ k n p, R p (gainHeat k n p)
  forget : ∀ p : Part, R p { p with arbiter := { p.arbiter with history := [] } }
  rebase : ∀ p, R p (rebaseDrives p)

namespace KeptByWarming

variable {R : Part → Part → Prop} (h : KeptByWarming R)
include h

theorem pedalFaulted (d : Pedal) (p : Part) : R p (pedalFaulted d p) := by
  unfold Machine.pedalFaulted
  dsimp only
  refine h.trans ?_ (h.mark _ _ _)
  split
  · exact h.reportEnd _ p
  · exact h.withdrawLift d p
  all_goals exact h.refl p

theorem faultPedal (d : Pedal) (kind : FaultKind) (p : Part) : R p (faultPedal d kind p) := by
  unfold Machine.faultPedal
  split
  · exact h.refl p
  · refine h.trans ?_ (h.pedalFaulted d _)
    exact h.trans (h.mark _ _ p) (h.raiseLineFault _ _)

theorem kickRunsOut (k : KeyNo) (p : Part) : R p (kickRunsOut k p) := by
  unfold Machine.kickRunsOut
  split
  · dsimp only
    split
    · refine h.trans ?_ (h.enterRelease k _)
      exact h.trans (h.warm _ _ p) (h.reportEnd _ _)
    · refine h.trans ?_ (h.key _ _ _ rfl rfl)
      exact h.trans (h.warm _ _ p) (h.reportEnd _ _)
  · exact h.refl p

theorem holdGains (k : KeyNo) (p : Part) : R p (holdGains k p) := by
  unfold Machine.holdGains
  split
  · refine h.trans ?_ (h.warm _ _ _)
    exact h.key _ _ p rfl rfl
  · exact h.refl p

theorem cutKick (k : KeyNo) (p : Part) : R p (cutKick k p) := by
  unfold Machine.cutKick
  split
  · exact h.trans (h.warm _ _ p) (h.place _ _ _)
  · exact h.place _ _ p

theorem releaseKey (restore : Bool) (k : KeyNo) (p : Part) : R p (releaseKey restore k p) := by
  unfold Machine.releaseKey
  dsimp only
  split
  · exact h.trans (h.cutKick k p) (h.enterRelease k _)
  · exact h.enterRelease k p
  · exact h.unqueueKey k p
  · split
    · exact h.restoreKey k p
    · exact h.refl p
  · exact h.refl p
  · exact h.refl p

theorem releaseKeyLines (restore : Bool) (p : Part) : R p (releaseKeyLines restore p) :=
  h.trans (h.trans (h.trans (h.flushEntries p) (h.foldl (fun q k => h.releaseKey restore k q) _ _)) (h.flushPending _))
    (h.grantingPass _)

theorem faultCuts (k : KeyNo) (p : Part) : R p (faultCuts k p) := by
  unfold Machine.faultCuts
  split
  · exact h.faultEntry k p
  · exact h.trans (h.trans (h.cutKick k p) (h.grantingPass _)) (h.endPending k _ _)
  · exact h.endPending k _ p
  · exact h.refl p
  · exact h.refl p
  · exact h.refl p

theorem faultKey (k : KeyNo) (kind : FaultKind) (p : Part) : R p (faultKey k kind p) := by
  unfold Machine.faultKey
  split
  · exact h.refl p
  · refine h.trans ?_ (h.raiseLineFault _ _)
    refine h.trans (h.faultCuts k p) ?_
    exact h.key _ _ _ rfl rfl

theorem reportFault (m : LineNo) (kind : FaultKind) (p : Part) : R p (reportFault m kind p) := by
  unfold Machine.reportFault
  split
  · exact h.faultKey _ kind p
  · exact h.faultPedal _ kind p

theorem applyHold (d : Pedal) (holding : PedalRecord → Bool) (duty : Nat) (p : Part) :
    R p (applyHold d holding duty p) := by
  unfold Machine.applyHold
  split
  · exact h.mark _ _ p
  · exact h.refl p

theorem ops (other : ∀ {p q}, SameLines p q → R p q) : KeptByOps R where
  refl := h.refl
  trans := h.trans
  elsewhere := other
  lift := h.liftPedal
  drop := h.dropPedal
  onset := h.takeOnset
  noteOff := h.noteOff
  release := h.releaseKeyLines
  holds := h.releaseHolds
  kick := h.kickRunsOut
  gain := h.holdGains
  hold := h.holdEnds fun _ => other ⟨rfl, fun _ => rfl, fun _ => rfl, rfl, rfl, rfl⟩
  guard := h.guardEnds
  deadline := h.lineDeadline
  liftEnds := h.liftEnds
  settle := h.settleEnds
  report := h.reportFault
  clearFault _ p := h.mark _ _ p
  restoreKey k p _ := h.restoreKey k p
  applyHold := h.applyHold
  guards := h.endElapsedGuards
  rebase := h.rebase
  forget := h.forget

end KeptByWarming

end Sys2Proof.Machine
end

section
/-! PROOFS. Every step keeps the strike history (R125) and the heats (R143). -/

namespace Sys2Proof.Machine

/-! ### The strike history -/

/-- The numbers of the records, one by one. -/
theorem historySound_iff {a : KickArbiter} : a.historySound ↔ a.history.length ≤ 64 ∧ a.nextSequence < 65536
    ∧ ∀ i (h : i < a.history.length), a.history[i].sequence = (a.nextSequence + 65536 - a.history.length + i) % 65536 := by
  unfold KickArbiter.historySound
  refine and_congr_right fun _ => and_congr_right fun _ => ⟨fun h i hi => ?_, fun h => ?_⟩
  · have := congrArg (fun l => l[i]?) h
    simpa [hi] using this
  · refine List.ext_getElem (by simp) fun i h1 _ => ?_
    rw [List.length_map] at h1
    simpa using h i h1

theorem fileEnd_sound {a : KickArbiter} (h : a.historySound) (plan : Plan) (o : StrikeOutcome) (waited : Nat) :
    (a.fileEnd plan o waited).historySound := by
  obtain ⟨len, next, numbered⟩ := historySound_iff.1 h
  have length : (a.fileEnd plan o waited).history.length
      = a.history.length - (a.history.length + 1 - 64) + 1 := by
    simp [KickArbiter.fileEnd, fileRecord, Config.historyRecords]
  refine historySound_iff.2 ⟨by omega, Nat.mod_lt _ (by decide), fun i hi => ?_⟩
  rw [length] at hi ⊢
  have records : (a.fileEnd plan o waited).history = a.history.drop (a.history.length + 1 - 64)
      ++ [recordOf a.nextSequence plan o waited] := rfl
  have sequence : (a.fileEnd plan o waited).nextSequence = (a.nextSequence + 1) % 65536 := rfl
  simp only [records, sequence]
  by_cases last : i < a.history.length - (a.history.length + 1 - 64)
  · rw [List.getElem_append_left (by simpa using last), List.getElem_drop, numbered _ (by omega)]
    omega
  · rw [List.getElem_append_right (by simpa using last)]
    simp only [List.getElem_singleton, recordOf]
    omega

/-- The part after has a sound history if the part before has. -/
def HistoryKept (p q : Part) : Prop := p.arbiter.historySound → q.arbiter.historySound

/-- A history that stays as it is. -/
theorem HistoryKept.of_eq {p q : Part} (history : q.arbiter.history = p.arbiter.history)
    (next : q.arbiter.nextSequence = p.arbiter.nextSequence) : HistoryKept p q := fun h => by
  unfold KickArbiter.historySound
  rw [history, next]
  exact h

theorem historyKept_elsewhere {p q : Part} (same : SameLines p q) : HistoryKept p q :=
  .of_eq (by rw [same.arbiter]) (by rw [same.arbiter])

theorem historyKept_warming : KeptByWarming HistoryKept where
  refl _ h := h
  trans h g hp := g (h hp)
  elsewhere same := historyKept_elsewhere same.toSameLines
  key _ _ _ _ _ := .of_eq rfl rfl
  pedal d r p _ _ := .of_eq (by rw [Part.setPedal_arbiter]) (by rw [Part.setPedal_arbiter])
  mark d r p := .of_eq (by rw [Part.setPedal_arbiter]) (by rw [Part.setPedal_arbiter])
  place _ _ _ := .of_eq rfl rfl
  wait _ _ := .of_eq rfl rfl
  ended plan o n p h := by
    have filed := fileEnd_sound h plan o n
    unfold endPlan
    dsimp only
    split <;> exact filed
  withdrawal _ := .of_eq rfl rfl
  late _ := .of_eq rfl rfl
  warm k n p := by
    unfold gainHeat
    dsimp only
    split <;> exact .of_eq rfl rfl
  forget p h := ⟨by simp, h.2.1, by simp⟩
  rebase _ := .of_eq rfl rfl

theorem HistoryKept.updateAllResting (p : Part) : HistoryKept p (updateAllResting p) := by
  have moves := historyKept_warming.toKeptByMoves
  rw [updateAllResting_eq]
  refine moves.trans ?_ (moves.resumeLines _)
  refine moves.trans ?_ (moves.grantingPass _)
  refine moves.trans ?_ (moves.restingRemoved _)
  exact moves.foldl (fun q k => .of_eq (by rw [updateResting_grants]) (by rw [updateResting_grants])) _ p

theorem historySound_reset : KickArbiter.atReset.historySound := by
  unfold KickArbiter.historySound
  decide

theorem historyKept : KeptByLines (fun _ => True) HistoryKept where
  toKeptByOps := historyKept_warming.ops historyKept_elsewhere
  budget v p := by
    unfold writeBudgetUnitsValue writeBudget writeAgainst
    split
    · exact fun h => h
    · split
      · exact fun h => h
      · split <;> exact .of_eq rfl rfl
  soft v p := by
    unfold writeHeatSoftValue
    split
    · exact fun h => h
    · split
      · exact fun h => h
      · dsimp only
        exact historyKept_warming.trans (.of_eq rfl rfl) (.updateAllResting (p.withSettings _))
  hard v p := by
    unfold writeHeatHardValue
    split
    · exact fun h => h
    · split
      · exact fun h => h
      · dsimp only
        exact historyKept_warming.trans (.of_eq rfl rfl) (.updateAllResting (p.withSettings _))
  cool p _ := by
    have moves := historyKept_warming.toKeptByMoves
    unfold heatTick heatTicks
    refine moves.trans ?_ (moves.resumeLines _)
    refine moves.trans ?_ (moves.foldl (act := fun q k => coolKey k q) (fun q k => .of_eq rfl rfl) _ _)
    exact .of_eq rfl rfl
  recalled p _ := by
    have ops := historyKept_warming.ops historyKept_elsewhere
    unfold recallSettings
    split
    · exact fun h => h
    · split
      · unfold recallAll
        dsimp only
        refine ops.trans ?_ (ops.applyRailHold _)
        refine ops.trans ?_ (ops.applyHold _ _ _ _)
        refine ops.trans ?_ (ops.applyHold _ _ _ _)
        refine ops.trans ?_ (ops.guards _)
        refine ops.trans ?_ (.updateAllResting _)
        refine ops.trans ?_ (ops.roll.handRailMode _ _)
        refine ops.trans ?_ (ops.roll.handRailMode _ _)
        refine ops.trans ?_ (ops.roll.disarmCues _)
        exact .of_eq rfl rfl
      · exact fun h => h
  pin _ _ _ _ _ := historySound_reset

/-- Settles O54: every record is filed by the end of a plan, with the next number. -/
theorem historyStaysSound : Obligations.HistoryStaysSound :=
  fun _ _ sound run => historyKept.acts.ofStep trivial run sound

end Sys2Proof.Machine
end

section
/-! PROOFS. The default settings are legal, and the part right after reset is sound. -/

namespace Sys2Proof.Machine

/-- A key's track in the default map (R42) is the one eight above its number, and every target has one track. -/
theorem default_targets_apart : ∀ t u : TrackNo, t ≠ u → (defaultEntry t).sameTarget (defaultEntry u) = false := by
  decide +kernel

theorem default_entries_legal : ∀ t : TrackNo, (defaultEntry t).legal := by
  unfold TrackEntry.legal
  decide +kernel

theorem default_map_legal : mapLegal defaultSettings.trackMap := by
  have entry : ∀ t : TrackNo, defaultSettings.trackMap[t] = defaultEntry t := fun t => by simp [defaultSettings]
  unfold mapLegal
  simp only [entry]
  exact ⟨default_targets_apart, default_entries_legal⟩

theorem default_slot_legal : defaultCueSlot.legal := by
  unfold CueSlot.legal
  decide +kernel

theorem default_voicing_legal : defaultVoicing.legal := by
  unfold Voicing.legal
  decide +kernel

theorem default_table_legal : stepTableLegal defaultSettings.stepTable := by
  unfold stepTableLegal
  decide +kernel

theorem defaultSettings_legal : defaultSettings.legal := by
  refine ⟨?_, ?_, ?_, ?_⟩
  · have slot : ∀ i : Fin 4, defaultSettings.cueSlots[i] = defaultCueSlot := fun i => by simp [defaultSettings]
    unfold Settings.rollLegal
    simp only [slot]
    refine ⟨by decide, by decide, by decide, by decide, by decide, by decide, by decide, default_map_legal,
      fun _ => default_slot_legal⟩
  · refine ⟨default_table_legal, by decide, by decide, by decide, by decide, by decide, by decide, by decide, fun h => ?_⟩
    cases h <;> decide
  · have voice : ∀ k : KeyNo, defaultSettings.voicing[k] = defaultVoicing := fun k => by simp [defaultSettings]
    unfold Settings.strikeLegal
    simp only [voice]
    refine ⟨fun _ => default_voicing_legal, by decide, by decide, by decide, by decide, by decide, by decide, by decide,
      by decide⟩
  · unfold Settings.lineLegal
    decide

theorem reset_key (k : KeyNo) : Part.reset.key k = KeyLine.atReset defaultSettings := by
  simp [Part.reset, Part.key]

theorem reset_pedal (d : Pedal) : Part.reset.pedal d = PedalRecord.atReset := by
  cases d <;> rfl

theorem reset_good (dr : Bool) : Good dr Part.reset := good_of_fresh rfl reset_key reset_pedal

theorem reset_shades : ShadesSound Part.reset := fun h => by
  cases h <;> decide

theorem reset_heat : HeatSound Part.reset := fun k => by
  rw [reset_key]
  decide

/-- Settles O59. -/
theorem resetIsSound : Obligations.ResetIsSound := by
  have budget := good_iff.1 (reset_good true)
  refine ⟨⟨defaultSettings_legal, defaultSettings_legal, fun _ h => by cases h⟩, ?_, ?_, reset_shades, historySound_reset,
    budget.1, budget.2 rfl, reset_heat, ?_, ?_⟩
  · exact ⟨⟨rfl, by decide, by decide, by decide⟩, by decide⟩
  · unfold FeedSound
    decide
  · exact ⟨.inl rfl, by decide, fun _ h => by cases h⟩
  · unfold LeadSound
    decide

end Sys2Proof.Machine
end

section
/-! PROOFS. Every step keeps the resting flag set at and above HeatHard (R143). -/

namespace Sys2Proof.Machine

/-! ### Heats and resting flags that stay as they are -/

/-- Every key line keeps its H and its resting flag, and the heat limits stay. -/
structure SameTemps (p q : Part) : Prop where
  soft : q.settings.heatSoft = p.settings.heatSoft
  hard : q.settings.heatHard = p.settings.heatHard
  heat : ∀ k, (q.key k).heat = (p.key k).heat
  resting : ∀ k, (q.key k).resting = (p.key k).resting

namespace SameTemps

variable {p q : Part}

theorem of_keys (soft : q.settings.heatSoft = p.settings.heatSoft) (hard : q.settings.heatHard = p.settings.heatHard)
    (keys : ∀ k, q.key k = p.key k) : SameTemps p q :=
  ⟨soft, hard, fun k => by rw [keys], fun k => by rw [keys]⟩

theorem setKey {k : KeyNo} {l : KeyLine} (heat : l.heat = (p.key k).heat) (resting : l.resting = (p.key k).resting) :
    SameTemps p (p.setKey k l) where
  soft := rfl
  hard := rfl
  heat j := by
    by_cases hj : j = k
    · rw [hj, Part.key_setKey_same, heat]
    · rw [Part.key_setKey_ne p l hj]
  resting j := by
    by_cases hj : j = k
    · rw [hj, Part.key_setKey_same, resting]
    · rw [Part.key_setKey_ne p l hj]

end SameTemps

theorem SameTemps.setPedal (d : Pedal) (r : PedalRecord) (p : Part) : SameTemps p (p.setPedal d r) :=
  .of_keys (by simp) (by simp) fun k => by simp

theorem SameLines.temps {p q : Part} (same : SameLines p q) : SameTemps p q := .of_keys same.soft same.hard same.keys

theorem sameTemps_moves : KeptByMoves SameTemps where
  refl _ := .of_keys rfl rfl fun _ => rfl
  trans h g := ⟨g.soft.trans h.soft, g.hard.trans h.hard, fun k => (g.heat k).trans (h.heat k),
    fun k => (g.resting k).trans (h.resting k)⟩
  elsewhere same := same.toSameLines.temps
  key _ _ _ heat resting := .setKey heat resting
  pedal d r p _ _ := .setPedal d r p
  place _ _ _ := .of_keys rfl rfl fun _ => rfl
  wait _ _ := .of_keys rfl rfl fun _ => rfl
  ended plan o n p := by
    unfold endPlan
    dsimp only
    split <;> exact .of_keys rfl rfl fun _ => rfl
  withdrawal _ := .of_keys rfl rfl fun _ => rfl
  late _ := .of_keys rfl rfl fun _ => rfl

theorem SameTemps.rebase (p : Part) : SameTemps p (rebaseDrives p) where
  soft := rfl
  hard := rfl
  heat k := by rw [rebased_key]; rfl
  resting k := by rw [rebased_key]; rfl

theorem SameTemps.heatSound {p q : Part} (h : SameTemps p q) (sound : HeatSound p) : HeatSound q := fun k => by
  rw [h.hard, h.heat, h.resting]
  exact sound k

/-! ### H within its bounds -/

/-- Every H stays within 0 to 65535. -/
def HeatBounded (p : Part) : Prop := ∀ k, (p.key k).heat ≤ 65535

theorem HeatSound.bounded {p : Part} (h : HeatSound p) : HeatBounded p := fun k => (h k).1

/-- A property of every key line's H and resting flag stays true where a line is warmed. -/
theorem gainHeat_all {P : KeyLine → Prop} {k : KeyNo} {n : Nat} {p : Part} (h : ∀ j, P (p.key j))
    (warm : P ((p.key k).warmed p.settings n)) (j : KeyNo) : P ((gainHeat k n p).key j) := by
  rw [gainHeat_key]
  split
  · exact warm
  · exact h j

theorem gainHeat_settings (k : KeyNo) (n : Nat) (p : Part) : (gainHeat k n p).settings = p.settings :=
  (gainHeat_frame k n p).settings

theorem gainHeat_sound (k : KeyNo) (n : Nat) {p : Part} (h : HeatSound p) : HeatSound (gainHeat k n p) := by
  have all := gainHeat_all (P := fun l => l.heat ≤ 65535 ∧ (p.settings.heatHard ≤ l.heat → l.resting = true))
    (k := k) (n := n) h ⟨Nat.min_le_right _ _, fun hot => by simp only [KeyLine.warmed] at hot ⊢; simp [hot]⟩
  intro j
  rw [gainHeat_settings]
  exact all j

theorem gainHeat_bounded (k : KeyNo) (n : Nat) {p : Part} (h : HeatBounded p) : HeatBounded (gainHeat k n p) :=
  gainHeat_all (P := fun l => l.heat ≤ 65535) h (Nat.min_le_right _ _)

/-- The part after has its H within bounds if the part before has. -/
def BoundsKept (p q : Part) : Prop := HeatBounded p → HeatBounded q

theorem boundsKept_elsewhere {p q : Part} (same : SameLines p q) : BoundsKept p q := fun h k => by
  rw [same.keys]
  exact h k

theorem boundsKept_warming : KeptByWarming BoundsKept where
  refl _ h := h
  trans h g hp := g (h hp)
  elsewhere same := boundsKept_elsewhere same.toSameLines
  key k l p heat resting h j := by rw [(SameTemps.setKey heat resting).heat]; exact h j
  pedal d r p _ _ h k := by rw [(SameTemps.setPedal d r p).heat]; exact h k
  mark d r p h k := by rw [(SameTemps.setPedal d r p).heat]; exact h k
  place _ _ _ h := h
  wait _ _ h := h
  ended plan o n p h k := by rw [(sameTemps_moves.ended plan o n p).heat]; exact h k
  withdrawal _ h := h
  late _ h := h
  warm k n _ h := gainHeat_bounded k n h
  forget _ h := h
  rebase p h k := by rw [(SameTemps.rebase p).heat]; exact h k

/-! ### The resting flags true to the heats -/

/-- The part after has its heats sound if the part before has. -/
def HeatKept (p q : Part) : Prop := HeatSound p → HeatSound q

theorem heatKept_warming : KeptByWarming HeatKept where
  refl _ h := h
  trans h g hp := g (h hp)
  elsewhere same := same.toSameLines.temps.heatSound
  key _ _ _ heat resting := (SameTemps.setKey heat resting).heatSound
  pedal d r p _ _ := (SameTemps.setPedal d r p).heatSound
  mark d r p := (SameTemps.setPedal d r p).heatSound
  place m n p := (sameTemps_moves.place m n p).heatSound
  wait w p := (sameTemps_moves.wait w p).heatSound
  ended plan o n p := (sameTemps_moves.ended plan o n p).heatSound
  withdrawal p := (sameTemps_moves.withdrawal p).heatSound
  late p := (sameTemps_moves.late p).heatSound
  warm k n _ h := gainHeat_sound k n h
  forget p := (SameTemps.of_keys rfl rfl fun _ => rfl).heatSound
  rebase p := (SameTemps.rebase p).heatSound

/-- A threshold write or a recall brings the flags up to date, whatever they were (R143). -/
theorem restedLines_sound {p : Part} (h : HeatBounded p) : HeatSound (restedLines p) := fun k => by
  rw [restedLines_key, (restedLines_own p).settings]
  exact ⟨h k, fun hot => if_pos hot⟩

/-- What follows the flags in it moves no H and no flag. -/
theorem updateAllResting_temps (p : Part) : SameTemps (restedLines p) (updateAllResting p) := by
  have moves := sameTemps_moves
  rw [updateAllResting_eq]
  exact moves.trans (moves.trans (moves.restingRemoved _) (moves.grantingPass _)) (moves.resumeLines _)

theorem updateAllResting_sound {p : Part} (h : HeatBounded p) : HeatSound (updateAllResting p) :=
  (updateAllResting_temps p).heatSound (restedLines_sound h)

/-! ### The heat tick -/

theorem coolKey_key (k j : KeyNo) (p : Part) :
    (coolKey k p).key j = if k = j then
      { p.key k with heat := cooled (p.key k).heat,
                     resting := (p.key k).resting && !decide (cooled (p.key k).heat < p.settings.heatSoft) }
      else p.key j := by
  unfold coolKey
  split
  · next e => rw [← e, Part.key_setKey_same]
  · next e => rw [Part.key_setKey_ne p _ (Ne.symm e)]

theorem coolKey_sound {p : Part} (k : KeyNo) (limits : p.settings.heatSoft ≤ p.settings.heatHard) (h : HeatSound p) :
    HeatSound (coolKey k p) := fun j => by
  have falls : cooled (p.key k).heat ≤ (p.key k).heat := Nat.sub_le _ _
  have settings : (coolKey k p).settings = p.settings := rfl
  rw [coolKey_key, settings]
  split
  · refine ⟨falls.trans (h k).1, fun hot => ?_⟩
    dsimp only at hot ⊢
    rw [(h k).2 (hot.trans falls), Bool.true_and, Bool.not_eq_true', decide_eq_false_iff_not]
    omega
  · exact h j

theorem heatTick_sound {p : Part} (limits : p.settings.heatSoft ≤ p.settings.heatHard) (h : HeatSound p) :
    HeatSound (heatTick p) := by
  have all : ∀ (ks : List KeyNo) (q : Part), q.settings.heatSoft ≤ q.settings.heatHard → HeatSound q →
      HeatSound (ks.foldl (fun q k => coolKey k q) q) := by
    intro ks
    induction ks with
    | nil => exact fun _ _ hq => hq
    | cons k ks ih => exact fun q lim hq => ih (coolKey k q) lim (coolKey_sound k lim hq)
  exact (sameTemps_moves.resumeLines _).heatSound (all allKeys _ limits h)

/-! ### Every step -/

theorem SettingsSound.limits {p : Part} (h : SettingsSound p) : p.settings.heatSoft ≤ p.settings.heatHard := by
  obtain ⟨⟨-, -, -, -, -, -, -, -, apart, -⟩, -⟩ := h
  omega

theorem recallAll_heat (t : Settings) {p : Part} (h : HeatBounded p) : HeatSound (recallAll t p) := by
  have bounds := boundsKept_warming.ops boundsKept_elsewhere
  have heats := heatKept_warming.ops fun same => (SameLines.temps same).heatSound
  unfold recallAll
  dsimp only
  refine heats.applyRailHold _ (heats.applyHold _ _ _ _ (heats.applyHold _ _ _ _ (heats.guards _
    (updateAllResting_sound ?_))))
  refine bounds.roll.handRailMode _ _ (bounds.roll.handRailMode _ _ (bounds.roll.disarmCues _ (bounds.roll.setCues _ _ ?_)))
  refine bounds.roll.resetLead _ (bounds.roll.levelRefresh _ (bounds.roll.closeTracks _ (bounds.roll.setRing _ _ (bounds.rebase _ ?_))))
  exact h

theorem pinReset_limits {p : Part} (h : SettingsSound p) (rate1 rate0 : Bool) :
    (pinResetPart rate1 rate0 p).settings.legal := by
  have stored : (cutSave p).store.settings.legal := by
    unfold cutSave
    split
    · next t saving => exact h.2.2 t saving
    · exact h.2.1
  unfold pinResetPart Part.afterPinReset
  dsimp only
  split
  · exact stored
  · exact defaultSettings_legal

theorem pinReset_heat {p : Part} (h : SettingsSound p) (rate1 rate0 : Bool) :
    HeatSound (pinResetPart rate1 rate0 p) := fun k => by
  obtain ⟨-, -, -, -, -, -, ⟨-, soft⟩, -, apart, -⟩ := pinReset_limits h rate1 rate0
  have key : (pinResetPart rate1 rate0 p).key k = KeyLine.atReset (pinResetPart rate1 rate0 p).settings :=
    afterPinReset_key _ _ _ _ _ k
  rw [key]
  simp only [KeyLine.atReset]
  omega

theorem heatKept : KeptByLines SettingsSound HeatKept where
  toKeptByOps := heatKept_warming.ops fun same => (SameLines.temps same).heatSound
  budget v p := by
    unfold writeBudgetUnitsValue writeBudget writeAgainst
    split
    · exact fun h => h
    · split
      · exact fun h => h
      · split <;> exact fun h => h
  soft v p := by
    unfold writeHeatSoftValue
    split
    · exact fun h => h
    · split
      · exact fun h => h
      · dsimp only
        exact fun h => updateAllResting_sound h.bounded
  hard v p := by
    unfold writeHeatHardValue
    split
    · exact fun h => h
    · split
      · exact fun h => h
      · dsimp only
        exact fun h => updateAllResting_sound h.bounded
  cool _ sound := heatTick_sound sound.limits
  recalled p _ := by
    unfold recallSettings
    split
    · exact fun h => h
    · split
      · dsimp only
        exact fun h => recallAll_heat _ h.bounded
      · exact fun h => h
  pin rate1 rate0 _ sound _ := pinReset_heat sound rate1 rate0

/-- Settles O57: a coil that gains heat past HeatHard rests, and only a fall below HeatSoft ends it. -/
theorem heatStaysSound : Obligations.HeatStaysSound :=
  fun _ _ settings sound run => heatKept.acts.ofStep settings run sound

end Sys2Proof.Machine
end

section
/-! PROOFS. The receive buffer stays within its 4096 bytes (R163, R164): what the roll, the lines and the writes do leaves it, and
a hunt leaves no more bytes than it went through. -/

namespace Sys2Proof.Machine

/-! ### What leaves the receive buffer -/

/-- The candidate and the requests that wait are the same. -/
structure SameReceiver (p q : Part) : Prop where
  candidate : q.link.candidate = p.link.candidate
  waiting : q.link.waiting = p.link.waiting

theorem LinesOnly.receiver {p q : Part} (h : LinesOnly p q) : SameReceiver p q :=
  ⟨by rw [h.link], by rw [h.link]⟩

theorem reportFault_frame (m : LineNo) (kind : FaultKind) (p : Part) : LinesOnly p (reportFault m kind p) := by
  unfold reportFault
  split
  · exact faultKey_frame _ _ p
  · exact faultPedal_frame _ _ p

theorem lineDeadline_frame (m : LineNo) (p : Part) : LinesOnly p (lineDeadline m p) := by
  unfold lineDeadline
  split
  · exact expireEntry_frame _ p
  · exact .refl p

theorem updateNotices_receiver (f : Notices → Notices) (p : Part) : SameReceiver p (updateNotices f p) :=
  ⟨by rw [updateNotices_link], by rw [updateNotices_link]⟩

theorem sameReceiver_roll : KeptByRoll SameReceiver where
  refl _ := ⟨rfl, rfl⟩
  trans h g := ⟨g.candidate.trans h.candidate, g.waiting.trans h.waiting⟩
  choices _ _ := ⟨rfl, rfl⟩
  setLevels _ _ _ := ⟨rfl, rfl⟩
  setInputs _ _ _ _ _ _ := ⟨rfl, rfl⟩
  setExpression _ _ := ⟨rfl, rfl⟩
  setPedalInputs _ _ _ _ _ := ⟨rfl, rfl⟩
  updateNotices f p := updateNotices_receiver f p
  setFeed _ _ := ⟨rfl, rfl⟩
  setRing _ _ := ⟨rfl, rfl⟩
  setTracks _ _ := ⟨rfl, rfl⟩
  setCues _ _ := ⟨rfl, rfl⟩
  setLead _ _ := ⟨rfl, rfl⟩
  setPlayer _ _ := ⟨rfl, rfl⟩
  reported _ _ := ⟨rfl, rfl⟩
  lift d depth p := (liftPedal_frame d depth p).receiver
  drop d p := (dropPedal_frame d p).receiver
  onset o p := (takeOnset_frame o p).receiver
  noteOff k p := (noteOff_frame k p).receiver
  release restore p := (releaseKeyLines_frame restore p).receiver
  holds p := (releaseHolds_frame p).receiver
  report m kind p := (reportFault_frame m kind p).receiver
  clearFault d p := (clearPedalFault_frame d p).receiver
  restoreKey k p _ := (restoreKey_frame k p).receiver

theorem sameReceiver_writes : KeptByWrites SameReceiver where
  toKeptByRoll := sameReceiver_roll
  withSettings _ _ _ _ _ := ⟨rfl, rfl⟩
  applyHold d holding duty p := (applyHold_frame d holding duty p).receiver
  guards p := (endElapsedGuards_frame p).receiver
  rebase _ := ⟨rfl, rfl⟩
  budget v p := by
    unfold writeBudgetUnitsValue writeBudget writeAgainst
    split
    · exact ⟨rfl, rfl⟩
    · split
      · exact ⟨rfl, rfl⟩
      · split <;> exact ⟨rfl, rfl⟩
  soft v p := by
    unfold writeHeatSoftValue
    split
    · exact ⟨rfl, rfl⟩
    · split
      · exact ⟨rfl, rfl⟩
      · dsimp only
        refine sameReceiver_roll.trans ?_ (updateAllResting_frame _).receiver
        exact ⟨rfl, rfl⟩
  hard v p := by
    unfold writeHeatHardValue
    split
    · exact ⟨rfl, rfl⟩
    · split
      · exact ⟨rfl, rfl⟩
      · dsimp only
        refine sameReceiver_roll.trans ?_ (updateAllResting_frame _).receiver
        exact ⟨rfl, rfl⟩

theorem sameReceiver_recall (p : Part) : SameReceiver p (recallSettings p).2 := by
  have roll := sameReceiver_roll
  have writes := sameReceiver_writes
  unfold recallSettings
  split
  · exact ⟨rfl, rfl⟩
  · split
    · unfold recallAll
      dsimp only
      refine roll.trans ?_ (writes.applyRailHold _)
      refine roll.trans ?_ (writes.applyHold _ _ _ _)
      refine roll.trans ?_ (writes.applyHold _ _ _ _)
      refine roll.trans ?_ (writes.guards _)
      refine roll.trans ?_ (updateAllResting_frame _).receiver
      refine roll.trans ?_ (roll.handRailMode _ _)
      refine roll.trans ?_ (roll.handRailMode _ _)
      refine roll.trans ?_ (roll.disarmCues _)
      exact ⟨rfl, rfl⟩
    · exact ⟨rfl, rfl⟩

/-! ### A hunt -/

/-- A candidate, or HUNT. -/
def CandidateSound (bs : List Byte) : Prop :=
  bs = [] ∨ ∃ rest state, bs = syncByte :: rest ∧ readCandidate rest = .growing state

/-- How many bytes of the buffer the outcome of a hunt takes. -/
def Scan.taken (x : Scan) : Nat :=
  x.candidate.length + (x.good.map Frame.size).sum

/-- A good frame has a payload of at most 1024 bytes and takes the bytes it was read from. -/
theorem readCandidate_good_sizes {bs : List Byte} {f : Frame} {used : Nat} (h : readCandidate bs = .good f used) :
    f.payload.length ≤ 1024 ∧ f.size = used + 1 ∧ used ≤ bs.length := by
  rw [readCandidate_eq] at h
  split_ifs at h
  simp only [Candidate.good.injEq] at h
  obtain ⟨rfl, rfl⟩ := h
  simp only [Frame.size, List.length_take, List.length_drop]
  omega

theorem scanBytes_taken (skip : Nat) (bs : List Byte) : (scanBytes skip bs).taken ≤ bs.length - skip := by
  induction skip, bs using scanBytes.induct with
  | case1 => exact Nat.zero_le _
  | case2 skip b bs ih =>
    simp only [scanBytes, List.length_cons]
    omega
  | case3 bs state hr => simp [scanBytes, hr, Scan.taken]
  | case4 bs hr ih =>
    simp only [scanBytes, hr, if_pos]
    exact ih.trans (by simp)
  | case5 bs f used hr ih =>
    have sizes := readCandidate_good_sizes hr
    simp only [scanBytes, hr, if_pos]
    simp only [Scan.taken, Scan.withGood, List.map_cons, List.sum_cons, List.length_cons] at ih ⊢
    omega
  | case6 b bs hb ih =>
    simp only [scanBytes, if_neg hb]
    exact ih.trans (by simp)

theorem scanBytes_sound (skip : Nat) (bs : List Byte) :
    CandidateSound (scanBytes skip bs).candidate ∧ ∀ f ∈ (scanBytes skip bs).good, f.payload.length ≤ 1024 := by
  induction skip, bs using scanBytes.induct with
  | case1 => exact ⟨.inl rfl, fun _ h => by cases h⟩
  | case2 skip b bs ih => exact ih
  | case3 bs state hr =>
    simp only [scanBytes, hr, if_pos]
    exact ⟨.inr ⟨bs, state, rfl, hr⟩, fun _ h => by cases h⟩
  | case4 bs hr ih =>
    simp only [scanBytes, hr, if_pos]
    exact ih
  | case5 bs f used hr ih =>
    simp only [scanBytes, hr, if_pos]
    refine ⟨ih.1, fun g hg => ?_⟩
    rcases List.mem_cons.1 hg with rfl | hg
    · exact (readCandidate_good_sizes hr).1
    · exact ih.2 g hg
  | case6 b bs hb ih =>
    simp only [scanBytes, if_neg hb]
    exact ih

/-! ### Every step -/

/-- The part after has a sound receiver if the part before has. -/
def ReceiverKept (p q : Part) : Prop := LinkSound p → LinkSound q

theorem SameReceiver.kept {p q : Part} (h : SameReceiver p q) : ReceiverKept p q := fun sound => by
  unfold LinkSound LinkPort.buffered
  rw [h.candidate, h.waiting]
  exact sound

theorem takeScan_kept {x : Scan} {p : Part} (sound : LinkSound p) (candidate : CandidateSound x.candidate)
    (good : ∀ f ∈ x.good, f.payload.length ≤ 1024) (room : x.taken + (p.link.waiting.map Frame.size).sum ≤ 4096) :
    LinkSound (takeScan x p) := by
  have scanned : SameReceiver { p with link := p.link.scanned x p.now } (takeScan x p) := by
    unfold takeScan countDiscards
    split
    · exact ⟨rfl, rfl⟩
    · refine sameReceiver_roll.trans ?_ (updateNotices_receiver _ _)
      exact ⟨rfl, rfl⟩
  unfold LinkSound LinkPort.buffered
  rw [scanned.candidate, scanned.waiting]
  refine ⟨candidate, ?_, fun f hf => ?_⟩
  · unfold Scan.taken at room
    simp only [LinkPort.scanned, List.map_append, List.sum_append]
    omega
  · rcases List.mem_append.1 hf with hf | hf
    · exact sound.2.2 f hf
    · exact good f hf

theorem acceptByte_kept (b : Byte) (p : Part) : ReceiverKept p (acceptByte b p) := fun sound => by
  unfold acceptByte
  split
  · exact sound
  · next room =>
    have taken := scanBytes_taken 0 (p.link.candidate ++ [b])
    obtain ⟨candidate, good⟩ := scanBytes_sound 0 (p.link.candidate ++ [b])
    refine takeScan_kept sound candidate good ?_
    simp only [LinkPort.buffered, Config.linkBytes, not_le] at room
    simp only [List.length_append, List.length_singleton] at taken
    omega

theorem expireGap_kept (p : Part) : ReceiverKept p (expireGap p) := fun sound => by
  unfold expireGap
  split
  · exact sound
  · next sync bs hc =>
    have taken := scanBytes_taken 0 bs
    obtain ⟨candidate, good⟩ := scanBytes_sound 0 bs
    refine takeScan_kept (x := (scanBytes 0 bs).withDiscard) sound candidate good ?_
    have full := sound.2.1
    simp only [LinkPort.buffered, hc, List.length_cons] at full
    have same : (scanBytes 0 bs).withDiscard.taken = (scanBytes 0 bs).taken := rfl
    omega

/-- A request that has been answered leaves the buffer. -/
theorem finishRequest_kept (f : Frame) (p : Part) : ReceiverKept p (finishRequest f p) := fun sound => by
  obtain ⟨candidate, full, payloads⟩ := sound
  refine ⟨candidate, ?_, fun g hg => payloads g (List.mem_of_mem_tail hg)⟩
  have less : ((p.link.waiting.tail).map Frame.size).sum ≤ (p.link.waiting.map Frame.size).sum := by
    cases p.link.waiting with
    | nil => exact le_refl _
    | cons x xs => simp
  simp only [finishRequest, Part.enqueue, LinkPort.buffered] at full ⊢
  omega

theorem expireSilence_receiver (p : Part) : SameReceiver p (expireSilence p) := by
  have roll := sameReceiver_roll
  unfold expireSilence
  split
  · exact roll.refl p
  · dsimp only
    split
    · refine roll.trans ?_ (roll.raise _ _)
      refine roll.trans ?_ (roll.pauseTransport _)
      exact ⟨rfl, rfl⟩
    · exact ⟨rfl, rfl⟩

theorem takeNoticeNames_receiver (payload : List Byte) (p : Part) : SameReceiver p (takeNoticeNames payload p).2 := by
  unfold takeNoticeNames askIfPending
  split
  · exact ⟨rfl, rfl⟩
  · dsimp only
    split
    · exact ⟨rfl, rfl⟩
    · exact ⟨by rw [askNotice_eq], by rw [askNotice_eq]⟩

theorem takeHistory_receiver (payload : List Byte) (p : Part) : SameReceiver p (takeHistory payload p).2 := by
  unfold takeHistory
  split
  · exact ⟨rfl, rfl⟩
  · split
    · exact ⟨rfl, rfl⟩
    · dsimp only
      split <;> exact ⟨rfl, rfl⟩

theorem heatTick_receiver (p : Part) : SameReceiver p (heatTick p) := by
  unfold heatTick
  refine sameReceiver_roll.trans ?_ (heatTicks_frame _).receiver
  exact ⟨rfl, rfl⟩

theorem cutSave_receiver (x : Power) (p : Part) : SameReceiver p { cutSave p with power := x } := by
  unfold cutSave
  split <;> exact ⟨rfl, rfl⟩

theorem receiverKept : KeptByActs (fun _ => True) ReceiverKept where
  refl _ _ h := h
  finished f _ q kept h := finishRequest_kept f q (kept h)
  time _ _ h := h
  byte b p _ := acceptByte_kept b p
  gap p _ := expireGap_kept p
  silence p _ := (expireSilence_receiver p).kept
  send p _ := SameReceiver.kept (by unfold sendNext; split <;> exact ⟨rfl, rfl⟩)
  place p _ := SameReceiver.kept (by unfold placeNotice; split <;> exact ⟨rfl, rfl⟩)
  notices payload p _ := (takeNoticeNames_receiver payload p).kept
  history payload p _ := (takeHistory_receiver payload p).kept
  load payload p _ := (sameReceiver_roll.loadRoll payload p).kept
  feed payload p _ := (sameReceiver_roll.feedRows payload p).kept
  run p _ := (sameReceiver_roll.runRequest p).kept
  pause p _ := (sameReceiver_roll.pauseRequest p).kept
  stop p _ := (sameReceiver_roll.stopRequest p).kept
  tempo payload p _ := (sameReceiver_roll.setTempo payload p).kept
  write item index value p _ := (sameReceiver_writes.writeItem item index value p).kept
  arm _ _ h := h
  save _ _ h := h
  saved good p _ h := by
    unfold endSave
    split
    · exact finishRequest_kept _ _ h
    · exact h
  recalled p _ := (sameReceiver_recall p).kept
  strike payload p _ := (sameReceiver_roll.strikeKey payload p).kept
  play payload p _ := (sameReceiver_roll.playPattern payload p).kept
  cancel _ _ h := h
  restore payload p _ := (sameReceiver_roll.restoreLine payload p).kept
  soft f p _ h := (sameReceiver_roll.softReset _).kept (finishRequest_kept f p h)
  held p _ := (cutSave_receiver .held p).kept
  off p _ := (cutSave_receiver .off p).kept
  pin _ _ _ _ _ := ⟨.inl rfl, Nat.zero_le 4096, fun _ h => by cases h⟩
  feedTick p _ := (sameReceiver_roll.feedTick p).kept
  starve p _ := (sameReceiver_roll.starveExpires p).kept
  expression p _ := (sameReceiver_roll.expressionTick p).kept
  heat p _ := (heatTick_receiver p).kept
  chain bits p _ := (sameReceiver_roll.readChain bits p).kept
  kick k p _ := (kickRunsOut_frame k p).receiver.kept
  gain k p _ := (holdGains_frame k p).receiver.kept
  hold k p _ := (holdEnds_frame k p).receiver.kept
  guard k p _ := (guardEnds_frame k p).receiver.kept
  deadline m p _ := (lineDeadline_frame m p).receiver.kept
  lift d p _ := (liftEnds_frame d p).receiver.kept
  settle d p _ := (settleEnds_frame d p).receiver.kept
  pattern p _ := (sameReceiver_roll.takePatternStep p).kept
  patternEnd p _ := (sameReceiver_roll.endPattern p).kept

/-- Settles O58. -/
theorem linkStaysSound : Obligations.LinkStaysSound :=
  fun _ _ sound run => receiverKept.ofStep trivial run sound

end Sys2Proof.Machine
end

section
/-! PROOFS. What a WRITE SETTING and a READ SETTING answer: the checks that come first, and the items with a range check
alone (R172, section 11.3). -/

namespace Sys2Proof.Machine

/-! ### A write goes to its item's owner -/

section
variable {s : State} {f : Frame} {item : Item}

/-- A write with WRITE_SETTING's own row. -/
theorem exec_writeSetting (h : s.part.MayTake f) (hr : rowOf f = .writeSetting) :
    Completes .writeSetting s f (writeSettingItem f.payload s.part).2 (writeSettingItem f.payload s.part).1.bytes :=
  takeRequest_answer (act := fun payload p => (writeSettingItem payload p).alone) h hr

/-- A write with a row of its own. -/
theorem exec_itemWrite {write : Nat → List Byte → Part → Written} (h : s.part.MayTakeItem f 0x20 item) :
    takeRequest item.writer (answer (itemWrite item write)) s
      = .next (s.withPart ((write (byteAt f.payload 1) (f.payload.drop 2) s.part).2.replied f
          (write (byteAt f.payload 1) (f.payload.drop 2) s.part).1.bytes)) := by
  rw [takeRequest_answer h.1 (rowOf_of_mayTakeItem h), itemWrite_of_mayTake h]

/-- A WRITE SETTING of an item answers what the item's owner makes of it (R172). -/
theorem exec_write (h : s.part.MayTakeItem f 0x20 item) :
    Completes item.writer s f (writeItem item (byteAt f.payload 1) (f.payload.drop 2) s.part).2
      (writeItem item (byteAt f.payload 1) (f.payload.drop 2) s.part).1.bytes := by
  have row := rowOf_of_mayTakeItem h
  rw [← writeSettingItem_of_mayTake h]
  cases item
  case trimLow | trimHigh | starveHold | splitKey | stepTable | stepRate | slowRate | quickRate | swellCeiling
      | accentLift | railOn | railOff | railScale | voicing | kickMin | kickMax | budgetUnits | damperCost | railCost
      | waitLimit | holdLimit | damperKick | damperKickDuty | damperSettle | railKick | railKickDuty | railSettle
      | linkSilence => exact exec_writeSetting h.1 row
  all_goals
    rw [writeSettingItem_of_mayTake h]
    exact exec_itemWrite h

/-- A write that its owner admits. -/
theorem completes_write (h : s.part.MayTakeItem f 0x20 item) {q : Part} {r : Result}
    (written : writeItem item (byteAt f.payload 1) (f.payload.drop 2) s.part = (r, q)) :
    Completes item.writer s f q r.bytes := by
  have done := exec_write h
  rwa [written] at done

/-- A write that its owner refuses. -/
theorem refuses_write (h : s.part.MayTakeItem f 0x20 item) {r : Result} {code : Byte}
    (written : writeItem item (byteAt f.payload 1) (f.payload.drop 2) s.part = (r, s.part)) (hr : r.bytes = [code]) :
    Refuses item.writer s f code := by
  have done := completes_write h written
  rwa [hr] at done

end

/-! ### The outcomes of the two plain kinds of write -/

theorem within_eq_true {low high v : Nat} : within low high v = true ↔ low ≤ v ∧ v ≤ high := by
  simp [within]

theorem within_eq_false {low high v : Nat} : within low high v = false ↔ v < low ∨ high < v := by
  simp only [within, decide_eq_false_iff_not]
  omega

theorem writeChecked_of_out {ok : Bool} (h : ok = false) (f : Settings → Settings) (p : Part) :
    writeChecked ok f p = (.range, p) := by
  simp [writeChecked, h]

theorem writeChecked_of_in {ok : Bool} (h : ok = true) (f : Settings → Settings) (p : Part) :
    writeChecked ok f p = (.ok, { p with settings := f p.settings }) := by
  simp [writeChecked, h, Part.withSettings]

theorem writeAgainst_of_out {ok : Bool} (h : ok = false) (conflict : Bool) (f : Settings → Settings) (p : Part) :
    writeAgainst ok conflict f p = (.range, p) := by
  simp [writeAgainst, h]

theorem writeAgainst_of_conflict {ok conflict : Bool} (h : ok = true) (hc : conflict = true) (f : Settings → Settings)
    (p : Part) : writeAgainst ok conflict f p = (.conflict, p) := by
  simp [writeAgainst, h, hc]

theorem writeAgainst_of_in {ok conflict : Bool} (h : ok = true) (hc : conflict = false) (f : Settings → Settings)
    (p : Part) : writeAgainst ok conflict f p = (.ok, { p with settings := f p.settings }) := by
  simp [writeAgainst, h, hc, Part.withSettings]

/-! ### The checks of both requests (O16) -/

theorem exec_writeSetting_refused {s : State} {f : Frame} (h : s.part.MayTake f) (hr : rowOf f = .writeSetting)
    {r : Result} {code : Byte} (written : writeSettingItem f.payload s.part = (r, s.part)) (hb : r.bytes = [code]) :
    Refuses .writeSetting s f code := by
  have done := exec_writeSetting h hr
  rw [written] at done
  rwa [hb] at done

theorem readSetting_refused {s : State} {f : Frame} (h : s.part.MayTake f) (hk : f.kind = 0x21) {code : Byte}
    (reply : readSettingReply f.payload s.part = [code]) : Refuses .readSetting s f code := by
  rw [Refuses, exec_readSetting h hk, reply]

/-- A write of an item with a value that is not the item's size. -/
theorem write_refused_length {s : State} {f : Frame} {item : Item} (h : s.part.MayTake f) (hk : f.kind = 0x20)
    (long : 2 ≤ f.payload.length) (hc : byteAt f.payload 0 = item.code) (size : f.payload.length ≠ 2 + item.size) :
    Refuses item.writer s f 9 := by
  have row := rowOf_item hk long hc
  have own : ∀ write : Nat → List Byte → Part → Written,
      takeRequest item.writer (answer (itemWrite item write)) s = .next (s.withPart (s.part.replied f [9])) := fun write => by
    rw [takeRequest_answer h row, itemWrite, if_neg size]
    rfl
  have written : writeSettingItem f.payload s.part = (.length, s.part) := by
    rw [writeSettingItem, if_neg (by omega)]
    simp [itemOf, hc, Item.ofCode_code, size]
  cases item
  case trimLow | trimHigh | starveHold | splitKey | stepTable | stepRate | slowRate | quickRate | swellCeiling
      | accentLift | railOn | railOff | railScale | voicing | kickMin | kickMax | budgetUnits | damperCost | railCost
      | waitLimit | holdLimit | damperKick | damperKickDuty | damperSettle | railKick | railKickDuty | railSettle
      | linkSilence => exact exec_writeSetting_refused h row written rfl
  all_goals exact own _

/-- Settles O16. -/
theorem settingRequestsChecked : Obligations.SettingRequestsChecked := by
  intro s f h
  refine ⟨fun hk short => ?_, fun hk long unknown => ?_, fun item hk long hc => ?_, fun item hk size hc => ?_,
    fun hk short => ?_, fun hk long unknown => ?_, fun item hk long hc size => write_refused_length h hk long hc size⟩
  · refine readSetting_refused h hk ?_
    rw [readSettingReply, if_pos short]
    rfl
  · refine readSetting_refused h hk ?_
    rw [readSettingReply, if_neg (by omega)]
    simp only [itemOf, unknown]
    rfl
  · refine readSetting_refused h hk ?_
    rw [readSettingReply, if_neg (by omega)]
    simp only [itemOf, hc, Item.ofCode_code]
    rw [if_pos (by omega)]
    rfl
  · rw [exec_readSetting h hk]
    cases hv : readItem item (byteAt f.payload 1) s.part with
    | some value =>
      have bytes := congrArg (fun bs => [0] ++ bs ++ value) (payload_eq_of_length_two size)
      rw [readSettingReply_of_value size hc hv, ← hc]
      exact congrArg (fun bs => Host.Outcome.next (s.withPart (s.part.replied f bs))) bytes.symm
    | none =>
      rw [readSettingReply_of_beyond size hc hv]
  · refine exec_writeSetting_refused h ?_ (r := .length) ?_ rfl
    · rw [rowOf_write hk, writeRow, if_pos short]
    · rw [writeSettingItem, if_pos short]
  · refine exec_writeSetting_refused h ?_ (r := .unknownItem) ?_ rfl
    · rw [rowOf_write hk, writeRow, if_neg (by omega)]
      simp only [itemOf, unknown]
    · rw [writeSettingItem, if_neg (by omega)]
      simp only [itemOf, unknown]

/-! ### The items with a range check alone (O17) -/

/-- The settings with a scalar item of a plain range replaced. -/
def Settings.setPlain (t : Settings) (item : Item) (v : Nat) : Settings :=
  match item with
  | .trimLow => { t with trimLow := v }
  | .trimHigh => { t with trimHigh := v }
  | .starveHold => { t with starveHold := v }
  | .stepRate => { t with stepRate := v }
  | .slowRate => { t with slowRate := v }
  | .quickRate => { t with quickRate := v }
  | .swellCeiling => { t with swellCeiling := v }
  | .accentLift => { t with accentLift := v }
  | .kickMin => { t with kickMin := v }
  | .kickMax => { t with kickMax := v }
  | .waitLimit => { t with waitLimit := v }
  | .holdLimit => { t with holdLimit := v }
  | .damperKick => { t with damperKick := v }
  | .damperKickDuty => { t with damperKickDuty := v }
  | .damperSettle => { t with damperSettle := v }
  | .railKick => { t with railKick := v }
  | .railKickDuty => { t with railKickDuty := v }
  | .railSettle => { t with railSettle := v }
  | _ => t

section
variable {item : Item} {low high : Nat}

theorem writer_of_plainRange (h : item.plainRange = some (low, high)) : item.writer = .writeSetting := by
  cases item
  case ringLow | trackMap | splitKey | onRows | offRows | cueSlot | stepTable | railOn | railOff | railMode | railScale
      | voicing | budgetUnits | damperCost | railCost | repeatGuard | pwmBase | heatSoft | heatHard | damperHoldFull
      | damperHoldPart | railHold | pedalLead | linkSilence | noticeMask | lineFaultMask | lineRestingMask => cases h
  all_goals rfl

/-- Its write checks the range and no more. -/
theorem writeItem_plain (h : item.plainRange = some (low, high)) (index : Nat) (value : List Byte) (p : Part) :
    writeItem item index value p
      = writeChecked (within low high (fieldAt value 0 2)) (fun t => t.setPlain item (fieldAt value 0 2)) p := by
  cases item
  case ringLow | trackMap | splitKey | onRows | offRows | cueSlot | stepTable | railOn | railOff | railMode | railScale
      | voicing | budgetUnits | damperCost | railCost | repeatGuard | pwmBase | heatSoft | heatHard | damperHoldFull
      | damperHoldPart | railHold | pedalLead | linkSilence | noticeMask | lineFaultMask | lineRestingMask => cases h
  all_goals
    cases h
    rfl

theorem scalarValue_setPlain (h : item.plainRange = some (low, high)) (v : Nat) (p : Part) :
    scalarValue item { p with settings := p.settings.setPlain item v } = v := by
  cases item
  case ringLow | trackMap | splitKey | onRows | offRows | cueSlot | stepTable | railOn | railOff | railMode | railScale
      | voicing | budgetUnits | damperCost | railCost | repeatGuard | pwmBase | heatSoft | heatHard | damperHoldFull
      | damperHoldPart | railHold | pedalLead | linkSilence | noticeMask | lineFaultMask | lineRestingMask => cases h
  all_goals rfl

/-- What an item reads as, the settings apart from one plain item. -/
theorem readItem_setPlain {other : Item} (ne : other ≠ item) (index v : Nat) (p : Part) :
    readItem other index { p with settings := p.settings.setPlain item v } = readItem other index p := by
  cases item
  case ringLow | trackMap | splitKey | onRows | offRows | cueSlot | stepTable | railOn | railOff | railMode | railScale
      | voicing | budgetUnits | damperCost | railCost | repeatGuard | pwmBase | heatSoft | heatHard | damperHoldFull
      | damperHoldPart | railHold | pedalLead | linkSilence | noticeMask | lineFaultMask | lineRestingMask => rfl
  all_goals
    cases other <;> first | exact absurd rfl ne | rfl

end

/-- Settles O17. -/
theorem plainSettingWritten : Obligations.PlainSettingWritten := by
  intro s f item low high h range
  have written := writeItem_plain range (byteAt f.payload 1) (f.payload.drop 2) s.part
  rw [fieldAt_valueOf] at written
  rw [← writer_of_plainRange range]
  refine ⟨fun out => ?_, fun hl hh => ⟨s.part.settings.setPlain item (valueOf f), ?_,
    scalarValue_setPlain range _ _, fun other index ne => readItem_setPlain ne index _ _⟩⟩
  · exact refuses_write h (written.trans (writeChecked_of_out (within_eq_false.2 out) _ _)) rfl
  · exact completes_write h (written.trans (writeChecked_of_in (within_eq_true.2 ⟨hl, hh⟩) _ _))

end Sys2Proof.Machine
end

section
/-! PROOFS. The items with several checks and no more effect than the setting (R44, R74, R85, R87, R99, R109, R167), RingLow
(R17) and PedalLead (R161). -/

namespace Sys2Proof.Machine

/-! ### Reading the values -/

theorem byteAt_drop (bs : List Byte) (n i : Nat) : byteAt (bs.drop n) i = byteAt bs (n + i) := by
  simp [byteAt, List.getD_eq_getElem?_getD]

theorem fieldAt_drop (bs : List Byte) (n i w : Nat) : fieldAt (bs.drop n) i w = fieldAt bs (n + i) w := by
  simp [fieldAt, List.drop_drop]

/-- A write of a scalar item reads the value of the payload. -/
theorem writeItem_scalar {f : Frame} {item : Item} {write : Nat → Nat → Part → Written}
    (own : ∀ index value p, writeItem item index value p = write index (fieldAt value 0 2) p) (p : Part) :
    writeItem item (byteAt f.payload 1) (f.payload.drop 2) p = write (byteAt f.payload 1) (valueOf f) p := by
  rw [own, fieldAt_valueOf]

theorem Half.ofCode_code (h : Half) : Half.ofCode h.code = some h := by
  cases h <;> rfl

theorem Half.ofCode_eq_none {n : Nat} (h : 1 < n) : Half.ofCode n = none := by
  match n with
  | n + 2 => rfl

section
variable {s : State} {f : Frame}

/-! ### SplitKey (R44) -/

theorem splitKey_written (h : s.part.MayTakeItem f 0x20 .splitKey) :
    (s.part.inPlay = true → Refuses .writeSetting s f 3)
      ∧ (s.part.inPlay = false → valueOf f < 20 ∨ 67 < valueOf f → Refuses .writeSetting s f 4)
      ∧ (s.part.inPlay = false → 20 ≤ valueOf f → valueOf f ≤ 67 →
          Completes .writeSetting s f
            { s.part with settings := { s.part.settings with splitKey := valueOf f } } [0]) := by
  have own := writeItem_scalar (f := f) (item := .splitKey) (write := fun _ => writeSplitKeyValue) (fun _ _ _ => rfl) s.part
  unfold writeSplitKeyValue at own
  refine ⟨fun play => refuses_write h (own.trans (if_pos play)) rfl, fun still out => ?_, fun still hl hh => ?_⟩
  · rw [still] at own
    exact refuses_write h (own.trans (writeChecked_of_out (within_eq_false.2 out) _ _)) rfl
  · rw [still] at own
    exact completes_write h (own.trans (writeChecked_of_in (within_eq_true.2 ⟨hl, hh⟩) _ _))

/-! ### StepTable (R74) -/

/-- A step table value conflicts with the one below it or above it. -/
theorem stepConflict_eq_true (table : Vector Nat 8) (i : Fin 8) (v : Nat) : stepConflict table i v = true ↔
    (∃ j : Fin 8, j.val + 1 = i.val ∧ v < table[j]) ∨ ∃ j : Fin 8, i.val + 1 = j.val ∧ table[j] < v := by
  have get : ∀ n (hn : n < 8), table.toList.getD n 0 = table[n] := fun n hn => by
    simp [List.getD_eq_getElem?_getD, hn]
  simp only [stepConflict, Bool.or_eq_true, Bool.and_eq_true, decide_eq_true_eq]
  constructor
  · rintro (⟨hi, hv⟩ | ⟨hi, hv⟩)
    · rw [get _ (by omega)] at hv
      exact .inl ⟨⟨i.val - 1, by omega⟩, by simp; omega, hv⟩
    · rw [get _ (by omega)] at hv
      exact .inr ⟨⟨i.val + 1, by omega⟩, rfl, hv⟩
  · rintro (⟨j, hj, hv⟩ | ⟨j, hj, hv⟩)
    · refine .inl ⟨by omega, ?_⟩
      have e : i.val - 1 = j.val := by omega
      rw [e, get _ j.isLt]
      exact hv
    · refine .inr ⟨by omega, ?_⟩
      rw [hj, get _ j.isLt]
      exact hv

theorem stepTable_written (h : s.part.MayTakeItem f 0x20 .stepTable) :
    (7 < byteAt f.payload 1 ∨ 1023 < valueOf f → Refuses .writeSetting s f 4)
      ∧ ∀ i : Fin 8, byteAt f.payload 1 = i.val → valueOf f ≤ 1023 →
          ((∃ j : Fin 8, j.val + 1 = i.val ∧ valueOf f < s.part.settings.stepTable[j]) →
              Refuses .writeSetting s f 5)
            ∧ ((∃ j : Fin 8, i.val + 1 = j.val ∧ s.part.settings.stepTable[j] < valueOf f) →
              Refuses .writeSetting s f 5)
            ∧ ((∀ j : Fin 8, j.val + 1 = i.val → s.part.settings.stepTable[j] ≤ valueOf f) →
              (∀ j : Fin 8, i.val + 1 = j.val → valueOf f ≤ s.part.settings.stepTable[j]) →
                Completes .writeSetting s f
                  { s.part with settings := { s.part.settings with
                      stepTable := s.part.settings.stepTable.set i (valueOf f) } } [0]) := by
  have own := writeItem_scalar (f := f) (item := .stepTable) (write := writeStepTableValue) (fun _ _ _ => rfl) s.part
  unfold writeStepTableValue at own
  constructor
  · intro out
    by_cases hi : byteAt f.payload 1 < 8
    · have i := below_val ⟨byteAt f.payload 1, hi⟩
      rw [i] at own
      exact refuses_write h (own.trans (writeAgainst_of_out (within_eq_false.2 (by omega)) _ _ _)) rfl
    · rw [below_eq_none (by omega)] at own
      exact refuses_write h own rfl
  · intro i hi hv
    rw [hi, below_val] at own
    have range : within 0 1023 (valueOf f) = true := within_eq_true.2 ⟨Nat.zero_le _, hv⟩
    have conflicts := stepConflict_eq_true s.part.settings.stepTable i (valueOf f)
    rw [← hi] at own
    refine ⟨fun c => ?_, fun c => ?_, fun low high => ?_⟩
    · exact refuses_write h (own.trans (writeAgainst_of_conflict range (conflicts.2 (.inl c)) _ _)) rfl
    · exact refuses_write h (own.trans (writeAgainst_of_conflict range (conflicts.2 (.inr c)) _ _)) rfl
    · refine completes_write h (own.trans (writeAgainst_of_in range (Bool.not_eq_true _ ▸ fun c => ?_) _ _))
      rcases conflicts.1 c with ⟨j, hj, c⟩ | ⟨j, hj, c⟩
      · exact absurd (low j hj) (not_le.2 c)
      · exact absurd (high j hj) (not_le.2 c)

/-! ### RailOn, RailOff (R85) and RailScale (R87) -/

theorem railOn_written (h : s.part.MayTakeItem f 0x20 .railOn) :
    (1022 < valueOf f → Refuses .writeSetting s f 4)
      ∧ (valueOf f ≤ 1022 → s.part.settings.railOff ≤ valueOf f → Refuses .writeSetting s f 5)
      ∧ (valueOf f ≤ 1022 → valueOf f < s.part.settings.railOff →
          Completes .writeSetting s f
            { s.part with settings := { s.part.settings with railOn := valueOf f } } [0]) := by
  have own := writeItem_scalar (f := f) (item := .railOn) (write := fun _ => writeRailOnValue) (fun _ _ _ => rfl) s.part
  unfold writeRailOnValue at own
  refine ⟨fun out => ?_, fun hv c => ?_, fun hv c => ?_⟩
  · exact refuses_write h (own.trans (writeAgainst_of_out (within_eq_false.2 (.inr out)) _ _ _)) rfl
  · exact refuses_write h (own.trans (writeAgainst_of_conflict (within_eq_true.2 ⟨Nat.zero_le _, hv⟩) (by simpa using c)
      _ _)) rfl
  · exact completes_write h (own.trans (writeAgainst_of_in (within_eq_true.2 ⟨Nat.zero_le _, hv⟩) (by simpa using c) _ _))

theorem railOff_written (h : s.part.MayTakeItem f 0x20 .railOff) :
    (valueOf f < 1 ∨ 1023 < valueOf f → Refuses .writeSetting s f 4)
      ∧ (1 ≤ valueOf f → valueOf f ≤ 1023 → valueOf f ≤ s.part.settings.railOn → Refuses .writeSetting s f 5)
      ∧ (valueOf f ≤ 1023 → s.part.settings.railOn < valueOf f →
          Completes .writeSetting s f
            { s.part with settings := { s.part.settings with railOff := valueOf f } } [0]) := by
  have own := writeItem_scalar (f := f) (item := .railOff) (write := fun _ => writeRailOffValue) (fun _ _ _ => rfl) s.part
  unfold writeRailOffValue at own
  refine ⟨fun out => ?_, fun hl hh c => ?_, fun hh c => ?_⟩
  · exact refuses_write h (own.trans (writeAgainst_of_out (within_eq_false.2 out) _ _ _)) rfl
  · exact refuses_write h (own.trans (writeAgainst_of_conflict (within_eq_true.2 ⟨hl, hh⟩) (by simpa using c) _ _)) rfl
  · exact completes_write h (own.trans (writeAgainst_of_in (within_eq_true.2 ⟨by omega, hh⟩) (by simpa using c) _ _))

theorem railScale_written (h : s.part.MayTakeItem f 0x20 .railScale) :
    (1 < byteAt f.payload 1 ∨ valueOf f < 500 ∨ 2000 < valueOf f → Refuses .writeSetting s f 4)
      ∧ ∀ x : Half, byteAt f.payload 1 = x.code → 500 ≤ valueOf f → valueOf f ≤ 2000 →
          Completes .writeSetting s f
            { s.part with settings := { s.part.settings with
                railScale := s.part.settings.railScale.set x (valueOf f) } } [0] := by
  have own := writeItem_scalar (f := f) (item := .railScale) (write := writeRailScaleValue) (fun _ _ _ => rfl) s.part
  unfold writeRailScaleValue at own
  constructor
  · intro out
    cases hx : Half.ofCode (byteAt f.payload 1) with
    | none =>
      rw [hx] at own
      exact refuses_write h own rfl
    | some x =>
      rw [hx] at own
      have half : ¬ 1 < byteAt f.payload 1 := fun c => by
        rw [Half.ofCode_eq_none c] at hx
        cases hx
      exact refuses_write h (own.trans (writeChecked_of_out (within_eq_false.2 (by omega)) _ _)) rfl
  · intro x hx hl hh
    rw [hx, Half.ofCode_code, ← hx] at own
    exact completes_write h (own.trans (writeChecked_of_in (within_eq_true.2 ⟨hl, hh⟩) _ _))

/-! ### Voicing (R99) -/

/-- The voicing that a payload carries. -/
def voicingOf (f : Frame) : Voicing :=
  { floor := byteAt f.payload 2 + 256 * byteAt f.payload 3
    span := byteAt f.payload 4 + 256 * byteAt f.payload 5
    bend := byteAt f.payload 6
    trim := if byteAt f.payload 7 < 128 then byteAt f.payload 7 else (byteAt f.payload 7 : Int) - 256
    kickDuty := byteAt f.payload 8
    holdDuty := byteAt f.payload 9 }

theorem voicing_read (f : Frame) [Decidable (voicingOf f).legal] :
    Voicing.read (f.payload.drop 2) = if (voicingOf f).legal then some (voicingOf f) else none := by
  unfold Voicing.read voicingOf Voicing.legal
  simp only [byteAt_drop, fieldAt_two, signedByte]
  congr

theorem voicing_written (h : s.part.MayTakeItem f 0x20 .voicing) :
    (87 < byteAt f.payload 1 ∨ ¬ (voicingOf f).legal → Refuses .writeSetting s f 4)
      ∧ ∀ k : KeyNo, byteAt f.payload 1 = k.val → (voicingOf f).legal →
          Completes .writeSetting s f
            { s.part with settings := { s.part.settings with
                voicing := s.part.settings.voicing.set k (voicingOf f) } } [0] := by
  classical
  have own : writeItem .voicing (byteAt f.payload 1) (f.payload.drop 2) s.part
      = writeVoicingValue (byteAt f.payload 1) (f.payload.drop 2) s.part := rfl
  unfold writeVoicingValue at own
  rw [voicing_read] at own
  constructor
  · intro out
    by_cases hk : byteAt f.payload 1 < 88
    · have k := below_val ⟨byteAt f.payload 1, hk⟩
      rw [if_neg (out.resolve_left (by omega)), k] at own
      exact refuses_write h own rfl
    · rw [below_eq_none (by omega)] at own
      exact refuses_write h own rfl
  · intro k hk legal
    rw [hk, below_val, if_pos legal, ← hk] at own
    exact completes_write h own

/-! ### The budget settings (R109) -/

/-- Nothing may kick, lift or wait at a write of the budget. -/
theorem kicking_eq_true {p : Part} : p.kicking = true ↔
    (∃ k, (p.key k).state = .kick) ∨ (∃ d, (p.pedal d).state = .lifting) ∨ p.arbiter.wait ≠ [] := by
  rw [← not_iff_not, Bool.not_eq_true, kicking_eq_false]
  simp

/-- A write of the budget, by its checks in their order. -/
theorem budget_written {item : Item} {low high v : Nat} {conflict : Bool} {set : Settings → Settings}
    (h : s.part.MayTakeItem f 0x20 item) (writer : item.writer = .writeSetting)
    (own : writeItem item (byteAt f.payload 1) (f.payload.drop 2) s.part
      = writeBudget (within low high v) conflict set s.part) :
    let busy := (∃ k, (s.part.key k).state = .kick) ∨ (∃ d, (s.part.pedal d).state = .lifting)
      ∨ s.part.arbiter.wait ≠ []
    (busy → Refuses .writeSetting s f 3)
      ∧ (¬ busy → v < low ∨ high < v → Refuses .writeSetting s f 4)
      ∧ (¬ busy → low ≤ v → v ≤ high → conflict = true → Refuses .writeSetting s f 5)
      ∧ (¬ busy → low ≤ v → v ≤ high → conflict = false →
          Completes .writeSetting s f { s.part with settings := set s.part.settings } [0]) := by
  intro busy
  have kicks : s.part.kicking = true ↔ busy := kicking_eq_true
  unfold writeBudget at own
  rw [← writer]
  refine ⟨fun hb => refuses_write h (own.trans (if_pos (kicks.2 hb))) rfl, fun hb out => ?_, fun hb hl hh c => ?_,
    fun hb hl hh c => ?_⟩
  all_goals rw [if_neg (mt kicks.1 hb)] at own
  · exact refuses_write h (own.trans (writeAgainst_of_out (within_eq_false.2 out) _ _ _)) rfl
  · exact refuses_write h (own.trans (writeAgainst_of_conflict (within_eq_true.2 ⟨hl, hh⟩) c _ _)) rfl
  · exact completes_write h (own.trans (writeAgainst_of_in (within_eq_true.2 ⟨hl, hh⟩) c _ _))

/-! ### LinkSilence (R167) -/

theorem linkSilence_written (h : s.part.MayTakeItem f 0x20 .linkSilence) :
    ((1 ≤ valueOf f ∧ valueOf f ≤ 49) ∨ 5000 < valueOf f → Refuses .writeSetting s f 4)
      ∧ (valueOf f = 0 ∨ (50 ≤ valueOf f ∧ valueOf f ≤ 5000) →
          Completes .writeSetting s f
            { s.part with settings := { s.part.settings with linkSilence := valueOf f } } [0]) := by
  have own := writeItem_scalar (f := f) (item := .linkSilence) (write := fun _ => writeLinkSilenceValue) (fun _ _ _ => rfl)
    s.part
  unfold writeLinkSilenceValue at own
  have range : (valueOf f == 0 || within 50 5000 (valueOf f)) = true
      ↔ valueOf f = 0 ∨ (50 ≤ valueOf f ∧ valueOf f ≤ 5000) := by
    rw [Bool.or_eq_true, within_eq_true, beq_iff_eq]
  refine ⟨fun out => ?_, fun hin => ?_⟩
  · refine refuses_write h (own.trans (writeChecked_of_out (Bool.not_eq_true _ ▸ mt range.1 ?_) _ _)) rfl
    omega
  · exact completes_write h (own.trans (writeChecked_of_in (range.2 hin) _ _))

end

/-- Settles O18. -/
theorem checkedSettingWritten : Obligations.CheckedSettingWritten := by
  intro s f
  refine ⟨splitKey_written, stepTable_written, railOn_written, railOff_written, railScale_written, voicing_written, ?_,
    linkSilence_written⟩
  rintro item (rfl | rfl | rfl) h
  · have own := writeItem_scalar (f := f) (item := .budgetUnits) (write := fun _ => writeBudgetUnitsValue) (fun _ _ _ => rfl)
      s.part
    have done := budget_written h rfl own
    simpa using done
  · have own := writeItem_scalar (f := f) (item := .damperCost) (write := fun _ => writeDamperCostValue) (fun _ _ _ => rfl)
      s.part
    have done := budget_written h rfl own
    simpa using done
  · have own := writeItem_scalar (f := f) (item := .railCost) (write := fun _ => writeRailCostValue) (fun _ _ _ => rfl)
      s.part
    have done := budget_written h rfl own
    simpa using done

/-- Settles O19. -/
theorem ringLowAndPedalLeadWritten : Obligations.RingLowAndPedalLeadWritten := by
  intro s f
  constructor
  · intro h
    have own := writeItem_scalar (f := f) (item := .ringLow) (write := fun _ => writeRingLowValue) (fun _ _ _ => rfl) s.part
    unfold writeRingLowValue at own
    refine ⟨fun out => ?_, fun hl hh => ?_⟩
    · rw [within_eq_false.2 out] at own
      exact refuses_write h own rfl
    · rw [within_eq_true.2 ⟨hl, hh⟩] at own
      exact completes_write h own
  · intro h
    have own := writeItem_scalar (f := f) (item := .pedalLead) (write := fun _ => writePedalLeadValue) (fun _ _ _ => rfl)
      s.part
    unfold writePedalLeadValue at own
    refine ⟨fun play => refuses_write h (own.trans (if_pos play)) rfl, fun still out => ?_, fun still hh => ?_⟩
    · rw [still, within_eq_false.2 (.inr out)] at own
      exact refuses_write h own rfl
    · rw [still, within_eq_true.2 ⟨Nat.zero_le _, hh⟩] at own
      exact completes_write h own

end Sys2Proof.Machine
end

section
/-! PROOFS. The items whose write moves a block besides: the track map (R40), the debounce counts (R50), the cue slots (R60) and
ARM CUES (R63), the hold duties (R161) and the masks (R169). -/

namespace Sys2Proof.Machine

section
variable {s : State} {f : Frame}

/-! ### The track map (R37, R40) -/

theorem TrackFunction.ofCode_code (x : TrackFunction) : TrackFunction.ofCode x.code = some x := by
  cases x <;> rfl

theorem TrackFunction.code_of_ofCode {n : Nat} {x : TrackFunction} (h : TrackFunction.ofCode n = some x) : x.code = n := by
  match n with
  | 0 | 1 | 2 | 3 | 4 | 5 | 6 | 7 | 8 | 9 | 10 => cases h; rfl
  | n + 11 => cases h

theorem TrackFunction.code_le (x : TrackFunction) : x.code ≤ 10 := by
  cases x <;> decide

theorem isExpression_iff (x : TrackFunction) : x.isExpression = true ↔ 2 ≤ x.code ∧ x.code ≤ 7 := by
  cases x <;> decide

theorem of_below_eq_some {bound n : Nat} {i : Fin bound} (h : below bound n = some i) : n = i.val := by
  unfold below at h
  split at h
  · cases h; rfl
  · cases h

theorem Half.code_of_ofCode {n : Nat} {x : Half} (h : Half.ofCode n = some x) : n = x.code := by
  match n with
  | 0 | 1 => cases h; rfl
  | n + 2 => cases h

/-- The codes of a value that the map admits. -/
theorem trackEntry_of_read {bs : List Byte} {e : TrackEntry} (h : TrackEntry.read bs = some e) :
    byteAt bs 0 = e.function.code ∧ (e.function = .key → byteAt bs 1 ≤ 87)
      ∧ (e.function.isExpression = true → byteAt bs 2 ≤ 1) ∧ byteAt bs 3 ≤ 111 := by
  unfold TrackEntry.read at h
  split at h
  · cases h
  · next x hx =>
    split at h
    · next key half source hkey hhalf hsource =>
      cases h
      refine ⟨(TrackFunction.code_of_ofCode hx).symm, fun c => ?_, fun c => ?_, ?_⟩
      · rw [entryKey, if_pos c] at hkey
        have := of_below_eq_some hkey
        omega
      · rw [entryHalf, if_pos c] at hhalf
        rw [Half.code_of_ofCode hhalf]
        cases half <;> decide
      · have := of_below_eq_some hsource
        omega
    · cases h

/-- The entry that a value in range names. -/
theorem trackEntry_read {bs : List Byte} {e : TrackEntry} (function : e.function.code = byteAt bs 0)
    (key : e.key.val = (if e.function = .key then byteAt bs 1 else 0))
    (half : e.half.code = (if e.function.isExpression then byteAt bs 2 else 0)) (source : e.source.val = byteAt bs 3) :
    TrackEntry.read bs = some e := by
  have hkey : entryKey e.function (byteAt bs 1) = some e.key := by
    unfold entryKey
    split at key
    · next c => rw [if_pos c, ← key, below_val]
    · next c => rw [if_neg c, Fin.ext (a := e.key) (b := 0) key]
  have hhalf : entryHalf e.function (byteAt bs 2) = some e.half := by
    unfold entryHalf
    split at half
    · next c => rw [if_pos c, ← half, Half.ofCode_code]
    · next c =>
      rw [if_neg c]
      cases hx : e.half with
      | bass => rfl
      | treble => rw [hx] at half; cases half
  unfold TrackEntry.read
  rw [← function, TrackFunction.ofCode_code]
  simp only [hkey, hhalf, ← source, below_val]

theorem mapConflict_eq_true {map : Vector TrackEntry 112} {t : TrackNo} {e : TrackEntry} :
    mapConflict map t e = true ↔ ∃ u : TrackNo, u ≠ t ∧ map[u].sameTarget e = true := by
  simp [mapConflict, allTracks]

/-- Settles O20. -/
theorem trackMapWritten : Obligations.TrackMapWritten := by
  intro s f h
  have own : writeItem .trackMap (byteAt f.payload 1) (f.payload.drop 2) s.part
      = writeTrackMapValue (byteAt f.payload 1) (f.payload.drop 2) s.part := rfl
  unfold writeTrackMapValue at own
  refine ⟨fun play => refuses_write h (own.trans (if_pos play)) rfl, fun still out => ?_,
    fun t e still _ ht function key half source => ?_⟩
  · rw [still, if_neg Bool.false_ne_true] at own
    refine refuses_write (r := .range) h (own.trans ?_) rfl
    split
    · next t e ht he =>
      obtain ⟨function, key, half, source⟩ := trackEntry_of_read he
      simp only [byteAt_drop, Nat.reduceAdd] at function key half source
      have code := TrackFunction.code_le e.function
      have track := of_below_eq_some ht
      refine absurd ⟨by omega, by omega, fun c => key ?_, fun c => half ?_, source⟩ out
      · rw [function, TrackFunction.ofCode_code] at c
        exact Option.some.inj c
      · rwa [isExpression_iff, ← function]
    · rfl
  · have read : TrackEntry.read (f.payload.drop 2) = some e := by
      apply trackEntry_read <;> rw [byteAt_drop] <;> assumption
    rw [still, if_neg Bool.false_ne_true, read, ht, below_val, ← ht] at own
    refine ⟨fun c => ?_, fun apart => ?_⟩
    · exact refuses_write h (own.trans (if_pos (mapConflict_eq_true.2 c))) rfl
    · refine completes_write h (own.trans (if_neg fun c => ?_))
      obtain ⟨u, hu, same⟩ := mapConflict_eq_true.1 c
      rw [apart u hu] at same
      cases same

/-! ### The debounce counts (R50) -/

/-- Settles O21. -/
theorem debounceCountsWritten : Obligations.DebounceCountsWritten := by
  rintro s f item (rfl | rfl) h
  · have own := writeItem_scalar (f := f) (item := .onRows) (write := fun _ => writeOnRowsValue) (fun _ _ _ => rfl) s.part
    unfold writeOnRowsValue at own
    have dropped : Debounce.dropOpening = fun d => match Item.onRows, d with
        | .onRows, .opening _ _ => .closed
        | .offRows, .closing _ => .opened
        | _, d => d := by
      funext d
      cases d <;> rfl
    refine ⟨fun play => refuses_write h (own.trans (if_pos play)) rfl, fun still out => ?_, fun still hl hh => ?_⟩
    · rw [still, within_eq_false.2 out] at own
      exact refuses_write h own rfl
    · rw [still, within_eq_true.2 ⟨hl, hh⟩, dropped] at own
      exact completes_write h own
  · have own := writeItem_scalar (f := f) (item := .offRows) (write := fun _ => writeOffRowsValue) (fun _ _ _ => rfl) s.part
    unfold writeOffRowsValue at own
    have dropped : Debounce.dropClosing = fun d => match Item.offRows, d with
        | .onRows, .opening _ _ => .closed
        | .offRows, .closing _ => .opened
        | _, d => d := by
      funext d
      cases d <;> rfl
    refine ⟨fun play => refuses_write h (own.trans (if_pos play)) rfl, fun still out => ?_, fun still hl hh => ?_⟩
    · rw [still, within_eq_false.2 out] at own
      exact refuses_write h own rfl
    · rw [still, within_eq_true.2 ⟨hl, hh⟩, dropped] at own
      exact completes_write h own

/-! ### The cue slots (R59, R60) and ARM CUES (R63) -/

theorem CueAction.ofCode_code (a : CueAction) : CueAction.ofCode a.code = some a := by
  cases a <;> rfl

theorem CueAction.code_of_ofCode {n : Nat} {a : CueAction} (h : CueAction.ofCode n = some a) : n = a.code := by
  match n with
  | 0 | 1 | 2 | 3 | 4 => cases h; rfl
  | n + 5 => cases h

theorem CueAction.code_le (a : CueAction) : a.code ≤ 4 := by
  cases a <;> decide

theorem admits_iff (a : CueAction) (n : Nat) : a.admits n = true ↔ (a.code = 3 → 10 ≤ n ∧ n ≤ 200) := by
  cases a <;> simp [CueAction.admits, CueAction.code]

/-- The slot that a value names, with its action. -/
def slotOf (bs : List Byte) (a : CueAction) : CueSlot :=
  { pattern := BitVec.ofNat 112 (fieldAt bs 0 14)
    mask := BitVec.ofNat 112 (fieldAt bs 14 14)
    holdRows := byteAt bs 28
    action := a
    parameter := if a = .tempo ∨ a = .trim then fieldAt bs 30 2 else 0
    once := byteAt bs 32 == 1 }

theorem stored_eq (a : CueAction) (n : Nat) : a.stored n = if a = .tempo ∨ a = .trim then n else 0 := by
  cases a <;> rfl

/-- What a cue slot's value reads as. -/
theorem cueSlot_read (bs : List Byte) (a : CueAction) (h : byteAt bs 29 = a.code) : CueSlot.read bs =
    if (1 ≤ byteAt bs 28 ∧ byteAt bs 28 ≤ 16) ∧ byteAt bs 32 ≤ 1 ∧ (a.code = 3 → 10 ≤ fieldAt bs 30 2 ∧ fieldAt bs 30 2 ≤ 200)
    then some (slotOf bs a) else none := by
  unfold CueSlot.read slotOf
  rw [h, CueAction.ofCode_code]
  simp only [stored_eq, admits_iff, trackSetAt]

theorem cueSlot_of_read {bs : List Byte} {c : CueSlot} (h : CueSlot.read bs = some c) :
    ∃ a : CueAction, byteAt bs 29 = a.code ∧ ((1 ≤ byteAt bs 28 ∧ byteAt bs 28 ≤ 16) ∧ byteAt bs 32 ≤ 1
      ∧ (a.code = 3 → 10 ≤ fieldAt bs 30 2 ∧ fieldAt bs 30 2 ≤ 200)) := by
  cases hx : CueAction.ofCode (byteAt bs 29) with
  | none =>
    rw [CueSlot.read, hx] at h
    cases h
  | some a =>
    have code := CueAction.code_of_ofCode hx
    rw [cueSlot_read bs a code] at h
    split at h
    · next c => exact ⟨a, code, c⟩
    · cases h

theorem rowOf_armCues {f : Frame} (h : f.kind = 0x22) : rowOf f = .armCues := by
  simp [rowOf, h]

/-- Settles O22. -/
theorem cueSlotWrittenAndArmed : Obligations.CueSlotWrittenAndArmed := by
  intro s f
  constructor
  · intro h inRange pattern mask
    have own : writeItem .cueSlot (byteAt f.payload 1) (f.payload.drop 2) s.part
        = writeCueSlotValue (byteAt f.payload 1) (f.payload.drop 2) s.part := rfl
    unfold writeCueSlotValue at own
    refine ⟨fun out => ?_, fun hin clash => ?_, fun i action hin clear hi code => ?_⟩
    · refine refuses_write (r := .range) h (own.trans ?_) rfl
      split
      · next i c hi hc =>
        obtain ⟨a, code, rows, once, parameter⟩ := cueSlot_of_read hc
        simp only [byteAt_drop, fieldAt_drop, Nat.reduceAdd] at code rows once parameter
        have slot := of_below_eq_some hi
        have action := CueAction.code_le a
        exact absurd ⟨by omega, rows, by omega, once, fun c => parameter (by omega)⟩ out
      · rfl
    · obtain ⟨slot, rows, action, once, parameter⟩ := hin
      cases hx : CueAction.ofCode (byteAt f.payload 31) with
      | none =>
        exfalso
        generalize byteAt f.payload 31 = n at hx action
        match n with
        | 0 | 1 | 2 | 3 | 4 => cases hx
        | n + 5 => omega
      | some a =>
        have code := CueAction.code_of_ofCode hx
        have i := below_val ⟨byteAt f.payload 1, show byteAt f.payload 1 < 4 by omega⟩
        rw [i, cueSlot_read _ a (by rw [byteAt_drop]; exact code)] at own
        simp only [byteAt_drop, fieldAt_drop, Nat.reduceAdd] at own
        rw [if_pos ⟨rows, once, fun c => parameter (by rw [code]; exact c)⟩] at own
        simp only [slotOf, fieldAt_drop] at own
        exact refuses_write h (own.trans (if_neg clash)) rfl
    · obtain ⟨slot, rows, -, once, parameter⟩ := hin
      rw [hi, below_val, cueSlot_read _ action (by rw [byteAt_drop]; exact code.symm)] at own
      simp only [byteAt_drop, fieldAt_drop, Nat.reduceAdd] at own
      rw [if_pos ⟨rows, once, fun c => parameter (by rw [← code]; exact c)⟩, ← hi] at own
      simp only [slotOf, fieldAt_drop, byteAt_drop] at own
      exact completes_write h (own.trans (if_pos clear))
  · intro h hk
    have row := rowOf_armCues hk
    constructor
    · intro some
      have done := takeRequest_answer (act := fixedLength 0 fun _ p => (Result.ok.bytes, armAllCues p)) h row
      rw [fixedLength, if_neg (by simpa using some)] at done
      exact done
    · intro none
      have done := takeRequest_answer (act := fixedLength 0 fun _ p => (Result.ok.bytes, armAllCues p)) h row
      rw [fixedLength, if_pos (by simp [none])] at done
      exact done

end

end Sys2Proof.Machine
end

section
/-! PROOFS. The hold duties (R161) and the masks (R169). -/

namespace Sys2Proof.Machine

section
variable {s : State} {f : Frame}

/-! ### The hold duties (R161) -/

/-- A pedal that holds by the duty takes the new one. -/
def PedalRecord.redriven (r : PedalRecord) (holds : Prop) [Decidable holds] (t : Settings) (now : Time) (duty : Nat) :
    PedalRecord :=
  if holds then { r with drive := r.drive.setDuty t.pwmBase now (some duty) } else r

theorem applyHold_eq (d : Pedal) (holding : PedalRecord → Bool) (holds : Prop) [Decidable holds] (duty : Nat) (p : Part)
    (same : holding (p.pedal d) = true ↔ holds) :
    applyHold d holding duty p = p.setPedal d ((p.pedal d).redriven holds p.settings p.now duty) := by
  unfold applyHold PedalRecord.redriven
  by_cases c : holds
  · rw [if_pos (same.2 c), if_pos c]
    rfl
  · rw [if_neg (mt same.1 c), if_neg c]
    cases d <;> rfl

theorem holdsFull_iff (r : PedalRecord) : r.holdsFull = true ↔ r.state = .raised ∧ r.depth = .full := by
  simp [PedalRecord.holdsFull]

theorem holdsPart_iff (r : PedalRecord) : r.holdsPart = true
    ↔ (r.state = .raised ∧ r.depth = .part) ∨ (r.state = .waiting ∧ r.origin = some .deepen) := by
  simp [PedalRecord.holdsPart]

theorem isRaised_iff (r : PedalRecord) : r.isRaised = true ↔ r.state = .raised := by
  simp [PedalRecord.isRaised]

/-- Settles O26. -/
theorem pedalHoldsWritten : Obligations.PedalHoldsWritten := by
  intro s f v driven
  have full := writeItem_scalar (f := f) (item := .damperHoldFull) (write := fun _ => writeDamperHoldFullValue)
    (fun _ _ _ => rfl) s.part
  have part := writeItem_scalar (f := f) (item := .damperHoldPart) (write := fun _ => writeDamperHoldPartValue)
    (fun _ _ _ => rfl) s.part
  have rail := writeItem_scalar (f := f) (item := .railHold) (write := fun _ => writeRailHoldValue)
    (fun _ _ _ => rfl) s.part
  unfold writeDamperHoldFullValue at full
  unfold writeDamperHoldPartValue at part
  unfold writeRailHoldValue at rail
  refine ⟨?_, fun h hl hh => ?_, fun h hl hh => ?_, fun h hl hh => ?_⟩
  · rintro item (rfl | rfl | rfl) h out
    · rw [within_eq_false.2 out] at full
      exact refuses_write h full rfl
    · rw [within_eq_false.2 out] at part
      exact refuses_write h part rfl
    · rw [within_eq_false.2 out] at rail
      exact refuses_write h rail rfl
  · rw [within_eq_true.2 ⟨hl, hh⟩, Bool.not_true, if_neg Bool.false_ne_true] at full
    refine ⟨fun c => refuses_write h (full.trans (if_pos c)) rfl, fun c => ?_⟩
    rw [if_neg (not_lt.2 c), applyHoldFull, applyHold_eq _ _ _ _ _ (holdsFull_iff _)] at full
    exact completes_write h full
  · rw [within_eq_true.2 ⟨hl, hh⟩, Bool.not_true, if_neg Bool.false_ne_true] at part
    refine ⟨fun c => refuses_write h (part.trans (if_pos c)) rfl, fun c => ?_⟩
    rw [if_neg (not_lt.2 c), applyHoldPart, applyHold_eq _ _ _ _ _ (holdsPart_iff _)] at part
    exact completes_write h part
  · rw [within_eq_true.2 ⟨hl, hh⟩, if_pos rfl, applyRailHold, applyHold_eq .bassRail _ _ _ _ (isRaised_iff _),
      applyHold_eq .trebleRail _ _ _ _ (isRaised_iff _)] at rail
    exact completes_write h rail

/-! ### The masks (R169) -/

/-- A set with one member put in or taken out. -/
theorem setMember_getLsbD {w : Nat} (x : BitVec w) (i : Nat) (on : Bool) {j : Nat} (hj : j < w) :
    (setMember x i on).getLsbD j = if i = j then on else x.getLsbD j := by
  unfold setMember
  cases on <;> by_cases e : i = j
  · simp [hj, e]
  · simp [hj, e]
    omega
  · simp [hj, e]
  · simp [hj, e]
    omega

theorem maskWritten_ok {item : Item} (h : s.part.MayTakeItem f 0x20 item) {change : Notices → Notices}
    (own : writeItem item (byteAt f.payload 1) (f.payload.drop 2) s.part = (.ok, updateNotices change s.part)) :
    Completes item.writer s f
      { s.part with
        notices := change s.part.notices
        link := { s.part.link with
          noticeAsked := s.part.link.noticeAsked
            || (s.part.notices.summary == 0 && (change s.part.notices).summary != 0
              && !decide (TransmitItem.notice ∈ s.part.link.queue)) } } [0] := by
  rw [updateNotices_eq] at own
  exact completes_write h own

/-- Settles O27. -/
theorem masksWritten : Obligations.MasksWritten := by
  rintro s f item (rfl | rfl | rfl) h inRange
  · have own := writeItem_scalar (f := f) (item := .noticeMask) (write := fun _ => writeNoticeMaskValue)
      (fun _ _ _ => rfl) s.part
    unfold writeNoticeMaskValue at own
    refine ⟨fun out => refuses_write h (own.trans (if_neg out)) rfl, fun hin => ⟨_, maskWritten_ok h
      (own.trans (if_pos hin)), rfl, fun m => ?_, fun k => ?_, rfl⟩⟩
    · simp
    · simp
  · have own := writeItem_scalar (f := f) (item := .lineFaultMask) (write := writeLineFaultMaskValue)
      (fun _ _ _ => rfl) s.part
    unfold writeLineFaultMaskValue at own
    have range : inRange ↔ byteAt f.payload 1 < 91 ∧ valueOf f ≤ 1 := by
      simp only [inRange]
      omega
    refine ⟨fun out => refuses_write h (own.trans (if_neg (mt range.2 out))) rfl, fun hin => ⟨_, maskWritten_ok h
      (own.trans (if_pos (range.1 hin))), rfl, fun m => ?_, fun k => ?_, rfl⟩⟩
    · simp only [setMember_getLsbD _ _ _ m.isLt, true_and]
      rfl
    · simp
  · have own := writeItem_scalar (f := f) (item := .lineRestingMask) (write := writeLineRestingMaskValue)
      (fun _ _ _ => rfl) s.part
    unfold writeLineRestingMaskValue at own
    have range : inRange ↔ byteAt f.payload 1 < 88 ∧ valueOf f ≤ 1 := by
      simp only [inRange]
      omega
    refine ⟨fun out => refuses_write h (own.trans (if_neg (mt range.2 out))) rfl, fun hin => ⟨_, maskWritten_ok h
      (own.trans (if_pos (range.1 hin))), rfl, fun m => ?_, fun k => ?_, rfl⟩⟩
    · simp
    · simp only [setMember_getLsbD _ _ _ k.isLt, true_and]
      rfl

end

end Sys2Proof.Machine
end

section
/-! PROOFS. Every step keeps every setting legal (section 11.3): the writes by their checks, and all else by leaving them. -/

namespace Sys2Proof.Machine

/-! ### What leaves the settings -/

/-- The working settings, the store and the settings being saved are the same. -/
structure SameSettings (p q : Part) : Prop where
  settings : q.settings = p.settings
  store : q.store = p.store
  saving : q.saving = p.saving

theorem LinesOnly.sameSettings {p q : Part} (h : LinesOnly p q) : SameSettings p q :=
  ⟨h.settings, h.store, h.saving⟩

theorem sameSettings_roll : KeptByRoll SameSettings where
  refl _ := ⟨rfl, rfl, rfl⟩
  trans h g := ⟨g.settings.trans h.settings, g.store.trans h.store, g.saving.trans h.saving⟩
  choices _ _ := ⟨rfl, rfl, rfl⟩
  setLevels _ _ _ := ⟨rfl, rfl, rfl⟩
  setInputs _ _ _ _ _ _ := ⟨rfl, rfl, rfl⟩
  setExpression _ _ := ⟨rfl, rfl, rfl⟩
  setPedalInputs _ _ _ _ _ := ⟨rfl, rfl, rfl⟩
  updateNotices _ _ := ⟨rfl, rfl, rfl⟩
  setFeed _ _ := ⟨rfl, rfl, rfl⟩
  setRing _ _ := ⟨rfl, rfl, rfl⟩
  setTracks _ _ := ⟨rfl, rfl, rfl⟩
  setCues _ _ := ⟨rfl, rfl, rfl⟩
  setLead _ _ := ⟨rfl, rfl, rfl⟩
  setPlayer _ _ := ⟨rfl, rfl, rfl⟩
  reported _ _ := ⟨rfl, rfl, rfl⟩
  lift d depth p := (liftPedal_frame d depth p).sameSettings
  drop d p := (dropPedal_frame d p).sameSettings
  onset o p := (takeOnset_frame o p).sameSettings
  noteOff k p := (noteOff_frame k p).sameSettings
  release restore p := (releaseKeyLines_frame restore p).sameSettings
  holds p := (releaseHolds_frame p).sameSettings
  report m kind p := (reportFault_frame m kind p).sameSettings
  clearFault d p := (clearPedalFault_frame d p).sameSettings
  restoreKey k p _ := (restoreKey_frame k p).sameSettings

/-- The store and the settings being saved are the same. -/
structure SameStore (p q : Part) : Prop where
  store : q.store = p.store
  saving : q.saving = p.saving

theorem SameStore.trans {p q r : Part} (h : SameStore p q) (g : SameStore q r) : SameStore p r :=
  ⟨g.store.trans h.store, g.saving.trans h.saving⟩

theorem SameSettings.sameStore {p q : Part} (h : SameSettings p q) : SameStore p q := ⟨h.store, h.saving⟩

theorem sameStore_writes : KeptByWrites SameStore where
  refl _ := ⟨rfl, rfl⟩
  trans h g := h.trans g
  choices _ _ := ⟨rfl, rfl⟩
  setLevels _ _ _ := ⟨rfl, rfl⟩
  setInputs _ _ _ _ _ _ := ⟨rfl, rfl⟩
  setExpression _ _ := ⟨rfl, rfl⟩
  setPedalInputs _ _ _ _ _ := ⟨rfl, rfl⟩
  updateNotices _ _ := ⟨rfl, rfl⟩
  setFeed _ _ := ⟨rfl, rfl⟩
  setRing _ _ := ⟨rfl, rfl⟩
  setTracks _ _ := ⟨rfl, rfl⟩
  setCues _ _ := ⟨rfl, rfl⟩
  setLead _ _ := ⟨rfl, rfl⟩
  setPlayer _ _ := ⟨rfl, rfl⟩
  reported _ _ := ⟨rfl, rfl⟩
  lift d depth p := (sameSettings_roll.lift d depth p).sameStore
  drop d p := (sameSettings_roll.drop d p).sameStore
  onset o p := (sameSettings_roll.onset o p).sameStore
  noteOff k p := (sameSettings_roll.noteOff k p).sameStore
  release restore p := (sameSettings_roll.release restore p).sameStore
  holds p := (sameSettings_roll.holds p).sameStore
  report m kind p := (sameSettings_roll.report m kind p).sameStore
  clearFault d p := (sameSettings_roll.clearFault d p).sameStore
  restoreKey k p faulted := (sameSettings_roll.restoreKey k p faulted).sameStore
  withSettings _ _ _ _ _ := ⟨rfl, rfl⟩
  applyHold d holding duty p := (applyHold_frame d holding duty p).sameSettings.sameStore
  guards p := (endElapsedGuards_frame p).sameSettings.sameStore
  rebase _ := ⟨rfl, rfl⟩
  budget v p := by
    unfold writeBudgetUnitsValue writeBudget writeAgainst
    split
    · exact ⟨rfl, rfl⟩
    · split
      · exact ⟨rfl, rfl⟩
      · split <;> exact ⟨rfl, rfl⟩
  soft v p := by
    unfold writeHeatSoftValue
    split
    · exact ⟨rfl, rfl⟩
    · split
      · exact ⟨rfl, rfl⟩
      · dsimp only
        refine SameStore.trans ?_ (updateAllResting_frame _).sameSettings.sameStore
        exact ⟨rfl, rfl⟩
  hard v p := by
    unfold writeHeatHardValue
    split
    · exact ⟨rfl, rfl⟩
    · split
      · exact ⟨rfl, rfl⟩
      · dsimp only
        refine SameStore.trans ?_ (updateAllResting_frame _).sameSettings.sameStore
        exact ⟨rfl, rfl⟩

/-! ### Legal settings, one replaced -/

section
variable {t : Settings} {v : Nat}

theorem setPlain_legal {item : Item} {low high : Nat} (h : t.legal) (range : item.plainRange = some (low, high))
    (hl : low ≤ v) (hh : v ≤ high) : (t.setPlain item v).legal := by
  obtain ⟨roll, expression, strike, line⟩ := h
  obtain ⟨ringLow, trimLow, trimHigh, starve, rest⟩ := roll
  obtain ⟨table, step, slow, quick, ceiling, lift, rails⟩ := expression
  obtain ⟨voicing, kickMin, kickMax, budget, costs⟩ := strike
  cases item
  case ringLow | trackMap | splitKey | onRows | offRows | cueSlot | stepTable | railOn | railOff | railMode | railScale
      | voicing | budgetUnits | damperCost | railCost | repeatGuard | pwmBase | heatSoft | heatHard | damperHoldFull
      | damperHoldPart | railHold | pedalLead | linkSilence | noticeMask | lineFaultMask | lineRestingMask => cases range
  all_goals cases range
  case trimLow =>
    exact ⟨⟨ringLow, ⟨hl, hh⟩, trimHigh, starve, rest⟩, ⟨table, step, slow, quick, ceiling, lift, rails⟩,
      ⟨voicing, kickMin, kickMax, budget, costs⟩, line⟩
  case trimHigh =>
    exact ⟨⟨ringLow, trimLow, ⟨hl, hh⟩, starve, rest⟩, ⟨table, step, slow, quick, ceiling, lift, rails⟩,
      ⟨voicing, kickMin, kickMax, budget, costs⟩, line⟩
  case starveHold =>
    exact ⟨⟨ringLow, trimLow, trimHigh, hh, rest⟩, ⟨table, step, slow, quick, ceiling, lift, rails⟩,
      ⟨voicing, kickMin, kickMax, budget, costs⟩, line⟩
  case stepRate =>
    exact ⟨⟨ringLow, trimLow, trimHigh, starve, rest⟩, ⟨table, ⟨hl, hh⟩, slow, quick, ceiling, lift, rails⟩,
      ⟨voicing, kickMin, kickMax, budget, costs⟩, line⟩
  case slowRate =>
    exact ⟨⟨ringLow, trimLow, trimHigh, starve, rest⟩, ⟨table, step, ⟨hl, hh⟩, quick, ceiling, lift, rails⟩,
      ⟨voicing, kickMin, kickMax, budget, costs⟩, line⟩
  case quickRate =>
    exact ⟨⟨ringLow, trimLow, trimHigh, starve, rest⟩, ⟨table, step, slow, ⟨hl, hh⟩, ceiling, lift, rails⟩,
      ⟨voicing, kickMin, kickMax, budget, costs⟩, line⟩
  case swellCeiling =>
    exact ⟨⟨ringLow, trimLow, trimHigh, starve, rest⟩, ⟨table, step, slow, quick, hh, lift, rails⟩,
      ⟨voicing, kickMin, kickMax, budget, costs⟩, line⟩
  case accentLift =>
    exact ⟨⟨ringLow, trimLow, trimHigh, starve, rest⟩, ⟨table, step, slow, quick, ceiling, hh, rails⟩,
      ⟨voicing, kickMin, kickMax, budget, costs⟩, line⟩
  case kickMin =>
    exact ⟨⟨ringLow, trimLow, trimHigh, starve, rest⟩, ⟨table, step, slow, quick, ceiling, lift, rails⟩,
      ⟨voicing, ⟨hl, hh⟩, kickMax, budget, costs⟩, line⟩
  case kickMax =>
    exact ⟨⟨ringLow, trimLow, trimHigh, starve, rest⟩, ⟨table, step, slow, quick, ceiling, lift, rails⟩,
      ⟨voicing, kickMin, ⟨hl, hh⟩, budget, costs⟩, line⟩
  all_goals
    refine ⟨⟨ringLow, trimLow, trimHigh, starve, rest⟩, ⟨table, step, slow, quick, ceiling, lift, rails⟩,
      ⟨voicing, kickMin, kickMax, budget, ?_⟩, ?_⟩
    · simp only [Settings.setPlain]
      omega
    · unfold Settings.lineLegal at line ⊢
      simp only [Settings.setPlain]
      omega

/-- A step table that does not descend against the value's neighbours stays one. -/
theorem stepTable_legal {table : Vector Nat 8} (h : stepTableLegal table) {i : Fin 8} (hv : v ≤ 1023)
    (clear : stepConflict table i v = false) : stepTableLegal (table.set i v) := by
  have conflicts := stepConflict_eq_true table i v
  rw [clear] at conflicts
  have below : ∀ j : Fin 8, j.val < i.val → table[j] ≤ v := fun j hj => by
    have near : table[(⟨i.val - 1, by omega⟩ : Fin 8)] ≤ v :=
      not_lt.1 fun c => Bool.false_ne_true (conflicts.2 (.inl ⟨⟨i.val - 1, by omega⟩, by simp; omega, c⟩))
    exact (h.2 j ⟨i.val - 1, by omega⟩ (by simp; omega)).trans near
  have above : ∀ j : Fin 8, i.val < j.val → v ≤ table[j] := fun j hj => by
    have near : v ≤ table[(⟨i.val + 1, by omega⟩ : Fin 8)] :=
      not_lt.1 fun c => Bool.false_ne_true (conflicts.2 (.inr ⟨⟨i.val + 1, by omega⟩, rfl, c⟩))
    exact near.trans (h.2 ⟨i.val + 1, by omega⟩ j (by simp; omega))
  have get : ∀ j : Fin 8, (table.set i v)[j] = if i.val = j.val then v else table[j] := fun j => by
    simp [Vector.getElem_set]
  refine ⟨fun j => ?_, fun j k hjk => ?_⟩
  · rw [get]
    split
    · exact hv
    · exact h.1 j
  · rw [get, get]
    split <;> split
    · exact le_refl v
    · exact above k (by omega)
    · exact below j (by omega)
    · exact h.2 j k hjk

theorem TrackEntry.sameTarget_comm (a b : TrackEntry) : a.sameTarget b = b.sameTarget a := by
  rcases a with ⟨f, k, x, _⟩
  rcases b with ⟨g, j, y, _⟩
  unfold TrackEntry.sameTarget
  by_cases hf : f = g
  · subst hf
    simp only [beq_self_eq_true, Bool.true_and, Bool.beq_comm (a := k), Bool.beq_comm (a := x)]
  · rw [beq_eq_false_iff_ne.2 hf, beq_eq_false_iff_ne.2 (Ne.symm hf)]
    rfl

/-- An entry that the map's read admits holds its unused fields as 0 (R37). -/
theorem trackEntry_legal {bs : List Byte} {e : TrackEntry} (h : TrackEntry.read bs = some e) : e.legal := by
  unfold TrackEntry.read at h
  split at h
  · cases h
  · split at h
    · next key half source hkey hhalf _ =>
      cases h
      refine ⟨fun c => ?_, fun c => ?_⟩
      · rw [entryKey, if_neg c] at hkey
        exact (Option.some.inj hkey).symm
      · simp only at c
        rw [entryHalf, c] at hhalf
        exact (Option.some.inj hhalf).symm
    · cases h

/-- A map stays free of shared targets when an entry without conflict is put in (R38). -/
theorem map_set_legal {map : Vector TrackEntry 112} (h : mapLegal map) {i : TrackNo} {e : TrackEntry} (legal : e.legal)
    (clear : mapConflict map i e = false) : mapLegal (map.set i e) := by
  have apart : ∀ u : TrackNo, u ≠ i → map[u].sameTarget e = false := fun u hu =>
    Bool.eq_false_iff.2 fun c => Bool.eq_false_iff.1 clear (mapConflict_eq_true.2 ⟨u, hu, c⟩)
  have get : ∀ u : TrackNo, (map.set i e)[u] = if u = i then e else map[u] := fun u => by
    simp [Vector.getElem_set, Fin.ext_iff, eq_comm]
  refine ⟨fun u w huw => ?_, fun u => ?_⟩
  · rw [get, get]
    split <;> split
    · next hu hw => exact absurd (hu.trans hw.symm) huw
    · next _ hw =>
      rw [TrackEntry.sameTarget_comm]
      exact apart w hw
    · next hu _ => exact apart u hu
    · exact h.1 u w huw
  · rw [get]
    split
    · exact legal
    · exact h.2 u

/-- A slot that the read admits is legal once its pattern lies within its mask (R59). -/
theorem cueSlot_legal {bs : List Byte} {c : CueSlot} (h : CueSlot.read bs = some c) (clear : c.pattern &&& ~~~c.mask = 0) :
    c.legal := by
  obtain ⟨a, code, rows, once, parameter⟩ := cueSlot_of_read h
  rw [cueSlot_read bs a code, if_pos ⟨rows, once, parameter⟩] at h
  cases h
  have small : fieldAt bs 30 2 ≤ 65535 := by
    rw [fieldAt_two]
    have b1 : byteAt bs 30 < 256 := BitVec.isLt _
    have b2 : byteAt bs (30 + 1) < 256 := BitVec.isLt _
    omega
  refine ⟨rows, clear, ?_, fun tempo => ?_⟩
  · simp only [slotOf]
    split
    · exact small
    · exact Nat.zero_le _
  · simp only [slotOf] at tempo ⊢
    subst tempo
    rw [if_pos (.inl rfl)]
    exact parameter rfl

end

/-! ### The writes -/

section
variable {p : Part}

theorem writeChecked_legal {ok : Bool} {f : Settings → Settings} (h : p.settings.legal)
    (set : ok = true → (f p.settings).legal) : (writeChecked ok f p).2.settings.legal := by
  cases hx : ok
  · rw [writeChecked_of_out rfl]
    exact h
  · rw [writeChecked_of_in rfl]
    exact set hx

theorem writeAgainst_legal {ok conflict : Bool} {f : Settings → Settings} (h : p.settings.legal)
    (set : ok = true → conflict = false → (f p.settings).legal) : (writeAgainst ok conflict f p).2.settings.legal := by
  cases hx : ok
  · rw [writeAgainst_of_out rfl]
    exact h
  · cases hc : conflict
    · rw [writeAgainst_of_in rfl rfl]
      exact set hx hc
    · rw [writeAgainst_of_conflict rfl rfl]
      exact h

theorem writeBudget_legal {ok conflict : Bool} {f : Settings → Settings} (h : p.settings.legal)
    (set : ok = true → conflict = false → (f p.settings).legal) : (writeBudget ok conflict f p).2.settings.legal := by
  unfold writeBudget
  split
  · exact h
  · exact writeAgainst_legal h set

/-- A part whose settings are those of a legal one. -/
theorem legal_of_eq {q r : Part} (h : r.settings.legal) (same : q.settings = r.settings) : q.settings.legal := by
  rw [same]
  exact h

theorem writeTrackMap_legal (index : Nat) (value : List Byte) (h : p.settings.legal) :
    (writeTrackMapValue index value p).2.settings.legal := by
  unfold writeTrackMapValue
  split
  · exact h
  · split
    · next t e _ read =>
      split
      · exact h
      · next clear =>
        obtain ⟨⟨ring, low, high, starve, split, on, off, map, cues⟩, rest⟩ := h
        exact ⟨⟨ring, low, high, starve, split, on, off, map_set_legal map (trackEntry_legal read)
          (Bool.not_eq_true _ ▸ clear), cues⟩, rest⟩
    · exact h

theorem writeCueSlot_legal (index : Nat) (value : List Byte) (h : p.settings.legal) :
    (writeCueSlotValue index value p).2.settings.legal := by
  unfold writeCueSlotValue
  split
  · next i c _ read =>
    split
    · next clear =>
      refine legal_of_eq (r := p.withSettings fun t => { t with cueSlots := t.cueSlots.set i c }) ?_
        (sameSettings_roll.disarmCues _).settings
      obtain ⟨⟨ring, low, high, starve, split, on, off, map, cues⟩, rest⟩ := h
      refine ⟨⟨ring, low, high, starve, split, on, off, map, fun j => ?_⟩, rest⟩
      have get : (p.settings.cueSlots.set i c)[j] = if i.val = j.val then c else p.settings.cueSlots[j] := by
        simp [Vector.getElem_set]
      simp only [Part.withSettings, get]
      split
      · exact cueSlot_legal read clear
      · exact cues j
    · exact h
  · exact h

theorem writeVoicing_legal (index : Nat) (value : List Byte) (h : p.settings.legal) :
    (writeVoicingValue index value p).2.settings.legal := by
  unfold writeVoicingValue
  split
  · next k v _ read =>
    obtain ⟨roll, expression, ⟨voicing, rest⟩, line⟩ := h
    refine ⟨roll, expression, ⟨fun j => ?_, rest⟩, line⟩
    have legal : v.legal := by
      unfold Voicing.read at read
      dsimp only at read
      split at read
      · next c =>
        cases read
        exact c
      · cases read
    have get : (p.settings.voicing.set k v)[j] = if k.val = j.val then v else p.settings.voicing[j] := by
      simp [Vector.getElem_set]
    simp only [Part.withSettings, get]
    split
    · exact legal
    · exact voicing j
  · exact h

theorem writeRailScale_legal (index v : Nat) (h : p.settings.legal) :
    (writeRailScaleValue index v p).2.settings.legal := by
  unfold writeRailScaleValue
  split
  · next x _ =>
    refine writeChecked_legal h fun range => ?_
    obtain ⟨roll, ⟨table, step, slow, quick, ceiling, lift, rails, apart, scale⟩, rest⟩ := h
    refine ⟨roll, ⟨table, step, slow, quick, ceiling, lift, rails, apart, fun y => ?_⟩, rest⟩
    have within := within_eq_true.1 range
    match x, y with
    | .bass, .bass => exact within
    | .bass, .treble => exact scale .treble
    | .treble, .bass => exact scale .bass
    | .treble, .treble => exact within
  · exact h

theorem writeStepTable_legal (index v : Nat) (h : p.settings.legal) :
    (writeStepTableValue index v p).2.settings.legal := by
  unfold writeStepTableValue
  split
  · refine writeAgainst_legal h fun range clear => ?_
    obtain ⟨roll, ⟨table, expression⟩, rest⟩ := h
    exact ⟨roll, ⟨stepTable_legal table (within_eq_true.1 range).2 clear, expression⟩, rest⟩
  · exact h

/-- A setting of the lines, replaced by one that its checks admit. -/
theorem line_legal {t u : Settings} (h : t.legal) (roll : u.rollLegal = t.rollLegal)
    (expression : u.expressionLegal = t.expressionLegal) (strike : u.strikeLegal = t.strikeLegal)
    (line : t.lineLegal → u.lineLegal) : u.legal := by
  obtain ⟨hr, he, hs, hl⟩ := h
  exact ⟨roll ▸ hr, expression ▸ he, strike ▸ hs, line hl⟩

theorem writeRingLow_legal (v : Nat) (h : p.settings.legal) : (writeRingLowValue v p).2.settings.legal := by
  unfold writeRingLowValue
  split
  · next range =>
    obtain ⟨⟨_, rest⟩, others⟩ := h
    exact ⟨⟨within_eq_true.1 range, rest⟩, others⟩
  · exact h

theorem writeSplitKey_legal (v : Nat) (h : p.settings.legal) : (writeSplitKeyValue v p).2.settings.legal := by
  unfold writeSplitKeyValue
  split
  · exact h
  · refine writeChecked_legal h fun range => ?_
    obtain ⟨⟨ring, low, high, starve, _, rest⟩, others⟩ := h
    exact ⟨⟨ring, low, high, starve, within_eq_true.1 range, rest⟩, others⟩

theorem writeOnRows_legal (v : Nat) (h : p.settings.legal) : (writeOnRowsValue v p).2.settings.legal := by
  unfold writeOnRowsValue
  split
  · exact h
  · split
    · next range =>
      obtain ⟨⟨ring, low, high, starve, split, _, rest⟩, others⟩ := h
      exact ⟨⟨ring, low, high, starve, split, within_eq_true.1 range, rest⟩, others⟩
    · exact h

theorem writeOffRows_legal (v : Nat) (h : p.settings.legal) : (writeOffRowsValue v p).2.settings.legal := by
  unfold writeOffRowsValue
  split
  · exact h
  · split
    · next range =>
      obtain ⟨⟨ring, low, high, starve, split, on, _, rest⟩, others⟩ := h
      exact ⟨⟨ring, low, high, starve, split, on, within_eq_true.1 range, rest⟩, others⟩
    · exact h

theorem writeRailOn_legal (v : Nat) (h : p.settings.legal) : (writeRailOnValue v p).2.settings.legal := by
  refine writeAgainst_legal h fun _ clear => ?_
  obtain ⟨roll, ⟨table, step, slow, quick, ceiling, lift, off, _, scale⟩, rest⟩ := h
  exact ⟨roll, ⟨table, step, slow, quick, ceiling, lift, off, not_le.1 (of_decide_eq_false clear), scale⟩, rest⟩

theorem writeRailOff_legal (v : Nat) (h : p.settings.legal) : (writeRailOffValue v p).2.settings.legal := by
  refine writeAgainst_legal h fun range clear => ?_
  obtain ⟨roll, ⟨table, step, slow, quick, ceiling, lift, _, _, scale⟩, rest⟩ := h
  exact ⟨roll, ⟨table, step, slow, quick, ceiling, lift, (within_eq_true.1 range).2,
    not_le.1 (of_decide_eq_false clear), scale⟩, rest⟩

theorem writeRailMode_legal (index v : Nat) (h : p.settings.legal) : (writeRailModeValue index v p).2.settings.legal := by
  unfold writeRailModeValue
  split
  · next x m _ _ =>
    exact legal_of_eq (r := p.withSettings fun t => { t with railMode := t.railMode.set x m }) h
      (sameSettings_roll.handRailMode x _).settings
  · exact h

theorem writeBudgetUnits_legal (v : Nat) (h : p.settings.legal) : (writeBudgetUnitsValue v p).2.settings.legal := by
  refine writeBudget_legal h fun range clear => ?_
  obtain ⟨roll, expression, ⟨voicing, low, high, _, damper, rail, _, _, wait⟩, line⟩ := h
  have costs := not_lt.1 (of_decide_eq_false clear)
  exact ⟨roll, expression, ⟨voicing, low, high, within_eq_true.1 range, damper, rail, (le_max_left _ _).trans costs,
    (le_max_right _ _).trans costs, wait⟩, line⟩

theorem writeDamperCost_legal (v : Nat) (h : p.settings.legal) : (writeDamperCostValue v p).2.settings.legal := by
  refine writeBudget_legal h fun range clear => ?_
  obtain ⟨roll, expression, ⟨voicing, low, high, budget, _, rail, _, fits, wait⟩, line⟩ := h
  exact ⟨roll, expression, ⟨voicing, low, high, budget, within_eq_true.1 range, rail,
    not_lt.1 (of_decide_eq_false clear), fits, wait⟩, line⟩

theorem writeRailCost_legal (v : Nat) (h : p.settings.legal) : (writeRailCostValue v p).2.settings.legal := by
  refine writeBudget_legal h fun range clear => ?_
  obtain ⟨roll, expression, ⟨voicing, low, high, budget, damper, _, fits, _, wait⟩, line⟩ := h
  exact ⟨roll, expression, ⟨voicing, low, high, budget, damper, within_eq_true.1 range, fits,
    not_lt.1 (of_decide_eq_false clear), wait⟩, line⟩

theorem writeRepeatGuard_legal (v : Nat) (h : p.settings.legal) : (writeRepeatGuardValue v p).2.settings.legal := by
  unfold writeRepeatGuardValue
  split
  · next range =>
    refine legal_of_eq (r := p.withSettings fun t => { t with repeatGuard := v }) ?_ (endElapsedGuards_frame _).settings
    refine line_legal h rfl rfl rfl fun line => ?_
    have bounds := within_eq_true.1 range
    unfold Settings.lineLegal at line ⊢
    simp only [Part.withSettings]
    omega
  · exact h

theorem writePwmBase_legal (v : Nat) (h : p.settings.legal) : (writePwmBaseValue v p).2.settings.legal := by
  unfold writePwmBaseValue
  split
  · exact h
  · split
    · next range =>
      refine line_legal h rfl rfl rfl fun line => ?_
      unfold Settings.lineLegal at line ⊢
      simp only [rebaseDrives, Part.withSettings]
      omega
    · exact h

theorem writeHeatSoft_legal (v : Nat) (h : p.settings.legal) : (writeHeatSoftValue v p).2.settings.legal := by
  unfold writeHeatSoftValue
  split
  · exact h
  · next range =>
    split
    · exact h
    · dsimp only
      refine legal_of_eq (r := p.withSettings fun t => { t with heatSoft := v }) ?_ (updateAllResting_frame _).settings
      refine line_legal h rfl rfl rfl fun line => ?_
      rw [Bool.not_eq_true, Bool.not_eq_false'] at range
      have bounds := within_eq_true.1 range
      unfold Settings.lineLegal at line ⊢
      simp only [Part.withSettings]
      omega

theorem writeHeatHard_legal (v : Nat) (h : p.settings.legal) : (writeHeatHardValue v p).2.settings.legal := by
  unfold writeHeatHardValue
  split
  · exact h
  · next range =>
    split
    · exact h
    · dsimp only
      refine legal_of_eq (r := p.withSettings fun t => { t with heatHard := v }) ?_ (updateAllResting_frame _).settings
      refine line_legal h rfl rfl rfl fun line => ?_
      rw [Bool.not_eq_true, Bool.not_eq_false'] at range
      have bounds := within_eq_true.1 range
      unfold Settings.lineLegal at line ⊢
      simp only [Part.withSettings]
      omega

theorem writeDamperHoldFull_legal (v : Nat) (h : p.settings.legal) :
    (writeDamperHoldFullValue v p).2.settings.legal := by
  unfold writeDamperHoldFullValue
  split
  · exact h
  · next range =>
    split
    · exact h
    · refine legal_of_eq (r := p.withSettings fun t => { t with damperHoldFull := v }) ?_ (applyHold_frame _ _ _ _).settings
      refine line_legal h rfl rfl rfl fun line => ?_
      rw [Bool.not_eq_true, Bool.not_eq_false'] at range
      have bounds := within_eq_true.1 range
      unfold Settings.lineLegal at line ⊢
      simp only [Part.withSettings]
      omega

theorem writeDamperHoldPart_legal (v : Nat) (h : p.settings.legal) :
    (writeDamperHoldPartValue v p).2.settings.legal := by
  unfold writeDamperHoldPartValue
  split
  · exact h
  · next range =>
    split
    · exact h
    · refine legal_of_eq (r := p.withSettings fun t => { t with damperHoldPart := v }) ?_ (applyHold_frame _ _ _ _).settings
      refine line_legal h rfl rfl rfl fun line => ?_
      rw [Bool.not_eq_true, Bool.not_eq_false'] at range
      have bounds := within_eq_true.1 range
      unfold Settings.lineLegal at line ⊢
      simp only [Part.withSettings]
      omega

theorem writeRailHold_legal (v : Nat) (h : p.settings.legal) : (writeRailHoldValue v p).2.settings.legal := by
  unfold writeRailHoldValue
  split
  · next range =>
    refine legal_of_eq (r := p.withSettings fun t => { t with railHold := v }) ?_ (applyRailHold_frame _).settings
    refine line_legal h rfl rfl rfl fun line => ?_
    have bounds := within_eq_true.1 range
    unfold Settings.lineLegal at line ⊢
    simp only [Part.withSettings]
    omega
  · exact h

theorem writePedalLead_legal (v : Nat) (h : p.settings.legal) : (writePedalLeadValue v p).2.settings.legal := by
  unfold writePedalLeadValue
  split
  · exact h
  · split
    · next range =>
      refine line_legal h rfl rfl rfl fun line => ?_
      have bounds := within_eq_true.1 range
      unfold Settings.lineLegal at line ⊢
      simp only [resetLead, Part.setLead, Part.withSettings]
      omega
    · exact h

theorem writeLinkSilence_legal (v : Nat) (h : p.settings.legal) : (writeLinkSilenceValue v p).2.settings.legal := by
  refine writeChecked_legal h fun range => line_legal h rfl rfl rfl fun line => ?_
  rw [Bool.or_eq_true, within_eq_true, beq_iff_eq] at range
  unfold Settings.lineLegal at line ⊢
  simp only
  omega

/-- A write of a mask leaves the settings. -/
theorem writeMask_settings (index v : Nat) (p : Part) : (writeNoticeMaskValue v p).2.settings = p.settings
    ∧ (writeLineFaultMaskValue index v p).2.settings = p.settings
      ∧ (writeLineRestingMaskValue index v p).2.settings = p.settings := by
  unfold writeNoticeMaskValue writeLineFaultMaskValue writeLineRestingMaskValue
  refine ⟨?_, ?_, ?_⟩ <;> split <;> rfl

theorem writeItem_legal (item : Item) (index : Nat) (value : List Byte) (h : p.settings.legal) :
    (writeItem item index value p).2.settings.legal := by
  cases range : item.plainRange with
  | some lh =>
    rw [writeItem_plain range]
    exact writeChecked_legal h fun hin => setPlain_legal h range (within_eq_true.1 hin).1 (within_eq_true.1 hin).2
  | none =>
    unfold writeItem
    obtain ⟨notice, fault, resting⟩ := writeMask_settings index (fieldAt value 0 2) p
    cases item <;> dsimp only
    case trimLow | trimHigh | starveHold | stepRate | slowRate | quickRate | swellCeiling | accentLift | kickMin | kickMax
        | waitLimit | holdLimit | damperKick | damperKickDuty | damperSettle | railKick | railKickDuty | railSettle =>
      cases range
    case ringLow => exact writeRingLow_legal _ h
    case trackMap => exact writeTrackMap_legal index value h
    case splitKey => exact writeSplitKey_legal _ h
    case onRows => exact writeOnRows_legal _ h
    case offRows => exact writeOffRows_legal _ h
    case cueSlot => exact writeCueSlot_legal index value h
    case stepTable => exact writeStepTable_legal index _ h
    case railOn => exact writeRailOn_legal _ h
    case railOff => exact writeRailOff_legal _ h
    case railMode => exact writeRailMode_legal index _ h
    case railScale => exact writeRailScale_legal index _ h
    case voicing => exact writeVoicing_legal index value h
    case budgetUnits => exact writeBudgetUnits_legal _ h
    case damperCost => exact writeDamperCost_legal _ h
    case railCost => exact writeRailCost_legal _ h
    case repeatGuard => exact writeRepeatGuard_legal _ h
    case pwmBase => exact writePwmBase_legal _ h
    case heatSoft => exact writeHeatSoft_legal _ h
    case heatHard => exact writeHeatHard_legal _ h
    case damperHoldFull => exact writeDamperHoldFull_legal _ h
    case damperHoldPart => exact writeDamperHoldPart_legal _ h
    case railHold => exact writeRailHold_legal _ h
    case pedalLead => exact writePedalLead_legal _ h
    case linkSilence => exact writeLinkSilence_legal _ h
    case noticeMask => exact legal_of_eq h notice
    case lineFaultMask => exact legal_of_eq h fault
    case lineRestingMask => exact legal_of_eq h resting

end

/-! ### Every step -/

/-- The settings after are sound if those before are. -/
def SettingsKept (p q : Part) : Prop := SettingsSound p → SettingsSound q

theorem SameSettings.kept {p q : Part} (h : SameSettings p q) : SettingsKept p q := fun sound => by
  unfold SettingsSound
  rw [h.settings, h.store, h.saving]
  exact sound

theorem SameStore.kept {p q : Part} (h : SameStore p q) (legal : q.settings.legal) : SettingsKept p q := fun sound => by
  obtain ⟨-, stored, saving⟩ := sound
  unfold SettingsSound
  rw [h.store, h.saving]
  exact ⟨legal, stored, saving⟩

theorem recallSettings_kept (p : Part) : SettingsKept p (recallSettings p).2 := fun sound => by
  obtain ⟨-, stored, -⟩ := id sound
  have roll := sameSettings_roll
  unfold recallSettings
  split
  · exact sound
  · split
    · have recalled : SameSettings (p.withSettings fun _ => p.store.settings) (recallAll p.store.settings p) := by
        unfold recallAll
        dsimp only
        refine roll.trans ?_ (applyRailHold_frame _).sameSettings
        refine roll.trans ?_ (applyHold_frame _ _ _ _).sameSettings
        refine roll.trans ?_ (applyHold_frame _ _ _ _).sameSettings
        refine roll.trans ?_ (endElapsedGuards_frame _).sameSettings
        refine roll.trans ?_ (updateAllResting_frame _).sameSettings
        refine roll.trans ?_ (roll.handRailMode _ _)
        refine roll.trans ?_ (roll.handRailMode _ _)
        refine roll.trans ?_ (roll.disarmCues _)
        exact ⟨rfl, rfl, rfl⟩
      have replaced : SameStore p (p.withSettings fun _ => p.store.settings) := ⟨rfl, rfl⟩
      dsimp only
      exact recalled.kept (replaced.kept stored sound)
    · exact sound

/-- A save under way that is cut leaves the settings it was writing in the store. -/
theorem cutSave_kept (x : Power) (p : Part) : SettingsKept p { cutSave p with power := x } := fun sound => by
  obtain ⟨working, stored, saving⟩ := sound
  unfold cutSave
  split
  · next t under => exact ⟨working, saving t under, fun _ none => by cases none⟩
  · exact ⟨working, stored, saving⟩

theorem endSave_kept (good : Bool) (p : Part) : SettingsKept p (endSave good p) := fun sound => by
  obtain ⟨working, stored, saving⟩ := id sound
  unfold endSave
  split
  · next t _ under _ =>
    refine ⟨working, ?_, fun _ none => by cases none⟩
    cases good <;> exact saving t under
  · exact sound

theorem pinReset_kept (rate1 rate0 : Bool) (p : Part) : SettingsKept p (pinResetPart rate1 rate0 p) := fun sound => by
  refine ⟨pinReset_limits sound rate1 rate0, ?_, fun _ none => by cases none⟩
  obtain ⟨-, stored, -⟩ := cutSave_kept .on p sound
  exact stored

theorem takeScan_sameSettings (x : Scan) (p : Part) : SameSettings p (takeScan x p) := by
  unfold takeScan countDiscards
  split
  · exact ⟨rfl, rfl, rfl⟩
  · refine sameSettings_roll.trans ?_ (sameSettings_roll.updateNotices _ _)
    exact ⟨rfl, rfl, rfl⟩

theorem acceptByte_sameSettings (b : Byte) (p : Part) : SameSettings p (acceptByte b p) := by
  unfold acceptByte
  split
  · exact ⟨rfl, rfl, rfl⟩
  · exact takeScan_sameSettings _ p

theorem expireGap_sameSettings (p : Part) : SameSettings p (expireGap p) := by
  unfold expireGap
  split
  · exact ⟨rfl, rfl, rfl⟩
  · exact takeScan_sameSettings _ p

theorem expireSilence_sameSettings (p : Part) : SameSettings p (expireSilence p) := by
  have roll := sameSettings_roll
  unfold expireSilence
  split
  · exact roll.refl p
  · dsimp only
    split
    · refine roll.trans ?_ (roll.raise _ _)
      refine roll.trans ?_ (roll.pauseTransport _)
      exact ⟨rfl, rfl, rfl⟩
    · exact ⟨rfl, rfl, rfl⟩

theorem takeNoticeNames_sameSettings (payload : List Byte) (p : Part) :
    SameSettings p (takeNoticeNames payload p).2 := by
  unfold takeNoticeNames askIfPending
  split
  · exact ⟨rfl, rfl, rfl⟩
  · dsimp only
    split
    · exact ⟨rfl, rfl, rfl⟩
    · exact ⟨by rw [askNotice_eq], by rw [askNotice_eq], by rw [askNotice_eq]⟩

theorem takeHistory_sameSettings (payload : List Byte) (p : Part) : SameSettings p (takeHistory payload p).2 := by
  unfold takeHistory
  split
  · exact ⟨rfl, rfl, rfl⟩
  · split
    · exact ⟨rfl, rfl, rfl⟩
    · dsimp only
      split <;> exact ⟨rfl, rfl, rfl⟩

theorem heatTick_sameSettings (p : Part) : SameSettings p (heatTick p) := by
  unfold heatTick
  refine sameSettings_roll.trans ?_ (heatTicks_frame _).sameSettings
  exact ⟨rfl, rfl, rfl⟩

theorem settingsKept : KeptByActs (fun _ => True) SettingsKept where
  refl _ _ h := h
  finished _ _ _ kept := kept
  time _ _ h := h
  byte b p _ := (acceptByte_sameSettings b p).kept
  gap p _ := (expireGap_sameSettings p).kept
  silence p _ := (expireSilence_sameSettings p).kept
  send p _ := SameSettings.kept (by unfold sendNext; split <;> exact ⟨rfl, rfl, rfl⟩)
  place p _ := SameSettings.kept (by unfold placeNotice; split <;> exact ⟨rfl, rfl, rfl⟩)
  notices payload p _ := (takeNoticeNames_sameSettings payload p).kept
  history payload p _ := (takeHistory_sameSettings payload p).kept
  load payload p _ := (sameSettings_roll.loadRoll payload p).kept
  feed payload p _ := (sameSettings_roll.feedRows payload p).kept
  run p _ := (sameSettings_roll.runRequest p).kept
  pause p _ := (sameSettings_roll.pauseRequest p).kept
  stop p _ := (sameSettings_roll.stopRequest p).kept
  tempo payload p _ := (sameSettings_roll.setTempo payload p).kept
  write item index value p _ sound :=
    (sameStore_writes.writeItem item index value p).kept (writeItem_legal item index value sound.1) sound
  arm _ _ h := h
  save _ _ h := by
    obtain ⟨working, stored, -⟩ := h
    exact ⟨working, stored, fun _ some => by cases some; exact working⟩
  saved good p _ := endSave_kept good p
  recalled p _ := recallSettings_kept p
  strike payload p _ := (sameSettings_roll.strikeKey payload p).kept
  play payload p _ := (sameSettings_roll.playPattern payload p).kept
  cancel _ _ h := h
  restore payload p _ := (sameSettings_roll.restoreLine payload p).kept
  soft f p _ := (sameSettings_roll.softReset (finishRequest f p)).kept
  held p _ := cutSave_kept .held p
  off p _ := cutSave_kept .off p
  pin rate1 rate0 p _ := pinReset_kept rate1 rate0 p
  feedTick p _ := (sameSettings_roll.feedTick p).kept
  starve p _ := (sameSettings_roll.starveExpires p).kept
  expression p _ := (sameSettings_roll.expressionTick p).kept
  heat p _ := (heatTick_sameSettings p).kept
  chain bits p _ := (sameSettings_roll.readChain bits p).kept
  kick k p _ := (kickRunsOut_frame k p).sameSettings.kept
  gain k p _ := (holdGains_frame k p).sameSettings.kept
  hold k p _ := (holdEnds_frame k p).sameSettings.kept
  guard k p _ := (guardEnds_frame k p).sameSettings.kept
  deadline m p _ := (lineDeadline_frame m p).sameSettings.kept
  lift d p _ := (liftEnds_frame d p).sameSettings.kept
  settle d p _ := (settleEnds_frame d p).sameSettings.kept
  pattern p _ := (sameSettings_roll.takePatternStep p).kept
  patternEnd p _ := (sameSettings_roll.endPattern p).kept

/-- Settles O52. -/
theorem settingsStaySound : Obligations.SettingsStaySound :=
  fun _ _ sound run => settingsKept.ofStep trivial run sound

end Sys2Proof.Machine
end

section
/-! PROOFS. The batches of FEED ROWS as lists of rows numbered in one row, and what the ring stores of them (R5 to R11). -/

namespace Sys2Proof.Machine

/-! ### Rows numbered from a first one -/

theorem numberRows_length (n : Nat) (holes : List TrackSet) : (numberRows n holes).length = holes.length := by
  induction holes generalizing n with
  | nil => rfl
  | cons x xs ih => exact congrArg Nat.succ (ih (n + 1))

theorem numberRows_numbers (n : Nat) (holes : List TrackSet) :
    (numberRows n holes).map StoredRow.number = List.range' n holes.length := by
  induction holes generalizing n with
  | nil => rfl
  | cons x xs ih => exact congrArg (List.cons n) (ih (n + 1))

theorem numberRows_take (n k : Nat) (holes : List TrackSet) :
    (numberRows n holes).take k = numberRows n (holes.take k) := by
  induction holes generalizing n k with
  | nil => simp [numberRows]
  | cons x xs ih =>
    cases k with
    | zero => rfl
    | succ k => exact congrArg (List.cons _) (ih (n + 1) k)

/-- The rows from a number on. -/
theorem filter_numberRows_from (m n : Nat) (holes : List TrackSet) :
    (numberRows n holes).filter (fun row => decide (m ≤ row.number))
      = numberRows (max m n) (holes.drop (m - n)) := by
  induction holes generalizing n with
  | nil => simp [numberRows]
  | cons x xs ih =>
    rw [numberRows, List.filter_cons, ih (n + 1)]
    by_cases h : m ≤ n
    · have later : m ≤ n + 1 := h.trans (Nat.le_succ n)
      simp only [decide_eq_true h, if_true, Nat.sub_eq_zero_of_le h, Nat.sub_eq_zero_of_le later, Nat.max_eq_right h,
        Nat.max_eq_right later, List.drop_zero, numberRows]
    · have gap : m - n = m - (n + 1) + 1 := by omega
      simp only [decide_eq_false h, Bool.false_eq_true, if_false, gap, List.drop_succ_cons]
      rw [Nat.max_eq_left (by omega : n + 1 ≤ m), Nat.max_eq_left (by omega : n ≤ m)]

/-- The rows up to a number. -/
theorem filter_numberRows_upTo (m n : Nat) (holes : List TrackSet) :
    (numberRows n holes).filter (fun row => decide (row.number ≤ m)) = numberRows n (holes.take (m + 1 - n)) := by
  induction holes generalizing n with
  | nil => simp [numberRows]
  | cons x xs ih =>
    rw [numberRows, List.filter_cons, ih (n + 1)]
    by_cases h : n ≤ m
    · have step : m + 1 - n = m + 1 - (n + 1) + 1 := by omega
      simp only [decide_eq_true h, if_true, step, List.take_succ_cons, numberRows]
    · simp only [decide_eq_false h, Bool.false_eq_true, if_false, Nat.sub_eq_zero_of_le (by omega : m + 1 ≤ n),
        Nat.sub_eq_zero_of_le (by omega : m + 1 ≤ n + 1), List.take_zero, numberRows]

/-! ### Expansion -/

theorem expandRecords_length {fuel left : Nat} {before : TrackSet} {bs : List Byte} {rows : List TrackSet}
    (h : expandRecords fuel before left bs = some rows) : rows.length = left := by
  fun_induction expandRecords fuel before left bs generalizing rows with
  | case1 => cases h; rfl
  | case2 | case3 | case4 | case6 | case7 | case9 => cases h
  | case5 fuel before left low high rest header isRun run fits =>
    rename_i ih
    obtain ⟨more, tail, rfl⟩ := Option.map_eq_some_iff.1 h
    rw [List.length_append, List.length_replicate, ih tail]
    omega
  | case8 fuel before left low high rest header isRun fits holes after groups =>
    rename_i ih
    obtain ⟨more, tail, rfl⟩ := Option.map_eq_some_iff.1 h
    rw [List.length_cons, ih tail]
    omega

/-! ### What the ring stores -/

/-- What is left of a batch once the rows below next-expected are skipped (R8). -/
theorem RowRing.unskipped_numberRows (r : RowRing) (first : Nat) (holes : List TrackSet) :
    r.unskipped (numberRows first holes)
      = numberRows (max r.nextExpected first) (holes.drop (r.nextExpected - first)) :=
  filter_numberRows_from _ _ _

theorem RowRing.gap_numberRows (r : RowRing) (n : Nat) (holes : List TrackSet) :
    r.gap (numberRows n holes) = (!holes.isEmpty && decide (r.nextExpected < n)) := by
  cases holes <;> rfl

/-- What of them is not beyond the end row (R10). -/
theorem withinRoll_numberRows (endRow n : Nat) (holes : List TrackSet) :
    withinRoll endRow (numberRows n holes)
      = numberRows n (if endRow = 0 then holes else holes.take (endRow + 1 - n)) := by
  unfold withinRoll
  split
  · rfl
  · exact filter_numberRows_upTo _ _ _

theorem getLast?_numberRows (n : Nat) (holes : List TrackSet) :
    (numberRows n holes).getLast? = holes.getLast?.map fun x => { number := n + holes.length - 1, holes := x } := by
  induction holes generalizing n with
  | nil => rfl
  | cons x xs ih =>
    cases xs with
    | nil => simp [numberRows]
    | cons y ys =>
      have rest := ih (n + 1)
      simp only [numberRows, List.getLast?_cons_cons, List.length_cons] at rest ⊢
      rw [rest]
      congr 2
      funext z
      congr 1
      omega

/-- What the ring holds after it has stored rows that follow on (R11). -/
theorem RowRing.store_numberRows (r : RowRing) (holes : List TrackSet) (stored : holes.take r.free ≠ []) :
    r.store (numberRows r.nextExpected holes)
      = { r with
          rows := r.rows ++ numberRows r.nextExpected (holes.take r.free)
          nextExpected := r.nextExpected + (holes.take r.free).length
          reference := (holes.take r.free).getLast stored } := by
  unfold RowRing.store
  have last := List.getLast?_eq_getLast_of_ne_nil stored
  have some : 0 < (holes.take r.free).length := List.length_pos_iff.2 stored
  simp only [numberRows_take, getLast?_numberRows, last, Option.map_some]
  congr 1
  omega

end Sys2Proof.Machine
end

section
/-! PROOFS. Every step keeps the ring, the feed position, the shades and the lead decoder (R1, R2, R4, R19, R79, R159): the
transport and the take of a row move them together, and all else leaves them. -/

namespace Sys2Proof.Machine

/-! ### What leaves the paper -/

/-- The ring, the feed position, the shades and the lead decoder's next row are the same, and the setting the ring is
marked by. -/
structure SamePaper (p q : Part) : Prop where
  low : q.settings.ringLow = p.settings.ringLow
  ring : q.ring = p.ring
  feed : q.feed = p.feed
  shades : ∀ y, (q.expression.halves.get y).shade = (p.expression.halves.get y).shade
  lead : q.pedals.lead.next = p.pedals.lead.next

theorem SamePaper.refl (p : Part) : SamePaper p p := ⟨rfl, rfl, rfl, fun _ => rfl, rfl⟩

theorem SamePaper.trans {p q r : Part} (h : SamePaper p q) (g : SamePaper q r) : SamePaper p r :=
  ⟨g.low.trans h.low, g.ring.trans h.ring, g.feed.trans h.feed, fun y => (g.shades y).trans (h.shades y), g.lead.trans h.lead⟩

/-- The settings are the same too. -/
structure SameRoll (p q : Part) : Prop extends SamePaper p q where
  settings : q.settings = p.settings

theorem LinesOnly.sameRoll {p q : Part} (h : LinesOnly p q) : SameRoll p q :=
  ⟨⟨by rw [h.settings], h.ring, h.feed, fun _ => by rw [h.expression], by rw [h.lead]⟩, h.settings⟩

theorem sameRoll_play : KeptByPlay SameRoll where
  refl p := ⟨.refl p, rfl⟩
  trans h g := ⟨h.toSamePaper.trans g.toSamePaper, g.settings.trans h.settings⟩
  choices _ _ := ⟨⟨rfl, rfl, rfl, fun _ => rfl, rfl⟩, rfl⟩
  setLevels _ _ same := ⟨⟨rfl, rfl, rfl, same, rfl⟩, rfl⟩
  setInputs _ _ _ _ _ lead := ⟨⟨rfl, rfl, rfl, fun _ => rfl, congrArg LeadDecoder.next lead⟩, rfl⟩
  updateNotices _ _ := ⟨⟨rfl, rfl, rfl, fun _ => rfl, rfl⟩, rfl⟩
  setTracks _ _ := ⟨⟨rfl, rfl, rfl, fun _ => rfl, rfl⟩, rfl⟩
  setCues _ _ := ⟨⟨rfl, rfl, rfl, fun _ => rfl, rfl⟩, rfl⟩
  setPlayer _ _ := ⟨⟨rfl, rfl, rfl, fun _ => rfl, rfl⟩, rfl⟩
  reported _ _ := ⟨⟨rfl, rfl, rfl, fun _ => rfl, rfl⟩, rfl⟩
  lift d depth p := (liftPedal_frame d depth p).sameRoll
  drop d p := (dropPedal_frame d p).sameRoll
  onset o p := (takeOnset_frame o p).sameRoll
  noteOff k p := (noteOff_frame k p).sameRoll
  release restore p := (releaseKeyLines_frame restore p).sameRoll
  holds p := (releaseHolds_frame p).sameRoll
  report m kind p := (reportFault_frame m kind p).sameRoll
  clearFault d p := (clearPedalFault_frame d p).sameRoll
  restoreKey k p _ := (restoreKey_frame k p).sameRoll

/-! ### The paper at a head row -/

/-- The ring holds the rows from a head row on, its low-water state is true, and the fraction and Q are in their ranges;
where the shades are watched, they are too; and where the lead decoder is followed, its next row lies from a lowest row
on, up to next-expected. -/
structure PaperAt (shaded : Prop) (head lowest : Nat) (followed : Prop) (p : Part) : Prop where
  legal : p.settings.legal
  ring : RingSound p
  shades : shaded → ShadesSound p
  place : head + p.ring.rows.length = p.ring.nextExpected
  fraction : p.feed.fraction ≤ 65535
  q : p.feed.q ≤ 65535
  lead : followed → lowest ≤ p.pedals.lead.next ∧ p.pedals.lead.next ≤ p.ring.nextExpected

/-- What the transport's state says of the taken mark, the row and the ring. -/
structure TransportSound (p : Part) : Prop where
  running : p.feed.transport = .running → p.feed.taken = true
  starved : p.feed.transport = .starved → p.feed.taken = false ∧ p.ring.rows = []
  unloaded : p.feed.transport = .unloaded → p.feed.row = 0 ∧ p.feed.taken = false ∧ p.ring.rows = []

/-- The part between its steps. -/
structure RollSound (shaded followed : Prop) (p : Part) : Prop where
  paper : PaperAt shaded p.feed.headRow p.feed.headRow followed p
  transport : TransportSound p

variable {shaded followed : Prop} {head lowest : Nat} {p q : Part}

theorem RollSound.of (legal : p.settings.legal) (ring : RingSound p) (feed : FeedSound p) (shades :
    shaded → ShadesSound p)
    (lead : followed → LeadSound p) : RollSound shaded followed p := by
  obtain ⟨place, running, starved, unloaded, fraction, q⟩ := feed
  exact ⟨⟨legal, ring, shades, place, fraction, q, lead⟩, ⟨running, starved, unloaded⟩⟩

theorem RollSound.feed (h : RollSound shaded followed p) : FeedSound p := by
  obtain ⟨paper, running, starved, unloaded⟩ := h
  exact ⟨paper.place, running, starved, unloaded, paper.fraction, paper.q⟩

namespace PaperAt

theorem of_same (h : PaperAt shaded head lowest followed p) (same : SamePaper p q) (legal : q.settings.legal) :
    PaperAt shaded head lowest followed q := by
  obtain ⟨-, ring, shades, place, fraction, inc, lead⟩ := h
  obtain ⟨low, ringSame, feedSame, shadesSame, leadSame⟩ := same
  refine ⟨legal, ?_, fun w y => ?_, ?_, ?_, ?_, fun f => ?_⟩
  · unfold RingSound
    rw [ringSame, low]
    exact ring
  · rw [shadesSame]
    exact shades w y
  · rwa [ringSame]
  · rwa [feedSame]
  · rwa [feedSame]
  · rw [leadSame, ringSame]
    exact lead f

theorem same (h : PaperAt shaded head lowest followed p) (same : SameRoll p q) : PaperAt shaded head lowest followed q :=
  h.of_same same.toSamePaper (by rw [same.settings]; exact h.legal)

theorem setFeed (h : PaperAt shaded head lowest followed p) {f : FeedClock} (fraction : f.fraction ≤ 65535) (q :
    f.q ≤ 65535) :
    PaperAt shaded head lowest followed (p.setFeed f) :=
  ⟨h.legal, h.ring, h.shades, h.place, fraction, q, h.lead⟩

/-- The rows held are numbered from the head row on. -/
theorem numbers (h : PaperAt shaded head lowest followed p) :
    p.ring.rows.map StoredRow.number = List.range' head p.ring.rows.length := by
  obtain ⟨⟨numbers, -, -, -⟩, -⟩ := h.ring
  rw [numbers, ← h.place, Nat.add_sub_cancel]

theorem number_lt (h : PaperAt shaded head lowest followed p) {row : StoredRow} (mem : row ∈ p.ring.rows) :
    row.number < p.ring.nextExpected := by
  have inRange := List.mem_map_of_mem (f := StoredRow.number) mem
  rw [h.numbers, List.mem_range'_1, h.place] at inRange
  exact inRange.2

end PaperAt

namespace RollSound

theorem of_same (h : RollSound shaded followed p) (same : SamePaper p q) (legal : q.settings.legal) :
    RollSound shaded followed q := by
  obtain ⟨paper, running, starved, unloaded⟩ := h
  have moved := paper.of_same same legal
  rw [← same.feed] at moved
  refine ⟨moved, ?_, ?_, ?_⟩
  · rwa [same.feed]
  · rwa [same.feed, same.ring]
  · rwa [same.feed, same.ring]

theorem same (h : RollSound shaded followed p) (same : SameRoll p q) : RollSound shaded followed q :=
  h.of_same same.toSamePaper (by rw [same.settings]; exact h.paper.legal)

/-- A Feed Clock at the same row in a transport state that asks for nothing. -/
theorem setFeed (h : RollSound shaded followed p) {f : FeedClock} (head : f.headRow = p.feed.headRow)
    (fraction : f.fraction ≤ 65535) (q : f.q ≤ 65535) (running : f.transport ≠ .running) (starved : f.transport ≠ .starved)
    (unloaded : f.transport ≠ .unloaded) : RollSound shaded followed (p.setFeed f) := by
  refine ⟨?_, fun t => absurd t running, fun t => absurd t starved, fun t => absurd t unloaded⟩
  have moved := h.paper.setFeed fraction q
  rw [← head] at moved
  exact moved

/-- A Feed Clock that keeps its transport state, row and taken mark. -/
theorem retime (h : RollSound shaded followed p) {f : FeedClock} (transport : f.transport = p.feed.transport)
    (row : f.row = p.feed.row) (taken : f.taken = p.feed.taken) (fraction : f.fraction ≤ 65535) (q : f.q ≤ 65535) :
    RollSound shaded followed (p.setFeed f) := by
  obtain ⟨paper, running, starved, unloaded⟩ := h
  have head : f.headRow = p.feed.headRow := by unfold FeedClock.headRow; rw [row, taken]
  have moved := paper.setFeed fraction q
  rw [← head] at moved
  refine ⟨moved, ?_, ?_, ?_⟩
  · rwa [← transport, ← taken] at running
  · rwa [← transport, ← taken] at starved
  · rwa [← transport, ← taken, ← row] at unloaded

end RollSound

/-! ### The lead decoder -/

theorem examineRow_same (row : StoredRow) (p : Part) :
    ∃ l : LeadDecoder, l.next = row.number + 1 ∧ SameRoll (p.setLead l) (examineRow row p) := by
  refine ⟨{ next := row.number + 1
            lift := (moveLead p.settings .damperLift row p.pedals.lead.lift).state
            feather := (moveLead p.settings .damperFeather row p.pedals.lead.feather).state }, rfl, ?_⟩
  unfold examineRow leadOnset
  dsimp only
  split
  · split
    · exact sameRoll_play.lift _ _ _
    · exact sameRoll_play.refl _
  · exact sameRoll_play.refl _

/-- A lead decoder that has examined rows the ring holds leaves all else of the paper. -/
structure LeadMoved (p q : Part) : Prop where
  settings : q.settings = p.settings
  ring : q.ring = p.ring
  feed : q.feed = p.feed
  shades : ∀ y, (q.expression.halves.get y).shade = (p.expression.halves.get y).shade
  forward : p.pedals.lead.next ≤ q.pedals.lead.next
  held : p.pedals.lead.next ≤ p.ring.nextExpected → q.pedals.lead.next ≤ p.ring.nextExpected

namespace LeadMoved

theorem refl (p : Part) : LeadMoved p p := ⟨rfl, rfl, rfl, fun _ => rfl, le_refl _, id⟩

theorem trans {r : Part} (h : LeadMoved p q) (g : LeadMoved q r) : LeadMoved p r :=
  ⟨g.settings.trans h.settings, g.ring.trans h.ring, g.feed.trans h.feed, fun y => (g.shades y).trans (h.shades y),
    h.forward.trans g.forward, fun held => by
      have later := g.held
      rw [h.ring] at later
      exact later (h.held held)⟩

end LeadMoved

theorem examineRow_moved {row : StoredRow} (next : p.pedals.lead.next ≤ row.number)
    (held : row.number < p.ring.nextExpected) : LeadMoved p (examineRow row p) := by
  obtain ⟨l, after, ⟨_, ring, feed, shades, lead⟩, settings⟩ := examineRow_same row p
  have moved : (examineRow row p).pedals.lead.next = row.number + 1 := lead.trans after
  exact ⟨settings, ring, feed, shades, by omega, fun _ => by omega⟩

theorem examineFrom_moved (last : Nat) (rows : List StoredRow) (p : Part)
    (held : ∀ row ∈ rows, row.number < p.ring.nextExpected) : LeadMoved p (examineFrom last rows p) := by
  induction rows generalizing p with
  | nil => exact .refl p
  | cons row rest ih =>
    have later : ∀ x ∈ rest, x.number < p.ring.nextExpected := fun x hx => held x (List.mem_cons_of_mem _ hx)
    rw [examineFrom]
    split
    · exact ih p later
    · split
      · next here =>
        have moved := examineRow_moved here.1.ge (held row List.mem_cons_self)
        exact moved.trans (ih _ (by rwa [moved.ring]))
      · exact .refl p

theorem examineAhead_moved (h : PaperAt shaded head lowest followed p) : LeadMoved p (examineAhead p) := by
  unfold examineAhead
  split
  · exact .refl p
  · exact examineFrom_moved _ _ p fun _ mem => h.number_lt mem

theorem PaperAt.moved (h : PaperAt shaded head lowest followed p) (m : LeadMoved p q) :
    PaperAt shaded head lowest followed q := by
  obtain ⟨legal, ring, shades, place, fraction, inc, lead⟩ := h
  refine ⟨by rwa [m.settings], ?_, fun w y => ?_, ?_, ?_, ?_, fun f => ?_⟩
  · unfold RingSound
    rw [m.ring, m.settings]
    exact ring
  · rw [m.shades]
    exact shades w y
  · rwa [m.ring]
  · rwa [m.feed]
  · rwa [m.feed]
  · obtain ⟨low, high⟩ := lead f
    rw [m.ring]
    exact ⟨low.trans m.forward, m.held high⟩

theorem RollSound.moved (h : RollSound shaded followed p) (m : LeadMoved p q) : RollSound shaded followed q := by
  obtain ⟨paper, running, starved, unloaded⟩ := h
  have moved := paper.moved m
  rw [← m.feed] at moved
  refine ⟨moved, ?_, ?_, ?_⟩
  · rwa [m.feed]
  · rwa [m.feed, m.ring]
  · rwa [m.feed, m.ring]

theorem examineAhead_sound (h : RollSound shaded followed p) : RollSound shaded followed (examineAhead p) :=
  h.moved (examineAhead_moved h.paper)

/-! ### The transport -/

theorem increment_le (qBase buildUp rowsTaken : Nat) : increment qBase buildUp rowsTaken ≤ 65535 := by
  unfold increment
  omega

theorem recompute_q_le (f : FeedClock) : f.recompute.q ≤ 65535 := increment_le _ _ _

theorem pauseTransport_sound (h : RollSound shaded followed p) : RollSound shaded followed (pauseTransport p) := by
  refine RollSound.same ?_ (sameRoll_play.releasePlay _)
  exact h.setFeed rfl h.paper.fraction h.paper.q (by simp) (by simp) (by simp)

theorem endRoll_sound (h : RollSound shaded followed p) : RollSound shaded followed (endRoll p) := by
  have ended : RollSound shaded followed (raise .rollEnded (releasePlay (p.setFeed { p.feed with transport := .ended }))) := by
    refine RollSound.same ?_ (sameRoll_play.raise _ _)
    refine RollSound.same ?_ (sameRoll_play.releasePlay _)
    exact h.setFeed rfl h.paper.fraction h.paper.q (by simp) (by simp) (by simp)
  unfold endRoll
  split
  · exact ended
  · exact ended
  all_goals exact h

theorem expireStarve_sound (h : RollSound shaded followed p) : RollSound shaded followed (expireStarve p) := by
  refine RollSound.same ?_ (sameRoll_play.drop _ _)
  refine RollSound.same ?_ (sameRoll_play.holds _)
  exact h.retime rfl rfl rfl h.paper.fraction h.paper.q

/-! ### The take of a row -/

/-- The part at which a row falls due: the transport runs, and the row has not been taken. -/
structure RowIsDue (shaded followed : Prop) (p : Part) : Prop where
  paper : PaperAt shaded p.feed.row p.feed.row followed p
  running : p.feed.transport = .running
  untaken : p.feed.taken = false

/-- The part within the take of a row: the ring has given the row up, and the taken mark has not been set. -/
structure MidTake (shaded followed : Prop) (p : Part) : Prop where
  paper : PaperAt shaded (p.feed.row + 1) (p.feed.row + 1) followed p
  starved : p.feed.transport ≠ .starved
  unloaded : p.feed.transport ≠ .unloaded

theorem MidTake.same (h : MidTake shaded followed p) (same : SameRoll p q) : MidTake shaded followed q := by
  obtain ⟨paper, starved, unloaded⟩ := h
  have moved := paper.same same
  rw [← same.feed] at moved starved unloaded
  exact ⟨moved, starved, unloaded⟩

theorem MidTake.setFeed (h : MidTake shaded followed p) {f : FeedClock} (row : f.row = p.feed.row)
    (fraction : f.fraction ≤ 65535) (q : f.q ≤ 65535) (starved : f.transport ≠ .starved)
    (unloaded : f.transport ≠ .unloaded) : MidTake shaded followed (p.setFeed f) := by
  have moved := h.paper.setFeed fraction q
  rw [← row] at moved
  exact ⟨moved, starved, unloaded⟩

theorem enterStarve_sound (h : RowIsDue shaded followed p) (empty : p.ring.rows = []) :
    RollSound shaded followed (enterStarve p) := by
  obtain ⟨paper, running, untaken⟩ := h
  have starved : RollSound shaded followed (raise .starved (p.setFeed { p.feed with
      transport := .starved
      fraction := 0
      starve := some { started := p.now, hold := p.settings.starveHold } })) := by
    refine RollSound.same ?_ (sameRoll_play.raise _ _)
    have head : p.feed.headRow = p.feed.row := by unfold FeedClock.headRow; rw [untaken]; rfl
    rw [← head] at paper
    exact ⟨paper.setFeed (Nat.zero_le _) paper.q, ⟨nofun, fun _ => ⟨untaken, empty⟩, nofun⟩⟩
  unfold enterStarve
  dsimp only
  split
  · exact expireStarve_sound starved
  · exact starved

theorem takeCueAction_mid (a : FiredAction) (h : MidTake shaded followed p) :
    MidTake shaded followed (takeCueAction a p) := by
  obtain ⟨paper, starved, unloaded⟩ := id h
  have ended : MidTake shaded followed (raise .rollEnded (releasePlay (p.setFeed { p.feed with transport := .ended }))) := by
    refine MidTake.same ?_ (sameRoll_play.raise _ _)
    refine MidTake.same ?_ (sameRoll_play.releasePlay _)
    exact h.setFeed rfl paper.fraction paper.q (by simp) (by simp)
  unfold takeCueAction
  split
  · exact h
  · split
    · refine MidTake.same ?_ (sameRoll_play.releasePlay _)
      exact h.setFeed rfl paper.fraction paper.q (by simp) (by simp)
    · exact h
  · unfold endRoll
    split
    · exact ended
    · exact ended
    all_goals exact h
  · exact h.setFeed rfl paper.fraction (recompute_q_le _) starved unloaded
  · exact h.setFeed rfl paper.fraction (recompute_q_le _) starved unloaded

theorem matchCues_mid (levels : TrackSet) (h : MidTake shaded followed p) :
    MidTake shaded followed (matchCues levels p) := by
  unfold matchCues
  dsimp only
  split
  · refine inAnyOrder_keeps (P := MidTake shaded followed) ?_ fun a _ q mid => takeCueAction_mid a mid
    refine MidTake.same ?_ (sameRoll_play.choices _ _)
    refine MidTake.same ?_ (sameRoll_play.foldl (fun q i => sameRoll_play.updateNotices _ q) _ _)
    exact h.same (sameRoll_play.setCues _ p)
  · exact h

/-- The report of the take sets the taken mark (R21). -/
theorem countTake_eq (f : FeedClock) :
    f.countTake.taken = true ∧ f.countTake.row = f.row ∧ f.countTake.transport = f.transport
      ∧ f.countTake.fraction = f.fraction ∧ (f.q ≤ 65535 → f.countTake.q ≤ 65535) := by
  unfold FeedClock.countTake
  dsimp only
  split
  · exact ⟨rfl, rfl, rfl, rfl, fun _ => increment_le _ _ _⟩
  · exact ⟨rfl, rfl, rfl, rfl, id⟩

theorem reportTake_sound (row : Nat) (h : MidTake shaded followed p) : RollSound shaded followed (reportTake row p) := by
  obtain ⟨paper, starved, unloaded⟩ := h
  obtain ⟨taken, rowSame, transport, fraction, q⟩ := countTake_eq p.feed
  have head : p.feed.countTake.headRow = p.feed.row + 1 := by unfold FeedClock.headRow; rw [taken, rowSame]; rfl
  have counted : RollSound shaded followed (p.setFeed p.feed.countTake) := by
    have moved := paper.setFeed (f := p.feed.countTake) (by rw [fraction]; exact paper.fraction) (q paper.q)
    rw [← head] at moved
    refine ⟨moved, fun _ => taken, fun t => absurd (transport.symm.trans t) starved, fun t => ?_⟩
    exact absurd (transport.symm.trans t) unloaded
  unfold reportTake
  dsimp only
  split
  · exact endRoll_sound counted
  · exact counted

/-- What the ring's head row is while its row is due. -/
theorem RowIsDue.number (h : RowIsDue shaded followed p) {row : StoredRow} {rest : List StoredRow}
    (rows : p.ring.rows = row :: rest) : row.number = p.feed.row := by
  have numbers := h.paper.numbers
  rw [rows, List.map_cons, List.length_cons, List.range'_succ] at numbers
  exact (List.cons.inj numbers).1

theorem RowIsDue.moved (h : RowIsDue shaded followed p) (m : LeadMoved p q) : RowIsDue shaded followed q := by
  obtain ⟨paper, running, untaken⟩ := h
  have moved := paper.moved m
  rw [← m.feed] at moved running untaken
  exact ⟨moved, running, untaken⟩

/-- With PedalLead above 0 the lead decoder has examined the row before its take (R51, R159). -/
theorem examineBeforeTake_moved (row : StoredRow) (held : row.number < p.ring.nextExpected) :
    LeadMoved p (examineBeforeTake row p)
      ∧ (p.settings.pedalLead ≠ 0 → row.number + 1 ≤ (examineBeforeTake row p).pedals.lead.next) := by
  unfold examineBeforeTake
  split
  · next here =>
    obtain ⟨l, after, same⟩ := examineRow_same row p
    exact ⟨examineRow_moved here.2 held, fun _ => (same.lead.trans after).ge⟩
  · next none =>
    exact ⟨.refl p, fun lead => by have := not_and.1 none lead; omega⟩

theorem takeHead_same (p : Part) :
    SameRoll { p with ring := { p.ring with rows := p.ring.rows.tail }.marked p.settings.ringLow } (takeHead p) := by
  unfold takeHead
  dsimp only
  split
  · exact sameRoll_play.raise _ _
  · exact sameRoll_play.refl _

/-- The ring gives up the row that is due. -/
theorem takeHead_mid (h : RowIsDue shaded followed p) (held : p.ring.rows ≠ []) {passed : Prop}
    (lead : passed → followed ∧ p.feed.row + 1 ≤ p.pedals.lead.next) : MidTake shaded passed (takeHead p) := by
  obtain ⟨⟨legal, ⟨⟨numbers, -, room, most⟩, -⟩, shades, place, fraction, q, ahead⟩, running, -⟩ := id h
  refine MidTake.same (p := { p with ring := { p.ring with rows := p.ring.rows.tail }.marked p.settings.ringLow }) ?_
    (takeHead_same p)
  have shorter : p.ring.rows.tail.length + 1 = p.ring.rows.length := by
    have := List.length_pos_iff.2 held
    rw [List.length_tail]
    omega
  have starved : p.feed.transport ≠ .starved := by rw [running]; nofun
  have unloaded : p.feed.transport ≠ .unloaded := by rw [running]; nofun
  refine ⟨⟨legal, ⟨⟨?_, ?_, ?_, most⟩, ?_⟩, shades, ?_, fraction, q, fun f => ?_⟩, starved, unloaded⟩
  · have start : p.ring.nextExpected - p.ring.rows.tail.length = p.feed.row + 1 := by omega
    dsimp only [RowRing.marked]
    rw [start, List.map_tail, h.paper.numbers, ← shorter, List.range'_succ, List.tail_cons]
  · dsimp only [RowRing.marked]
    omega
  · dsimp only [RowRing.marked]
    omega
  · exact decide_eq_true_iff
  · dsimp only [RowRing.marked]
    omega
  · exact ⟨(lead f).2, (ahead (lead f).1).2⟩

theorem decodeRow_sound (row : StoredRow) (h : MidTake shaded followed p) :
    RollSound shaded followed (decodeRow row p) := by
  unfold decodeRow
  dsimp only
  refine reportTake_sound _ (matchCues_mid _ ?_)
  refine MidTake.same ?_ (sameRoll_play.handOut _ _)
  exact h.same (sameRoll_play.setTracks _ p)

/-- After the take the lead decoder looks ahead; with PedalLead 0 its next row is the head row (R159). -/
theorem examineAfterTake_sound {passed : Prop} (h : RollSound shaded passed p)
    (lead : followed → p.settings.pedalLead ≠ 0 → passed) : RollSound shaded followed (examineAfterTake p) := by
  obtain ⟨⟨legal, ring, shades, place, fraction, q, ahead⟩, running, starved, unloaded⟩ := id h
  have transport : TransportSound p := ⟨running, starved, unloaded⟩
  unfold examineAfterTake
  split
  · exact ⟨⟨legal, ring, shades, place, fraction, q, fun _ => ⟨le_refl _, (Nat.le_add_right _ _).trans_eq place⟩⟩,
      running, starved, unloaded⟩
  · next some =>
    exact examineAhead_sound ⟨⟨legal, ring, shades, place, fraction, q, fun f => ahead (lead f some)⟩, transport⟩

theorem takeRow_sound (h : RowIsDue shaded followed p) {row : StoredRow} {rest : List StoredRow}
    (rows : p.ring.rows = row :: rest) : RollSound shaded followed (takeRow row p) := by
  have number := h.number rows
  obtain ⟨moved, examined⟩ := examineBeforeTake_moved (p := p) row (h.paper.number_lt (by rw [rows]; exact List.mem_cons_self))
  have settled : (decodeRow row (takeHead (examineBeforeTake row p))).settings = p.settings := by
    rw [(sameSettings_roll.decodeRow _ _).settings, (takeHead_same _).settings]
    exact moved.settings
  unfold takeRow
  refine examineAfterTake_sound (passed := followed ∧ p.settings.pedalLead ≠ 0) (decodeRow_sound row ?_) fun f some => ?_
  · refine takeHead_mid (h.moved moved) (by rw [moved.ring, rows]; exact List.cons_ne_nil _ _) fun f => ⟨f.1, ?_⟩
    rw [moved.feed, ← number]
    exact examined f.2
  · rw [settled] at some
    exact ⟨f, some⟩

theorem rowDue_sound (h : RowIsDue shaded followed p) : RollSound shaded followed (rowDue p) := by
  unfold rowDue
  split
  · next empty => exact enterStarve_sound h empty
  · next row rest rows => exact takeRow_sound h rows

end Sys2Proof.Machine
end

section
/-! PROOFS. The transport, the requests, the ticks and the writes keep the paper sound, and so does every step (O53). -/

namespace Sys2Proof.Machine

variable {shaded followed : Prop} {p : Part}

/-! ### The transport -/

theorem head_of_untaken {f : FeedClock} (h : f.taken = false) : f.headRow = f.row := by
  unfold FeedClock.headRow
  rw [h]
  rfl

/-- Play begins, or goes on, at a row that is due. -/
theorem RollSound.due (h : RollSound shaded followed p) {f : FeedClock} (row : f.row = p.feed.row) (taken :
    f.taken = p.feed.taken)
    (running : f.transport = .running) (fraction : f.fraction ≤ 65535) (q : f.q ≤ 65535) (untaken : p.feed.taken = false) :
    RowIsDue shaded followed (p.setFeed f) := by
  have moved := h.paper.setFeed fraction q
  rw [head_of_untaken untaken, ← row] at moved
  exact ⟨moved, running, taken.trans untaken⟩

theorem RowIsDue.same {q : Part} (h : RowIsDue shaded followed p) (same : SameRoll p q) : RowIsDue shaded followed q := by
  obtain ⟨paper, running, untaken⟩ := h
  have moved := paper.same same
  rw [← same.feed] at moved running untaken
  exact ⟨moved, running, untaken⟩

theorem advanceFeed_sound (h : RollSound shaded followed p) (running : p.feed.transport = .running) :
    RollSound shaded followed (advanceFeed p) := by
  have taken := h.transport.running running
  have fraction := h.paper.fraction
  have q := h.paper.q
  unfold advanceFeed
  dsimp only
  split
  · exact h.retime rfl rfl rfl (by dsimp only; omega) q
  · refine rowDue_sound ⟨?_, running, rfl⟩
    have moved := h.paper.setFeed (f := { p.feed with
        fraction := p.feed.fraction + p.feed.q - 65536, row := p.feed.row + 1, taken := false }) (by dsimp only; omega) q
    unfold FeedClock.headRow at moved
    rw [taken] at moved
    exact moved

theorem feedTick_sound (h : RollSound shaded followed p) : RollSound shaded followed (feedTick p) := by
  have ticked : RollSound shaded followed (p.setFeed { p.feed with nextTick := p.now + 2 }) :=
    h.retime rfl rfl rfl h.paper.fraction h.paper.q
  unfold feedTick
  dsimp only
  split
  · next running => exact advanceFeed_sound ticked running
  · exact ticked

theorem startRunning_sound (h : RollSound shaded followed p) : RollSound shaded followed (startRunning p) := by
  have resynced : SameRoll (p.setFeed { p.feed with transport := .running })
      (resyncPedals (cancelPlayer (p.setFeed { p.feed with transport := .running }))) :=
    sameRoll_play.trans (sameRoll_play.cancelPlayer _) (sameRoll_play.resyncPedals _)
  have paper : PaperAt shaded p.feed.headRow p.feed.headRow followed (p.setFeed { p.feed with transport := .running }) :=
    h.paper.setFeed h.paper.fraction h.paper.q
  have moved := examineAhead_moved (paper.same resynced)
  have feed := moved.feed.trans resynced.feed
  unfold startRunning
  dsimp only
  split
  · next taken =>
    rw [feed] at taken
    refine RollSound.moved (RollSound.same ⟨paper, fun _ => taken, nofun, nofun⟩ resynced) moved
  · next untaken =>
    rw [feed] at untaken
    have due := h.due (f := { p.feed with transport := .running }) rfl rfl rfl h.paper.fraction h.paper.q
      (Bool.eq_false_iff.2 untaken)
    exact rowDue_sound ((due.same resynced).moved moved)

/-- A part whose ring is clear and whose roll is at a row not taken. -/
theorem RollSound.fresh {n : Nat} (legal : p.settings.legal) (ring : p.ring = RowRing.cleared n) (most : n ≤ 2147483648)
    (row : p.feed.row = n) (untaken : p.feed.taken = false) (fraction : p.feed.fraction = 0) (q : p.feed.q ≤ 65535)
    (running : p.feed.transport ≠ .running) (unloaded : p.feed.transport = .unloaded → n = 0) (shades : shaded → ShadesSound p)
    (lead : p.pedals.lead.next = n) : RollSound shaded followed p := by
  obtain ⟨⟨⟨low, -⟩, -⟩, -⟩ := id legal
  have rows : p.ring.rows = [] := by rw [ring]; rfl
  have next : p.ring.nextExpected = n := by rw [ring]; rfl
  have above : p.ring.above = false := by rw [ring]; rfl
  have head : p.feed.headRow = n := (head_of_untaken untaken).trans row
  refine ⟨⟨legal, ⟨⟨?_, ?_, ?_, ?_⟩, ?_⟩, shades, ?_, ?_, q, fun _ => ?_⟩, ⟨fun t => absurd t running, fun _ =>
    ⟨untaken, rows⟩, fun t => ⟨row.trans (unloaded t), untaken, rows⟩⟩⟩
  · rw [rows]; rfl
  · rw [rows]; exact Nat.zero_le _
  · rw [rows]; exact Nat.zero_le _
  · rwa [next]
  · rw [above, rows, List.length_nil]
    exact ⟨nofun, fun le => by omega⟩
  · rw [rows, head, next]; rfl
  · rw [fraction]; exact Nat.zero_le _
  · rw [lead, head, next]
    exact ⟨le_refl _, le_refl _⟩

/-- A recomputation replaces Q_base and Q alone (R22, R23). -/
theorem recompute_eq (f : FeedClock) : ∃ qBase q, f.recompute = { f with qBase := qBase, q := q } :=
  ⟨baseIncrement f.pitch f.tempo f.trim,
    increment (baseIncrement f.pitch f.tempo f.trim) f.buildUp f.rowsTaken, by
      unfold FeedClock.recompute FeedClock.recomputeQ; rfl⟩

theorem loadTransport_sound (legal : p.settings.legal) {startRow : Nat} (most : startRow ≤ 2147483648)
    (endRow pitch tempo buildUp : Nat) : RollSound shaded followed (loadTransport startRow endRow pitch tempo buildUp p) := by
  have play := sameRoll_play
  obtain ⟨-, ⟨⟨table, -⟩, -⟩, -⟩ := id legal
  unfold loadTransport FeedClock.load
  generalize loading : ({ p.feed with
      transport := .loaded, row := startRow, fraction := 0, taken := false, tempo := tempo, trim := 1000
      pitch := if pitch = 0 then 300 else pitch, buildUp := buildUp, endRow := endRow, rowsTaken := 0
      starve := none } : FeedClock) = f
  obtain ⟨qBase, inc, same⟩ := recompute_eq f
  have row : f.recompute.row = startRow := by rw [same, ← loading]
  have taken : f.recompute.taken = false := by rw [same, ← loading]
  have transport : f.recompute.transport = .loaded := by rw [same, ← loading]
  have fraction : f.recompute.fraction = 0 := by rw [same, ← loading]
  have q := recompute_q_le f
  generalize f.recompute = g at row taken transport fraction q ⊢
  dsimp only
  refine RollSound.same ?_ (play.cancelPlayer _)
  refine RollSound.same ?_ (play.drop _ _)
  refine RollSound.same ?_ (play.release _ _)
  refine RollSound.same ?_ (play.levelRefresh _)
  refine RollSound.fresh (n := startRow) ?_ rfl most row taken fraction q ?_ ?_ (fun _ y => ?_) ?_
  · have roll := sameSettings_roll
    refine legal_of_eq legal (SameSettings.settings ?_)
    refine roll.trans ?_ (roll.setExpression _ _)
    refine roll.trans ?_ (roll.setExpression _ _)
    refine roll.trans ?_ (roll.setCues _ _)
    refine roll.trans ?_ (roll.resetLead _)
    refine roll.trans ?_ (roll.closeTracks _)
    exact roll.trans (roll.setFeed _ p) (roll.setRing _ _)
  · exact fun t => by cases transport.symm.trans t
  · exact fun t => by cases transport.symm.trans t
  · cases y <;> exact table 0
  · exact (head_of_untaken taken).trans row

theorem unloadRoll_sound (h : p.settings.legal) (shades : shaded → ShadesSound p) (releases : Nat) (next : Time)
    (feed : p.feed = FeedClock.unloadedWith releases next) : RollSound shaded followed (unloadRoll p) := by
  have play := sameRoll_play
  have untaken : p.feed.taken = false := by rw [feed]; rfl
  have row : p.feed.row = 0 := by rw [feed]; rfl
  unfold unloadRoll
  refine RollSound.same ?_ (play.cancelPlayer _)
  refine RollSound.same ?_ (play.levelRefresh _)
  refine RollSound.fresh (n := 0) h rfl (Nat.zero_le _) row untaken ?_ ?_ ?_ (fun _ => rfl) (fun w y => ?_) ?_
  · exact congrArg FeedClock.fraction feed
  · exact (congrArg FeedClock.q feed).trans_le (Nat.zero_le _)
  · exact fun t => by cases (congrArg FeedClock.transport feed).symm.trans t
  · cases y
    · exact shades w .bass
    · exact shades w .treble
  · exact (head_of_untaken untaken).trans row

/-! ### Requests -/

theorem loadRoll_sound (payload : List Byte) (h : RollSound shaded followed p) :
    RollSound shaded followed (loadRoll payload p).2 := by
  unfold loadRoll
  dsimp only
  split
  · exact h
  · split
    · exact h
    · split
      · exact h
      · next legal =>
        have start : (LoadRequest.read payload).startRow ≤ Config.lastRow := by
          simp only [LoadRequest.legal, Bool.not_eq_true', Bool.not_eq_false, Bool.and_eq_true, decide_eq_true_eq] at legal
          exact legal.1.1.1.1
        exact loadTransport_sound h.paper.legal (start.trans (by decide)) _ _ _ _

/-- The part that a batch has reached: its rows follow on those held, and its low-water state is true. -/
theorem stored_paper (h : RollSound shaded followed p) {holes : List TrackSet} (stored : holes.take p.ring.free ≠ [])
    (most : p.ring.nextExpected + holes.length ≤ 2147483648) :
    PaperAt shaded p.feed.headRow p.feed.headRow followed
      { p with ring := (p.ring.store (numberRows p.ring.nextExpected holes)).marked p.settings.ringLow } := by
  obtain ⟨legal, ⟨⟨-, -, room, -⟩, -⟩, shades, place, fraction, q, lead⟩ := id h.paper
  have numbers := h.paper.numbers
  have fits : (holes.take p.ring.free).length ≤ Config.ringRows - p.ring.rows.length := List.length_take_le _ _
  have part : (holes.take p.ring.free).length ≤ holes.length := List.length_take_le' _ _
  rw [RowRing.store_numberRows _ _ stored]
  generalize holes.take p.ring.free = kept at fits part stored
  simp only [Config.ringRows] at fits
  refine ⟨legal, ⟨⟨?_, ?_, ?_, ?_⟩, ?_⟩, shades, ?_, fraction, q, fun f => ⟨(lead f).1, (lead f).2.trans ?_⟩⟩
  · have start : p.ring.nextExpected + kept.length - (p.ring.rows.length + kept.length) = p.feed.headRow := by omega
    simp only [RowRing.marked, List.map_append, numberRows_numbers, List.length_append, numberRows_length, numbers, start]
    rw [← place, List.range'_append_1]
  all_goals simp only [RowRing.marked, List.length_append, numberRows_length, RowRing.occupancy, decide_eq_true_iff]
  all_goals omega

theorem resumeStarved_sound (paper : PaperAt shaded p.feed.headRow p.feed.headRow followed p) (untaken :
    p.feed.taken = false) :
    RollSound shaded followed (resumeStarved p) := by
  have due : RowIsDue shaded followed (p.setFeed { p.feed with transport := .running, starve := none }) := by
    have moved := paper.setFeed (f := { p.feed with transport := .running, starve := none }) paper.fraction paper.q
    rw [head_of_untaken untaken] at moved
    exact ⟨moved, rfl, untaken⟩
  unfold resumeStarved
  dsimp only
  split
  · exact (rowDue_sound due).same (sameRoll_play.resyncPedals _)
  · exact rowDue_sound due

/-- Rows that have arrived where the transport has been loaded. -/
theorem rowsArrive_sound (paper : PaperAt shaded p.feed.headRow p.feed.headRow followed p)
    (running : p.feed.transport = .running → p.feed.taken = true)
    (starved : p.feed.transport = .starved → p.feed.taken = false) (unloaded : p.feed.transport ≠ .unloaded) :
    RollSound shaded followed (rowsArrive p) := by
  unfold rowsArrive
  split
  · next waits => exact examineAhead_sound (resumeStarved_sound paper (starved waits))
  · next waits =>
    have sound : RollSound shaded followed p :=
      ⟨paper, running, fun t => absurd t waits, fun t => absurd t unloaded⟩
    split
    · exact examineAhead_sound sound
    · exact sound

theorem storeBatch_sound (h : RollSound shaded followed p) (loaded : p.feed.transport ≠ .unloaded) {first : Nat}
    {holes : List TrackSet} (most : first + holes.length ≤ 2147483648) :
    RollSound shaded followed (storeBatch (numberRows first holes) p).2 := by
  unfold storeBatch
  dsimp only
  split
  · exact h
  · next noGap =>
    split
    · exact h
    · next some =>
      rw [RowRing.unskipped_numberRows, RowRing.gap_numberRows, Bool.and_eq_true, Bool.not_eq_true',
        List.isEmpty_eq_false_iff, decide_eq_true_eq] at noGap
      simp only [RowRing.unskipped_numberRows, withinRoll_numberRows, numberRows_length] at some ⊢
      have within : ∀ xs : List TrackSet, (if p.feed.endRow = 0 then xs else xs.take
          (p.feed.endRow + 1 - max p.ring.nextExpected first)).length ≤ xs.length := fun xs => by
        split
        · exact le_refl _
        · exact List.length_take_le' _ _
      have bound := within (holes.drop (p.ring.nextExpected - first))
      rw [List.length_drop] at bound
      have left : holes.drop (p.ring.nextExpected - first) ≠ [] := fun none => by
        rw [none] at some
        exact some (by simp)
      have next : max p.ring.nextExpected first = p.ring.nextExpected := by
        have := not_and.1 noGap left
        omega
      rw [next] at some bound ⊢
      generalize (if p.feed.endRow = 0 then holes.drop (p.ring.nextExpected - first) else
        (holes.drop (p.ring.nextExpected - first)).take (p.feed.endRow + 1 - p.ring.nextExpected)) = kept at some bound ⊢
      have taken : kept.take p.ring.free ≠ [] := fun none => by
        have length := congrArg List.length none
        rw [List.length_take, List.length_nil] at length
        omega
      have nonempty := List.length_pos_iff.2 left
      rw [List.length_drop] at nonempty
      have paper := stored_paper h taken (by omega)
      exact rowsArrive_sound paper h.transport.running (fun t => (h.transport.starved t).1) loaded

theorem feedRows_sound (payload : List Byte) (h : RollSound shaded followed p) :
    RollSound shaded followed (feedRows payload p).2 := by
  unfold feedRows
  dsimp only
  split
  · exact h
  · split
    · exact h
    · next playable =>
      split
      · exact h
      · next legal =>
        split
        · exact h
        · next holes expanded =>
          have most : (FeedRequest.read payload).firstRow + (FeedRequest.read payload).count ≤ Config.lastRow + 1 := by
            simp only [FeedRequest.legal, Bool.not_eq_true', Bool.not_eq_false, Bool.and_eq_true, decide_eq_true_eq]
              at legal
            exact legal.2
          refine storeBatch_sound h (not_or.1 playable).1 ?_
          rw [expandRecords_length expanded]
          exact most

theorem stopTransport_sound (h : RollSound shaded followed p) : RollSound shaded followed (stopTransport p) := by
  have same : SameRoll (p.setFeed p.feed.unload) (dropAllPedals (releaseKeyLines false (p.setFeed p.feed.unload))) :=
    sameRoll_play.trans (sameRoll_play.release _ _) (sameRoll_play.dropAllPedals _)
  unfold stopTransport
  refine unloadRoll_sound ?_ (fun w y => ?_) p.feed.starveReleases p.feed.nextTick same.feed
  · rw [same.settings]
    exact h.paper.legal
  · rw [same.shades]
    exact h.paper.shades w y

theorem softReset_sound (h : RollSound shaded followed p) : RollSound shaded followed (softReset p) := by
  have play := sameRoll_play
  have same : SameRoll p (dropAllPedals (restoreAllPedals (releaseKeyLines true p))) :=
    play.trans (play.trans (play.release _ _) (play.restoreAllPedals _)) (play.dropAllPedals _)
  unfold softReset
  dsimp only
  generalize dropAllPedals (restoreAllPedals (releaseKeyLines true p)) = released at same
  refine RollSound.same ?_ (play.raise _ _)
  refine RollSound.same ?_ (play.setCues _ _)
  refine unloadRoll_sound (p := released.setFeed released.feed.unload) ?_ (fun w y => ?_) _ _ rfl
  · exact legal_of_eq h.paper.legal same.settings
  · exact (same.shades y).trans_le (h.paper.shades w y)

theorem withTempo_sound (h : RollSound shaded followed p) (tempo trim : Nat) :
    RollSound shaded followed (p.setFeed (p.feed.withTempo tempo trim)) := by
  unfold FeedClock.withTempo
  split
  · exact h
  · obtain ⟨qBase, q, same⟩ := recompute_eq { p.feed with tempo := tempo, trim := trim }
    refine h.retime ?_ ?_ ?_ ?_ (recompute_q_le _)
    all_goals rw [same]
    exact h.paper.fraction

theorem setTempo_sound (payload : List Byte) (h : RollSound shaded followed p) :
    RollSound shaded followed (setTempo payload p).2 := by
  unfold setTempo
  dsimp only
  split
  · exact h
  · split
    · exact h
    · exact withTempo_sound h _ _

/-! ### Ticks -/

theorem glide_le {shade target rate : Nat} (h : shade ≤ 1023) (g : target ≤ 1023) : glide shade target rate ≤ 1023 := by
  unfold glide
  split <;> omega

theorem expressionTarget_le {t : Settings} (h : t.legal) (l : InputLevels) : expressionTarget t l ≤ 1023 := by
  obtain ⟨-, ⟨⟨table, -⟩, -, -, -, ceiling, -⟩, -⟩ := h
  have base := table l.step
  unfold expressionTarget expressionBase
  split
  · exact max_le base ceiling
  · exact base

theorem expressionTick_sound (h : RollSound shaded followed p) : RollSound shaded followed (expressionTick p) := by
  have play := sameRoll_play
  have ticked : RollSound shaded followed { p with expression := { p.expression with nextTick := p.now + 20 } } :=
    h.same (play.setLevels _ p fun _ => rfl)
  unfold expressionTick
  dsimp only
  split
  · unfold expressionTicks
    dsimp only
    refine RollSound.same ?_ (play.autoRailStage .treble _)
    refine RollSound.same ?_ (play.autoRailStage .bass _)
    obtain ⟨⟨legal, ring, shades, place, fraction, q, lead⟩, transport⟩ := h
    refine ⟨⟨legal, ring, fun w y => ?_, place, fraction, q, lead⟩, transport.running, transport.starved, transport.unloaded⟩
    cases y
    · exact glide_le (shades w .bass) (expressionTarget_le legal _)
    · exact glide_le (shades w .treble) (expressionTarget_le legal _)
  · exact ticked

/-! ### Writes and recalls -/

/-- What a write or a recall leaves of the paper: the ring may have been marked by the RingLow it now has, and the lead
decoder reset. -/
structure Remarked (p q : Part) : Prop where
  rows : q.ring.rows = p.ring.rows
  next : q.ring.nextExpected = p.ring.nextExpected
  above : (q.ring.above = p.ring.above ∧ q.settings.ringLow = p.settings.ringLow)
    ∨ q.ring.above = decide (q.settings.ringLow ≤ q.ring.rows.length)
  feed : q.feed = p.feed
  shades : ∀ y, (q.expression.halves.get y).shade = (p.expression.halves.get y).shade
  lead : q.pedals.lead.next = p.pedals.lead.next ∨ q.pedals.lead.next = p.feed.headRow

theorem SamePaper.remarked {q : Part} (h : SamePaper p q) : Remarked p q :=
  ⟨by rw [h.ring], by rw [h.ring], .inl ⟨by rw [h.ring], h.low⟩, h.feed, h.shades, .inl h.lead⟩

theorem Remarked.refl (p : Part) : Remarked p p := (SamePaper.refl p).remarked

theorem Remarked.same {q r : Part} (h : Remarked p q) (g : SamePaper q r) : Remarked p r := by
  obtain ⟨rows, next, above, feed, shades, lead⟩ := h
  obtain ⟨low, ring, feedSame, shadesSame, leadSame⟩ := g
  exact ⟨by rw [ring, rows], by rw [ring, next], by rw [ring, low]; exact above, by rw [feedSame, feed],
    fun y => (shadesSame y).trans (shades y), by rw [leadSame]; exact lead⟩

theorem RollSound.remarked {q : Part} (h : RollSound shaded followed p) (legal : q.settings.legal) (same : Remarked p q) :
    RollSound shaded followed q := by
  obtain ⟨⟨-, ⟨⟨numbers, low, room, most⟩, mark⟩, bounds, place, fraction, inc, ahead⟩, running, starved, unloaded⟩ := h
  obtain ⟨rows, next, above, feed, shades, lead⟩ := same
  refine ⟨⟨legal, ⟨⟨?_, ?_, ?_, ?_⟩, ?_⟩, fun w y => ?_, ?_, ?_, ?_, fun f => ?_⟩, ?_, ?_, ?_⟩
  · rwa [rows, next]
  · rwa [rows, next]
  · rwa [rows]
  · rwa [next]
  · rcases above with ⟨aboveSame, lowSame⟩ | marked
    · rw [aboveSame, lowSame, rows]
      exact mark
    · rw [marked]
      exact decide_eq_true_iff
  · rw [shades]
    exact bounds w y
  · rwa [feed, rows, next]
  · rwa [feed]
  · rwa [feed]
  · have := ahead f
    rw [feed, next]
    omega
  · rwa [feed]
  · rwa [feed, rows]
  · rwa [feed, rows]

theorem withSettings_paper {f : Settings → Settings} (low : (f p.settings).ringLow = p.settings.ringLow) :
    SamePaper p (p.withSettings f) := ⟨low, rfl, rfl, fun _ => rfl, rfl⟩

theorem writeChecked_paper (ok : Bool) {f : Settings → Settings} (low : (f p.settings).ringLow = p.settings.ringLow) :
    Remarked p (writeChecked ok f p).2 := by
  unfold writeChecked
  split
  · exact (withSettings_paper low).remarked
  · exact .refl p

theorem writeAgainst_paper (ok conflict : Bool) {f : Settings → Settings}
    (low : (f p.settings).ringLow = p.settings.ringLow) : Remarked p (writeAgainst ok conflict f p).2 := by
  unfold writeAgainst
  split
  · exact .refl p
  · split
    · exact .refl p
    · exact (withSettings_paper low).remarked

theorem writeBudget_paper (ok conflict : Bool) {f : Settings → Settings}
    (low : (f p.settings).ringLow = p.settings.ringLow) : Remarked p (writeBudget ok conflict f p).2 := by
  unfold writeBudget
  split
  · exact .refl p
  · exact writeAgainst_paper ok conflict low

theorem setPlain_ringLow (item : Item) (v : Nat) (t : Settings) :
    (t.setPlain item v).ringLow = t.ringLow := by
  cases item <;> rfl

theorem applyHold_paper (d : Pedal) (holding : PedalRecord → Bool) (duty : Nat) (p : Part) :
    SamePaper p (applyHold d holding duty p) := (applyHold_frame d holding duty p).sameRoll.toSamePaper

/-- A write of one of the items that the paper's blocks own. -/
theorem writeOwn_remarked (v index : Nat) (value : List Byte) (p : Part) :
    Remarked p (writeRingLowValue v p).2 ∧ Remarked p (writeTrackMapValue index value p).2
      ∧ Remarked p (writeOnRowsValue v p).2 ∧ Remarked p (writeOffRowsValue v p).2
      ∧ Remarked p (writePedalLeadValue v p).2 := by
  refine ⟨?_, ?_, ?_, ?_, ?_⟩
  · unfold writeRingLowValue
    split
    · exact ⟨rfl, rfl, .inr rfl, rfl, fun _ => rfl, .inl rfl⟩
    · exact .refl p
  · unfold writeTrackMapValue
    split
    · exact .refl p
    · split
      · split
        · exact .refl p
        · refine Remarked.same ?_ (sameRoll_play.levelRefresh _).toSamePaper
          exact ⟨rfl, rfl, .inl ⟨rfl, rfl⟩, rfl, fun _ => rfl, .inr rfl⟩
      · exact .refl p
  · unfold writeOnRowsValue
    split
    · exact .refl p
    · split
      · exact ⟨rfl, rfl, .inl ⟨rfl, rfl⟩, rfl, fun _ => rfl, .inl rfl⟩
      · exact .refl p
  · unfold writeOffRowsValue
    split
    · exact .refl p
    · split
      · exact ⟨rfl, rfl, .inl ⟨rfl, rfl⟩, rfl, fun _ => rfl, .inl rfl⟩
      · exact .refl p
  · unfold writePedalLeadValue
    split
    · exact .refl p
    · split
      · exact ⟨rfl, rfl, .inl ⟨rfl, rfl⟩, rfl, fun _ => rfl, .inr rfl⟩
      · exact .refl p

/-- A write of one of the items whose blocks take the new value at once. -/
theorem writeTaken_remarked (v index : Nat) (value : List Byte) (p : Part) :
    Remarked p (writeCueSlotValue index value p).2 ∧ Remarked p (writeRailModeValue index v p).2
      ∧ Remarked p (writeRepeatGuardValue v p).2 ∧ Remarked p (writePwmBaseValue v p).2
      ∧ Remarked p (writeHeatSoftValue v p).2 ∧ Remarked p (writeHeatHardValue v p).2 := by
  refine ⟨?_, ?_, ?_, ?_, ?_, ?_⟩
  · unfold writeCueSlotValue
    split
    · split
      · refine Remarked.same ?_ (sameRoll_play.disarmCues _).toSamePaper
        exact ⟨rfl, rfl, .inl ⟨rfl, rfl⟩, rfl, fun _ => rfl, .inl rfl⟩
      · exact .refl p
    · exact .refl p
  · unfold writeRailModeValue
    split
    · exact (withSettings_paper rfl).remarked.same (sameRoll_play.handRailMode _ _).toSamePaper
    · exact .refl p
  · unfold writeRepeatGuardValue
    split
    · exact (withSettings_paper rfl).remarked.same (endElapsedGuards_frame _).sameRoll.toSamePaper
    · exact .refl p
  · unfold writePwmBaseValue
    split
    · exact .refl p
    · split
      · exact ⟨rfl, rfl, .inl ⟨rfl, rfl⟩, rfl, fun _ => rfl, .inl rfl⟩
      · exact .refl p
  · unfold writeHeatSoftValue
    split
    · exact .refl p
    · split
      · exact .refl p
      · dsimp only
        refine Remarked.same ?_ (updateAllResting_frame _).sameRoll.toSamePaper
        exact (withSettings_paper rfl).remarked
  · unfold writeHeatHardValue
    split
    · exact .refl p
    · split
      · exact .refl p
      · dsimp only
        refine Remarked.same ?_ (updateAllResting_frame _).sameRoll.toSamePaper
        exact (withSettings_paper rfl).remarked

/-- A write of a hold duty. -/
theorem writeHold_remarked (v : Nat) (p : Part) : Remarked p (writeDamperHoldFullValue v p).2
    ∧ Remarked p (writeDamperHoldPartValue v p).2 ∧ Remarked p (writeRailHoldValue v p).2 := by
  refine ⟨?_, ?_, ?_⟩
  · unfold writeDamperHoldFullValue
    split
    · exact .refl p
    · split
      · exact .refl p
      · exact (withSettings_paper rfl).remarked.same (applyHold_paper _ _ _ _)
  · unfold writeDamperHoldPartValue
    split
    · exact .refl p
    · split
      · exact .refl p
      · exact (withSettings_paper rfl).remarked.same (applyHold_paper _ _ _ _)
  · unfold writeRailHoldValue
    split
    · exact (withSettings_paper rfl).remarked.same (applyRailHold_frame _).sameRoll.toSamePaper
    · exact .refl p

/-- A write of a mask. -/
theorem writeMask_remarked (index v : Nat) (p : Part) : Remarked p (writeNoticeMaskValue v p).2
    ∧ Remarked p (writeLineFaultMaskValue index v p).2 ∧ Remarked p (writeLineRestingMaskValue index v p).2 := by
  unfold writeNoticeMaskValue writeLineFaultMaskValue writeLineRestingMaskValue
  refine ⟨?_, ?_, ?_⟩
  all_goals
    split
    · dsimp only
      exact (sameRoll_play.updateNotices _ p).toSamePaper.remarked
    · exact .refl p

theorem writeItem_remarked (item : Item) (index : Nat) (value : List Byte) (p : Part) :
    Remarked p (writeItem item index value p).2 := by
  cases range : item.plainRange with
  | some lh =>
    rw [writeItem_plain range]
    exact writeChecked_paper _ (setPlain_ringLow item _ _)
  | none =>
    unfold writeItem
    dsimp only
    generalize fieldAt value 0 2 = v
    obtain ⟨ringLow, trackMap, onRows, offRows, pedalLead⟩ := writeOwn_remarked v index value p
    obtain ⟨cueSlot, railMode, guard, pwmBase, soft, hard⟩ := writeTaken_remarked v index value p
    obtain ⟨full, part, rail⟩ := writeHold_remarked v p
    obtain ⟨notice, fault, resting⟩ := writeMask_remarked index v p
    cases item <;> dsimp only
    case trimLow | trimHigh | starveHold | stepRate | slowRate | quickRate | swellCeiling | accentLift | kickMin | kickMax
        | waitLimit | holdLimit | damperKick | damperKickDuty | damperSettle | railKick | railKickDuty | railSettle =>
      cases range
    case ringLow | trackMap | onRows | offRows | pedalLead | cueSlot | railMode | repeatGuard | pwmBase | heatSoft
        | heatHard | damperHoldFull | damperHoldPart | railHold | noticeMask | lineFaultMask | lineRestingMask =>
      assumption
    case railOn | railOff => exact writeAgainst_paper _ _ rfl
    case budgetUnits | damperCost | railCost => exact writeBudget_paper _ _ rfl
    case linkSilence => exact writeChecked_paper _ rfl
    case splitKey =>
      unfold writeSplitKeyValue
      split
      · exact .refl p
      · exact writeChecked_paper _ rfl
    case stepTable =>
      unfold writeStepTableValue
      split
      · exact writeAgainst_paper _ _ rfl
      · exact .refl p
    case railScale =>
      unfold writeRailScaleValue
      split
      · exact writeChecked_paper _ rfl
      · exact .refl p
    case voicing =>
      unfold writeVoicingValue
      split
      · next k v _ _ =>
        exact (withSettings_paper (f := fun t => { t with voicing := t.voicing.set k v }) rfl).remarked
      · exact .refl p

/-- A reset of the lead decoder. -/
theorem Remarked.reset {q : Part} (h : Remarked p q) : Remarked p (resetLead q) :=
  ⟨h.rows, h.next, h.above, h.feed, h.shades, .inr (congrArg FeedClock.headRow h.feed)⟩

theorem recallSettings_remarked (p : Part) : Remarked p (recallSettings p).2 := by
  have play := sameRoll_play
  have lines : ∀ {q r : Part}, LinesOnly q r → SamePaper q r := fun h => h.sameRoll.toSamePaper
  unfold recallSettings
  split
  · exact .refl p
  · split
    · unfold recallAll
      dsimp only
      refine Remarked.same ?_ (lines (applyRailHold_frame _))
      refine Remarked.same ?_ (applyHold_paper _ _ _ _)
      refine Remarked.same ?_ (applyHold_paper _ _ _ _)
      refine Remarked.same ?_ (lines (endElapsedGuards_frame _))
      refine Remarked.same ?_ (lines (updateAllResting_frame _))
      refine Remarked.same ?_ (play.handRailMode _ _).toSamePaper
      refine Remarked.same ?_ (play.handRailMode _ _).toSamePaper
      refine Remarked.same ?_ (play.disarmCues _).toSamePaper
      refine Remarked.same ?_ (play.setCues _ _).toSamePaper
      refine Remarked.reset ?_
      refine Remarked.same ?_ (play.levelRefresh _).toSamePaper
      exact ⟨rfl, rfl, .inr rfl, rfl, fun _ => rfl, .inl rfl⟩
    · exact .refl p

/-! ### What receives and answers -/

theorem takeScan_sameRoll (x : Scan) (p : Part) : SameRoll p (takeScan x p) := by
  unfold takeScan countDiscards
  split
  · exact ⟨⟨rfl, rfl, rfl, fun _ => rfl, rfl⟩, rfl⟩
  · refine sameRoll_play.trans ?_ (sameRoll_play.updateNotices _ _)
    exact ⟨⟨rfl, rfl, rfl, fun _ => rfl, rfl⟩, rfl⟩

theorem acceptByte_sameRoll (b : Byte) (p : Part) : SameRoll p (acceptByte b p) := by
  unfold acceptByte
  split
  · exact ⟨⟨rfl, rfl, rfl, fun _ => rfl, rfl⟩, rfl⟩
  · exact takeScan_sameRoll _ p

theorem expireGap_sameRoll (p : Part) : SameRoll p (expireGap p) := by
  unfold expireGap
  split
  · exact sameRoll_play.refl p
  · exact takeScan_sameRoll _ p

theorem takeNoticeNames_sameRoll (payload : List Byte) (p : Part) : SameRoll p (takeNoticeNames payload p).2 := by
  unfold takeNoticeNames askIfPending
  split
  · exact sameRoll_play.refl p
  · dsimp only
    split
    · exact ⟨⟨rfl, rfl, rfl, fun _ => rfl, rfl⟩, rfl⟩
    · rw [askNotice_eq]
      exact ⟨⟨rfl, rfl, rfl, fun _ => rfl, rfl⟩, rfl⟩

theorem takeHistory_sameRoll (payload : List Byte) (p : Part) : SameRoll p (takeHistory payload p).2 := by
  unfold takeHistory
  split
  · exact sameRoll_play.refl p
  · split
    · exact sameRoll_play.refl p
    · dsimp only
      split
      · exact ⟨⟨rfl, rfl, rfl, fun _ => rfl, rfl⟩, rfl⟩
      · exact sameRoll_play.refl p

theorem heatTick_sameRoll (p : Part) : SameRoll p (heatTick p) := by
  unfold heatTick
  refine sameRoll_play.trans ?_ (heatTicks_frame _).sameRoll
  exact ⟨⟨rfl, rfl, rfl, fun _ => rfl, rfl⟩, rfl⟩

theorem cutSave_sameRoll (x : Power) (p : Part) : SameRoll p { cutSave p with power := x } := by
  unfold cutSave
  split <;> exact ⟨⟨rfl, rfl, rfl, fun _ => rfl, rfl⟩, rfl⟩

theorem expireSilence_sound (h : RollSound shaded followed p) : RollSound shaded followed (expireSilence p) := by
  have ticked : RollSound shaded followed { p with link := { p.link with silenceRunning := false } } :=
    h.same ⟨⟨rfl, rfl, rfl, fun _ => rfl, rfl⟩, rfl⟩
  unfold expireSilence
  split
  · exact h
  · dsimp only
    split
    · refine RollSound.same ?_ (sameRoll_play.raise _ _)
      exact pauseTransport_sound ticked
    · exact ticked

/-! ### Every step -/

/-- The roll after is sound if the one before is, with the lead decoder or without. -/
def PaperKept (p q : Part) : Prop := ∀ followed, RollSound True followed p → RollSound True followed q

theorem SameRoll.kept {p q : Part} (h : SameRoll p q) : PaperKept p q := fun _ sound => sound.same h

theorem LinesOnly.paperKept {p q : Part} (h : LinesOnly p q) : PaperKept p q := h.sameRoll.kept

theorem pinReset_roll {p : Part} (h : SettingsSound p) (rate1 rate0 : Bool) :
    RollSound shaded followed (pinResetPart rate1 rate0 p) := by
  have legal := pinReset_limits h rate1 rate0
  obtain ⟨-, ⟨⟨table, -⟩, -⟩, -⟩ := id legal
  refine RollSound.fresh (n := 0) legal rfl (Nat.zero_le _) rfl rfl rfl (Nat.zero_le _) nofun (fun _ => rfl) (fun _ y => ?_) rfl
  cases y <;> exact table 0

theorem paperKept : KeptByActs SettingsSound PaperKept where
  refl _ _ _ h := h
  finished f p q kept followed h := (kept followed h).same ⟨⟨rfl, rfl, rfl, fun _ => rfl, rfl⟩, rfl⟩
  time _ _ := SameRoll.kept ⟨⟨rfl, rfl, rfl, fun _ => rfl, rfl⟩, rfl⟩
  byte b p _ := (acceptByte_sameRoll b p).kept
  gap p _ := (expireGap_sameRoll p).kept
  silence p _ _ h := expireSilence_sound h
  send p _ := SameRoll.kept (by unfold sendNext; split <;> exact ⟨⟨rfl, rfl, rfl, fun _ => rfl, rfl⟩, rfl⟩)
  place p _ := SameRoll.kept (by unfold placeNotice; split <;> exact ⟨⟨rfl, rfl, rfl, fun _ => rfl, rfl⟩, rfl⟩)
  notices payload p _ := (takeNoticeNames_sameRoll payload p).kept
  history payload p _ := (takeHistory_sameRoll payload p).kept
  load payload p _ _ h := loadRoll_sound payload h
  feed payload p _ _ h := feedRows_sound payload h
  run p _ _ h := by
    unfold runRequest
    split
    · exact startRunning_sound h
    · exact startRunning_sound h
    all_goals exact h
  pause p _ _ h := by
    unfold pauseRequest
    split <;> dsimp only
    · exact pauseTransport_sound h
    · exact pauseTransport_sound h
    all_goals exact h
  stop p _ _ h := by
    unfold stopRequest
    split
    · exact h
    all_goals exact stopTransport_sound h
  tempo payload p _ _ h := setTempo_sound payload h
  write item index value p _ _ h := h.remarked (writeItem_legal item index value h.paper.legal) (writeItem_remarked _ _ _ _)
  arm p _ := (sameRoll_play.setCues _ p).kept
  save _ _ := SameRoll.kept ⟨⟨rfl, rfl, rfl, fun _ => rfl, rfl⟩, rfl⟩
  saved good p _ := SameRoll.kept (by unfold endSave; split <;> exact ⟨⟨rfl, rfl, rfl, fun _ => rfl, rfl⟩, rfl⟩)
  recalled p sound _ h := h.remarked (recallSettings_kept p sound).1 (recallSettings_remarked p)
  strike payload p _ := (sameRoll_play.strikeKey payload p).kept
  play payload p _ := (sameRoll_play.playPattern payload p).kept
  cancel p _ := (sameRoll_play.cancelPlayer p).kept
  restore payload p _ := (sameRoll_play.restoreLine payload p).kept
  soft f p _ _ h := softReset_sound (h.same ⟨⟨rfl, rfl, rfl, fun _ => rfl, rfl⟩, rfl⟩)
  held p _ := (cutSave_sameRoll .held p).kept
  off p _ := (cutSave_sameRoll .off p).kept
  pin rate1 rate0 p sound _ _ := pinReset_roll sound rate1 rate0
  feedTick p _ _ h := feedTick_sound h
  starve p _ _ h := by
    unfold starveExpires
    split
    · exact expireStarve_sound h
    · exact h
  expression p _ _ h := expressionTick_sound h
  heat p _ := (heatTick_sameRoll p).kept
  chain bits p _ := (sameRoll_play.readChain bits p).kept
  kick k p _ := (kickRunsOut_frame k p).paperKept
  gain k p _ := (holdGains_frame k p).paperKept
  hold k p _ := (holdEnds_frame k p).paperKept
  guard k p _ := (guardEnds_frame k p).paperKept
  deadline m p _ := (lineDeadline_frame m p).paperKept
  lift d p _ := (liftEnds_frame d p).paperKept
  settle d p _ := (settleEnds_frame d p).paperKept
  pattern p _ := (sameRoll_play.takePatternStep p).kept
  patternEnd p _ := (sameRoll_play.endPattern p).kept

/-- Settles O53. -/
theorem rollStaysSound : Obligations.RollStaysSound := by
  unfold Obligations.RollStaysSound
  intro s t settings ring feed shades run
  have kept := paperKept.ofStep settings run
  have without := kept False (.of settings.1 ring feed (fun _ => shades) nofun)
  refine ⟨without.paper.ring, without.feed, without.paper.shades trivial, fun lead => ?_⟩
  exact (kept True (.of settings.1 ring feed (fun _ => shades) fun _ => lead)).paper.lead trivial

end Sys2Proof.Machine
end

section
/-! PROOFS. SET TEMPO (R30), SAVE SETTINGS (R173) and the pin reset (R175). -/

namespace Sys2Proof.Machine

/-! ### SET TEMPO (R30) -/

theorem rowOf_setTempo {f : Frame} (h : f.kind = 0x15) : rowOf f = .setTempo := by
  simp [rowOf, h]

theorem clampTrim_eq {t : Settings} (h : t.trimLow ≤ t.trimHigh) (trim : Nat) :
    t.clampTrim trim = max t.trimLow (min t.trimHigh trim) := by
  unfold Settings.clampTrim
  split
  · omega
  · split <;> omega

theorem presentIf_getD (flag : Bool) (value absent : Nat) :
    (presentIf flag value).getD absent = if flag = true then value else absent := by
  cases flag <;> rfl

theorem outside_presentIf (low high : Nat) (flag : Bool) (value : Nat) :
    outside low high (presentIf flag value) = true ↔ flag = true ∧ (value < low ∨ high < value) := by
  cases flag <;> simp [outside, presentIf]

/-- A trim that is present is clamped, and the reply says whether that changed it (R30). -/
theorem clamped_eq {t : Settings} (h : t.trimLow ≤ t.trimHigh) (flag : Bool) (sent absent : Nat) :
    ((presentIf flag sent).map t.clampTrim).getD absent
        = (if flag = true then max t.trimLow (min t.trimHigh sent) else absent)
      ∧ (((presentIf flag sent).isSome && presentIf flag sent != some (((presentIf flag sent).map t.clampTrim).getD absent))
          = decide (flag = true ∧ max t.trimLow (min t.trimHigh sent) ≠ sent)) := by
  cases flag
  · exact ⟨rfl, rfl⟩
  · rw [← clampTrim_eq h]
    refine ⟨rfl, ?_⟩
    simp only [presentIf, if_true, Option.map_some, Option.getD_some, Option.isSome_some, Bool.true_and, true_and, ne_comm]
    rw [Bool.eq_iff_iff, bne_iff_ne, decide_eq_true_iff]
    simp

/-- SET TEMPO that passes its checks (R30). -/
theorem setTempo_admitted {payload : List Byte} {p : Part} (loaded : p.feed.transport ≠ .unloaded)
    (range : (byteAt payload 0).testBit 0 = true → 10 ≤ fieldAt payload 1 2 ∧ fieldAt payload 1 2 ≤ 200)
    (limits : p.settings.trimLow ≤ p.settings.trimHigh) :
    setTempo payload p =
      (let tempo := if (byteAt payload 0).testBit 0 = true then fieldAt payload 1 2 else p.feed.tempo
       let clamped := max p.settings.trimLow (min p.settings.trimHigh (fieldAt payload 3 2))
       let feed := p.feed.withTempo tempo (if (byteAt payload 0).testBit 1 = true then clamped else p.feed.trim)
       (tempoReply (if (byteAt payload 0).testBit 1 = true ∧ clamped ≠ fieldAt payload 3 2 then .clamped else .ok) feed,
        p.setFeed feed)) := by
  have inside : ¬ outside 10 200 (presentIf ((byteAt payload 0).testBit 0) (fieldAt payload 1 2)) = true := by
    rw [outside_presentIf]
    rintro ⟨flag, out⟩
    have := range flag
    omega
  obtain ⟨trim, changed⟩ := clamped_eq limits ((byteAt payload 0).testBit 1) (fieldAt payload 3 2) p.feed.trim
  unfold setTempo TempoRequest.read
  dsimp only
  rw [if_neg loaded, if_neg inside, changed, trim, presentIf_getD]
  simp only [decide_eq_true_eq]

/-- The Feed Clock with a tempo and a trim, Q by R22 (R23, R30). -/
theorem withTempo_eq (c : FeedClock) (tempo trim : Nat) :
    c.withTempo tempo trim = if tempo = c.tempo ∧ trim = c.trim then c
      else { c with
        tempo := tempo
        trim := trim
        qBase := (c.pitch * tempo * trim * 65536 + 250000000) / 500000000
        q := max 1 (min 65535 ((c.pitch * tempo * trim * 65536 + 250000000) / 500000000
          + (c.pitch * tempo * trim * 65536 + 250000000) / 500000000 * c.buildUp * (c.rowsTaken / 1000) / 1000000)) } := by
  unfold FeedClock.withTempo FeedClock.recompute FeedClock.recomputeQ baseIncrement increment
  rfl

theorem tempoReply_admitted (changed : Prop) [Decidable changed] (c : FeedClock) :
    tempoReply (if changed then .clamped else .ok) c
      = [if changed then 1 else 0] ++ littleEndian 2 c.tempo ++ littleEndian 2 c.trim ++ littleEndian 2 c.q := by
  unfold tempoReply
  split <;> rfl

/-- Settles O37. -/
theorem tempoSet : Obligations.TempoSet := by
  intro s f h hk
  have taken : exec .setTempo s = .next (s.withPart ((fixedLength 5 setTempo f.payload s.part).2.replied f
      (fixedLength 5 setTempo f.payload s.part).1)) := takeRequest_answer h (rowOf_setTempo hk)
  dsimp only
  refine ⟨fun length => ?_, fun length unloaded => ?_, fun length loaded flag out => ?_, fun length loaded range limits => ?_⟩
  · rw [Refuses, taken, fixedLength, if_neg length]
    rfl
  · rw [Completes, taken, fixedLength, if_pos length, setTempo, if_pos unloaded]
    rfl
  · rw [Completes, taken, fixedLength, if_pos length, setTempo, if_neg loaded, TempoRequest.read,
      if_pos ((outside_presentIf _ _ _ _).2 ⟨flag, out⟩)]
    rfl
  · rw [Completes, taken, fixedLength, if_pos length, setTempo_admitted loaded range limits]
    dsimp only
    rw [tempoReply_admitted, withTempo_eq]
    rfl

/-! ### SAVE SETTINGS (R173) -/

theorem rowOf_saveSettings {f : Frame} (h : f.kind = 0x23) : rowOf f = .saveSettings := by
  simp [rowOf, h]

theorem of_passes (t : Settings) : (StoreImage.of t).passes = true := by
  simp [StoreImage.of, StoreImage.passes]

/-- Settles O28. -/
theorem settingsSaved : Obligations.SettingsSaved := by
  intro s f
  refine ⟨fun h hk => ?_, fun u on saving waits => ?_⟩
  · have taken : exec .saveSettings s = .next (s.withPart (beginSave f s.part)) :=
      takeRequest_of_mayTake h (rowOf_saveSettings hk)
    refine ⟨fun some => ?_, fun none play => ?_, fun none play => ?_⟩
    · rw [Refuses, taken, beginSave, if_pos (mt List.length_eq_zero_iff.1 some)]
      rfl
    · rw [Refuses, taken, beginSave, if_neg (by simp [none]), if_pos play]
      rfl
    · rw [taken, beginSave, if_neg (by simp [none]), if_neg (by simp [play])]
  · have ended : ∀ good, exec (.saveSettingsDone good) s = .next (s.withPart
        (({ s.part with saving := none, store := savedImage good u } : Part).replied f
          (if good then Result.ok else Result.storeError).bytes)) := fun good => by
      rw [exec, execSaveSettingsDone, whileOn_on on, endSave, saving, Part.request, waits]
      rfl
    exact ⟨⟨.of u, rfl, of_passes u, ended true⟩, .spoilt u, rfl, spoilt_fails u, ended false⟩

/-! ### The pin reset (R175) -/

section
variable (store : StoreImage) (rate1 rate0 : Bool) (now : Time) (choices : Nat)

theorem afterPinReset_settings :
    (store.passes = true → (Part.afterPinReset store rate1 rate0 now choices).settings = store.settings)
      ∧ (store.passes = false → (Part.afterPinReset store rate1 rate0 now choices).settings = defaultSettings) := by
  unfold Part.afterPinReset
  dsimp only
  exact ⟨fun whole => if_pos whole, fun failed => if_neg (by simp [failed])⟩

theorem afterPinReset_tracks : TracksClosed (Part.afterPinReset store rate1 rate0 now choices) := by
  refine ⟨fun t => ?_, fun h => ?_, rfl, rfl, rfl⟩
  · simp [Part.afterPinReset, allClosed]
  · cases h <;> rfl

theorem afterPinReset_cues : CuesFresh (Part.afterPinReset store rate1 rate0 now choices) := fun i => by
  simp [Part.afterPinReset, freshCueRuns]

theorem afterPinReset_arbiter (m : LineNo) (i : Fin 8) :
    (Part.afterPinReset store rate1 rate0 now choices).arbiter.grants[m] = none
      ∧ (Part.afterPinReset store rate1 rate0 now choices).drives.reported[m] = .none
      ∧ (Part.afterPinReset store rate1 rate0 now choices).arbiter.outcomes[i] = 0 := by
  simp [Part.afterPinReset, KickArbiter.atReset]

theorem afterPinReset_shades (h : Half) :
    let q := Part.afterPinReset store rate1 rate0 now choices
    (q.expression.halves.get h).shade = q.settings.stepTable[0] ∧ (q.expression.halves.get h).swelled = false
      ∧ (q.expression.halves.get h).autoUp = false := by
  unfold Part.afterPinReset
  cases h <;> exact ⟨rfl, rfl, rfl⟩

/-- Of the sources, STARTED is raised, and SETTINGS_DEFAULTED with a failing image. -/
theorem atReset_flag (failed : Bool) (src : NoticeSource) :
    (Notices.atReset failed).flag src = true ↔ src = .started ∨ (src = .settingsDefaulted ∧ failed = true) := by
  cases failed <;> cases src <;> decide

theorem strapBaud_eq : strapBaud rate1 rate0
    = if rate1 = rate0 then (if rate1 then 921600 else 460800) else if rate1 then 1843200 else 921600 := by
  cases rate1 <;> cases rate0 <;> rfl

end

/-- The store that a pin reset finds: a save under way has left the settings it was writing, with a check that fails. -/
theorem cutSave_store (p : Part) : (p.saving = none → (cutSave p).store = p.store)
    ∧ ∀ u, p.saving = some u → (cutSave p).store.settings = u ∧ (cutSave p).store.passes = false := by
  unfold cutSave
  refine ⟨fun idle => by rw [idle], fun u under => ?_⟩
  rw [under]
  exact ⟨rfl, spoilt_fails u⟩

/-- Settles O2. -/
theorem pinResetValues : Obligations.PinResetValues := by
  refine ⟨fun s r1 r0 => ⟨{ s with part := pinResetPart r1 r0 s.part }, rfl, rfl, rfl, rfl, ?_⟩, spoilt_fails _, rfl, ?_⟩
  rotate_left
  · unfold State.reset Part.reset Part.afterPinReset
    simp only [spoilt_fails]
    rfl
  obtain ⟨kept, cut⟩ := cutSave_store s.part
  unfold pinResetPart
  generalize (cutSave s.part).store = store at kept cut ⊢
  obtain ⟨good, failing⟩ := afterPinReset_settings store r1 r0 s.part.now s.part.choices
  have lines := afterPinReset_arbiter store r1 r0 s.part.now s.part.choices
  refine ⟨kept, cut, good, failing, rfl, rfl, rfl, rfl, rfl, rfl, rfl, rfl, rfl, rfl, rfl, rfl, rfl, rfl, rfl,
    afterPinReset_tracks _ _ _ _ _, rfl, rfl, afterPinReset_cues _ _ _ _ _, rfl, rfl, afterPinReset_shades _ _ _ _ _,
    fun m => ⟨(lines m 0).1, (lines m 0).2.1⟩, rfl, fun i => (lines 0 i).2.2, rfl, rfl, rfl, rfl, rfl, fun k => ?_,
    fun d => ?_, rfl, fun src => ?_, rfl, rfl, rfl, rfl, rfl, rfl, strapBaud_eq r1 r0, rfl, rfl, rfl, rfl, rfl, rfl, rfl,
    rfl, rfl, rfl⟩
  · have key := afterPinReset_key store r1 r0 s.part.now s.part.choices k
    dsimp only at key ⊢
    rw [key]
    exact ⟨rfl, rfl, rfl, rfl, rfl, rfl, rfl, rfl, rfl⟩
  · have pedal := afterPinReset_pedal store r1 r0 s.part.now s.part.choices d
    dsimp only at pedal ⊢
    rw [pedal]
    exact ⟨rfl, rfl, rfl, rfl, rfl, rfl, rfl, rfl, rfl⟩
  · refine (atReset_flag (!store.passes) src).trans ?_
    rw [Bool.not_eq_true']
    exact Iff.rfl

end Sys2Proof.Machine
end

section
/-! PROOFS. The records of a batch expand into the rows they stand for (R6), and READ HISTORY (R126). -/

namespace Sys2Proof.Machine

/-! ### The presence set of a mask record -/

/-- The powers of a filtered range have the bits of the numbers kept. -/
theorem testBit_sum_pow (P : Nat → Bool) (n : Nat) :
    (((List.range n).filter P).map fun g => 2 ^ g).sum < 2 ^ n
      ∧ ∀ i, (((List.range n).filter P).map fun g => 2 ^ g).sum.testBit i = (decide (i < n) && P i) := by
  induction n with
  | zero => exact ⟨Nat.one_pos, fun i => by simp⟩
  | succ n ih =>
    obtain ⟨below, bits⟩ := ih
    rw [List.range_succ, List.filter_append, List.map_append, List.sum_append]
    generalize (((List.range n).filter P).map fun g => 2 ^ g).sum = sum at below bits
    cases hn : P n with
    | false =>
      simp only [List.filter_cons, hn, Bool.false_eq_true, if_false, List.filter_nil, List.map_nil, List.sum_nil, Nat.add_zero]
      refine ⟨below.trans (Nat.pow_lt_pow_right (by decide) (Nat.lt_succ_self n)), fun i => ?_⟩
      rw [bits]
      by_cases hi : i = n
      · simp [hi, hn]
      · have : i < n ↔ i < n + 1 := by omega
        simp [this]
    | true =>
      simp only [List.filter_cons, hn, if_true, List.filter_nil, List.map_cons, List.map_nil, List.sum_cons, List.sum_nil,
        Nat.add_zero]
      refine ⟨by rw [Nat.pow_succ]; omega, fun i => ?_⟩
      rw [Nat.add_comm]
      rcases Nat.lt_trichotomy i n with hi | rfl | hi
      · rw [Nat.testBit_two_pow_add_gt hi, bits]
        simp [hi, hi.trans (Nat.lt_succ_self n)]
      · rw [Nat.testBit_two_pow_add_eq, bits]
        simp [hn]
      · have large : 2 ^ n + sum < 2 ^ i :=
          calc 2 ^ n + sum < 2 ^ n + 2 ^ n := by omega
            _ = 2 ^ (n + 1) := by rw [Nat.pow_succ]; omega
            _ ≤ 2 ^ i := Nat.pow_le_pow_right (by decide) hi
        rw [Nat.testBit_lt_two_pow large]
        have : ¬ i < n + 1 := by omega
        simp [this]

theorem presence_bits (holes : TrackSet) :
    ((presentGroups holes).map fun g => 2 ^ g).sum < 16384
      ∧ ∀ g < 14, ((presentGroups holes).map fun g => 2 ^ g).sum.testBit g = (groupByte holes g != 0) := by
  obtain ⟨below, bits⟩ := testBit_sum_pow (fun g => groupByte holes g != 0) 14
  exact ⟨below, fun g hg => by rw [presentGroups, allGroups, bits g, decide_eq_true hg, Bool.true_and]⟩

/-! ### The group bytes of a mask record -/

theorem groupByte_toNat (holes : TrackSet) (g : Nat) :
    (groupByte holes g).toNat = holes.toNat / 2 ^ (8 * g) % 256 := by
  simp [groupByte, BitVec.extractLsb'_toNat, Nat.shiftRight_eq_div_pow]

/-- The groups below `g + 1` are those below `g`, and the byte of the group. -/
theorem mod_group_succ (x g : Nat) : x % 2 ^ (8 * (g + 1)) = x % 2 ^ (8 * g) + x / 2 ^ (8 * g) % 256 * 2 ^ (8 * g) := by
  have split : 2 ^ (8 * (g + 1)) = 2 ^ (8 * g) * 256 := by rw [Nat.mul_succ, Nat.pow_add]
  rw [split, Nat.mod_mul, Nat.mul_comm (2 ^ (8 * g))]

/-- The groups from `g` on are read behind those below it. -/
theorem readGroups_range' {presence : Nat} (holes : TrackSet) (tail : List Byte) (m g : Nat)
    (bits : ∀ i, g ≤ i → i < g + m → presence.testBit i = (groupByte holes i != 0)) :
    readGroups presence (holes.toNat % 2 ^ (8 * g)) (List.range' g m)
        (((List.range' g m).filter fun i => groupByte holes i != 0).map (groupByte holes) ++ tail)
      = some (BitVec.ofNat 112 (holes.toNat % 2 ^ (8 * (g + m))), tail) := by
  induction m generalizing g with
  | zero => simp [readGroups]
  | succ m ih =>
    have here := bits g (le_refl _) (by omega)
    have rest := ih (g + 1) fun i low high => bits i (by omega) (by omega)
    rw [mod_group_succ, ← groupByte_toNat, Nat.add_right_comm, Nat.add_assoc] at rest
    rw [List.range'_succ, List.filter_cons]
    cases present : groupByte holes g != 0 with
    | true =>
      rw [present] at here
      simp only [if_true, List.map_cons, List.cons_append, readGroups, here]
      exact rest
    | false =>
      have zero : (groupByte holes g).toNat = 0 := by
        rw [bne_eq_false_iff_eq] at present
        rw [present]
        rfl
      rw [present] at here
      rw [zero, Nat.zero_mul, Nat.add_zero] at rest
      simp only [Bool.false_eq_true, if_false, readGroups, here]
      exact rest

theorem readGroups_mask (holes : TrackSet) (tail : List Byte) :
    readGroups ((presentGroups holes).map fun g => 2 ^ g).sum 0 allGroups
        ((presentGroups holes).map (groupByte holes) ++ tail) = some (holes, tail) := by
  have read := readGroups_range' holes tail 14 0 fun g _ hg => (presence_bits holes).2 g (by omega)
  have start : holes.toNat % 2 ^ (8 * 0) = 0 := Nat.mod_one _
  have whole : BitVec.ofNat 112 (holes.toNat % 2 ^ (8 * (0 + 14))) = holes := by
    rw [Nat.mod_eq_of_lt holes.isLt, BitVec.ofNat_toNat, BitVec.setWidth_eq]
  rw [start, whole, ← List.range_eq_range'] at read
  exact read

/-! ### Records -/

/-- The two bytes of a header carry it. -/
theorem header_bytes {n : Nat} (h : n < 65536) :
    littleEndian 2 n = [BitVec.ofNat 8 n, BitVec.ofNat 8 (n / 256)]
      ∧ (BitVec.ofNat 8 n).toNat + 256 * (BitVec.ofNat 8 (n / 256)).toNat = n := by
  refine ⟨rfl, ?_⟩
  simp only [BitVec.toNat_ofNat]
  omega

theorem expandRecords_mask (fuel : Nat) (before holes : TrackSet) (left : Nat) (rest : List Byte) :
    expandRecords (fuel + 1) before (left + 1) ((RowRecord.mask holes).bytes ++ rest)
      = (expandRecords fuel holes left rest).map (holes :: ·) := by
  obtain ⟨below, -⟩ := presence_bits holes
  obtain ⟨bytes, header⟩ := header_bytes (n := ((presentGroups holes).map fun g => 2 ^ g).sum) (by omega)
  have noRun : ((presentGroups holes).map fun g => 2 ^ g).sum.testBit 15 = false :=
    Nat.testBit_lt_two_pow (below.trans (by decide))
  rw [RowRecord.bytes, bytes, List.append_assoc, List.cons_append, List.cons_append, List.nil_append, expandRecords]
  dsimp only
  rw [header, noRun, if_neg Bool.false_ne_true, if_pos ⟨below, Nat.le_add_left _ _⟩, readGroups_mask]
  rfl

theorem expandRecords_run (fuel : Nat) (before : TrackSet) {n : Nat} (low : 1 ≤ n) (high : n ≤ 255) (left : Nat)
    (rest : List Byte) :
    expandRecords (fuel + 1) before (n + left) ((RowRecord.run n).bytes ++ rest)
      = (expandRecords fuel before left rest).map (List.replicate n before ++ ·) := by
  obtain ⟨bytes, header⟩ := header_bytes (n := 32768 + n) (by omega)
  have isRun : (32768 + n).testBit 15 = true := by
    rw [show 32768 = 2 ^ 15 from rfl, Nat.testBit_two_pow_add_eq, Nat.testBit_lt_two_pow (by omega)]
    rfl
  have run : (BitVec.ofNat 8 (32768 + n)).toNat = n := by
    rw [BitVec.toNat_ofNat]
    omega
  rw [RowRecord.bytes, bytes, List.cons_append, List.cons_append, List.nil_append, expandRecords]
  dsimp only
  rw [header, isRun, run, if_pos rfl, if_pos ⟨rfl, low, Nat.le_add_right _ _⟩, Nat.add_sub_cancel_left]

theorem bytes_two_le (r : RowRecord) : 2 ≤ r.bytes.length := by
  cases r with
  | mask holes => simp [RowRecord.bytes]
  | run n => simp [RowRecord.bytes]

theorem expandRecords_records (records : List RowRecord) (runs : ∀ n, RowRecord.run n ∈ records → 1 ≤ n ∧ n ≤ 255)
    (fuel : Nat) (enough : records.length ≤ fuel) (before : TrackSet) :
    expandRecords fuel before (rowsOf before records).length (records.flatMap RowRecord.bytes)
      = some (rowsOf before records) := by
  induction records generalizing fuel before with
  | nil => cases fuel <;> rfl
  | cons r rest ih =>
    have later := fun n h => runs n (List.mem_cons_of_mem r h)
    obtain ⟨fuel, rfl⟩ : ∃ m, fuel = m + 1 := ⟨fuel - 1, by rw [List.length_cons] at enough; omega⟩
    have left := ih later fuel (Nat.le_of_succ_le_succ enough)
    rw [List.flatMap_cons]
    cases r with
    | mask holes =>
      rw [rowsOf, List.length_cons, expandRecords_mask, left]
      rfl
    | run n =>
      obtain ⟨low, high⟩ := runs n List.mem_cons_self
      rw [rowsOf, List.length_append, List.length_replicate, expandRecords_run _ _ low high, left]
      rfl

/-- Settles O32. -/
theorem rowRecordsExpand : Obligations.RowRecordsExpand := fun before records runs => by
  refine expandRecords_records records runs _ ?_ before
  induction records with
  | nil => exact Nat.zero_le _
  | cons r rest ih =>
    have two := bytes_two_le r
    have more := ih fun n h => runs n (List.mem_cons_of_mem r h)
    rw [List.flatMap_cons, List.length_append, List.length_cons]
    omega

end Sys2Proof.Machine
end

section
/-! PROOFS. READ HISTORY (R126): where each field of a record stands. -/

namespace Sys2Proof.Machine

theorem rowOf_readHistory {f : Frame} (h : f.kind = 0x04) : rowOf f = .readHistory := by
  simp [rowOf, h]

theorem historyRecord_length (x : HistoryRecord) : x.bytes.length = 15 := by
  simp [HistoryRecord.bytes]

theorem flagBits_eq (x : HistoryRecord) : x.flagBits
    = x.flags.accent.toNat + 2 * x.flags.clamped.toNat + 4 * x.flags.derated.toNat + 8 * x.flags.short.toNat
      + 16 * x.rowPresent.toNat := by
  simp only [HistoryRecord.flagBits, bitIf_eq]
  omega

theorem flagBits_lt (x : HistoryRecord) : x.flagBits < 256 := by
  have le := fun b : Bool => b.toNat_le
  have := le x.flags.accent
  have := le x.flags.clamped
  have := le x.flags.derated
  have := le x.flags.short
  have := le x.rowPresent
  rw [flagBits_eq]
  omega

/-- The fields of a record in its 15 bytes (R125). -/
theorem historyRecord_fields (x : HistoryRecord) :
    fieldAt x.bytes 0 2 = x.sequence % 2 ^ 16 ∧ fieldAt x.bytes 2 1 = x.line.val ∧ fieldAt x.bytes 3 1 = x.origin.code
      ∧ fieldAt x.bytes 4 4 = x.onsetRow % 2 ^ 32 ∧ fieldAt x.bytes 8 1 = x.outcome.code.val
      ∧ fieldAt x.bytes 9 2 = x.shade % 2 ^ 16 ∧ fieldAt x.bytes 11 2 = x.kick % 2 ^ 16
      ∧ fieldAt x.bytes 13 1 = x.waited % 2 ^ 8 ∧ fieldAt x.bytes 14 1 = x.flagBits := by
  have line : x.line.val % 256 = x.line.val := Nat.mod_eq_of_lt (by omega)
  have origin : x.origin.code % 256 = x.origin.code := by cases x.origin <;> rfl
  have outcome : x.outcome.code.val % 256 = x.outcome.code.val := Nat.mod_eq_of_lt (by omega)
  have flags : x.flagBits % 256 = x.flagBits := Nat.mod_eq_of_lt (flagBits_lt x)
  simp [HistoryRecord.bytes, line, origin, outcome, flags]

/-- The reply's own fields, and each record's (R126). -/
theorem historyReply_fields (a : KickArbiter) :
    (historyReply a).length = 4 + 15 * a.history.length ∧ fieldAt (historyReply a) 0 1 = 0
      ∧ fieldAt (historyReply a) 1 1 = a.history.length % 2 ^ 8 ∧ fieldAt (historyReply a) 2 2 = a.nextSequence % 2 ^ 16
      ∧ ∀ (i : Nat) (hi : i < a.history.length) (j w : Nat), j + w ≤ 15 →
          fieldAt (historyReply a) (4 + 15 * i + j) w = fieldAt a.history[i].bytes j w := by
  have head : (Result.ok.bytes ++ littleEndian 1 a.history.length ++ littleEndian 2 a.nextSequence).length = 4 := by
    simp [Result.bytes]
  have records := length_flatMap_of_size historyRecord_length a.history
  unfold historyReply
  refine ⟨by rw [List.length_append, head, records], ?_, ?_, ?_, fun i hi j w hj => ?_⟩
  · simp [Result.bytes, Result.code]
  · simp [Result.bytes, Result.code]
  · simp [Result.bytes, Result.code]
  · rw [Nat.add_assoc, fieldAt_append_past head.le, head, Nat.sub_self, Nat.zero_add,
      fieldAt_flatMap_of_size historyRecord_length hj _ _ hi]

/-- Settles O14. -/
theorem historyRead : Obligations.HistoryRead := by
  intro s f h hk
  have taken : exec .readHistory s = .next (s.withPart ((takeHistory f.payload s.part).2.replied f
      (takeHistory f.payload s.part).1)) := takeRequest_answer h (rowOf_readHistory hk)
  refine ⟨fun length => ?_, fun length above => ?_, fun length clear => ?_⟩
  · rw [Refuses, taken, takeHistory, if_pos length]
    rfl
  · rw [Refuses, taken, takeHistory, if_neg (not_not_intro length), if_pos above]
    rfl
  · obtain ⟨size, result, count, next, records⟩ := historyReply_fields s.part.arbiter
    refine ⟨historyReply s.part.arbiter, ?_, size, result, count, next, fun i hi => ?_⟩
    · rw [taken, takeHistory, if_neg (not_not_intro length), if_neg (not_lt.2 clear)]
      dsimp only
      split <;> rfl
    · obtain ⟨sequence, line, origin, row, outcome, shade, kick, waited, flags⟩ := historyRecord_fields s.part.arbiter.history[i]
      have field := records i hi
      dsimp only
      rw [← flagBits_eq, field 2 1 (by omega), field 3 1 (by omega), field 4 4 (by omega), field 8 1 (by omega),
        field 9 2 (by omega), field 11 2 (by omega), field 13 1 (by omega), field 14 1 (by omega)]
      have first := field 0 2 (by omega)
      rw [Nat.add_zero] at first
      exact ⟨first.trans sequence, line, origin, row, outcome, shade, kick, waited, flags⟩

end Sys2Proof.Machine
end

section
/-! PROOFS. Lifts and drops as their states let them (R150, R152, R153), and the withdrawal of a lift (R120). -/

namespace Sys2Proof.Machine

section
variable {p : Part} {d : Pedal}

/-! ### A withdrawn lift -/

/-- A list with one entry a line loses the entry of a line, whether it is erased or filtered out. -/
theorem eraseP_line_eq_filter {w : List WaitEntry} (h : (w.map WaitEntry.line).Nodup) (m : LineNo) :
    w.eraseP (fun e => e.line == m) = w.filter fun e => decide (e.line ≠ m) := by
  induction w with
  | nil => rfl
  | cons e rest ih =>
    rw [List.map_cons, List.nodup_cons] at h
    by_cases he : e.line = m
    · have others : ∀ x ∈ rest, decide (x.line ≠ m) = true := fun x hx =>
        decide_eq_true fun c => h.1 (List.mem_map.2 ⟨x, hx, c.trans he.symm⟩)
      rw [List.eraseP_cons_of_pos (by simpa using he), List.filter_cons_of_neg (by simpa using he),
        List.filter_eq_self.2 others]
    · rw [List.eraseP_cons_of_neg (by simpa using he), List.filter_cons_of_pos (by simpa using he), ih h.2]

/-- The part in which a pedal's entry has left the list and is counted, before the pass that follows. -/
def Part.withdrawing (p : Part) (d : Pedal) : Part :=
  { p with arbiter := { p.arbiter with
      wait := p.arbiter.wait.filter fun e => decide (e.line ≠ pedalLineNo d)
      withdrawals := min (p.arbiter.withdrawals + 1) 4294967295 } }

theorem withdrawLift_eq (h : WaitSound p) : withdrawLift d p = grantingPass (p.withdrawing d) := by
  rw [withdrawLift, Part.dropEntry, eraseP_line_eq_filter h.2.1]
  rfl

theorem not_hasEntry_withdrawing (p : Part) (d : Pedal) : ¬ (p.withdrawing d).hasEntry (pedalLineNo d) := by
  rintro ⟨e, he, hl⟩
  exact of_decide_eq_true (List.mem_filter.1 he).2 hl

/-- The lines without an entry have none after it. -/
theorem hasEntry_of_withdrawing {m : LineNo} (h : (p.withdrawing d).hasEntry m) : p.hasEntry m := by
  obtain ⟨e, he, hl⟩ := h
  exact ⟨e, (List.mem_filter.1 he).1, hl⟩

theorem withdrawing_pedal (p : Part) (d e : Pedal) : (p.withdrawing d).pedal e = p.pedal e := by
  cases e <;> rfl

theorem withdrawing_but (h : BudgetSound p) (waiting : (p.pedal d).state = .waiting) :
    BudgetBut false (also (pedalLineNo d) noLine) (p.withdrawing d) := by
  have left := (countWithdrawal_same _).budgetBut (h.good.but.drop ((h.pedal d).place_of_waiting waiting))
  have same : countWithdrawal (p.dropEntry (pedalLineNo d)) = p.withdrawing d := by
    rw [Part.dropEntry, eraseP_line_eq_filter h.wait.2.1]
    rfl
  rwa [same] at left

theorem withdrawLift_moves (h : BudgetSound p) (waiting : (p.pedal d).state = .waiting) :
    PassMoves (p.withdrawing d) (withdrawLift d p) := by
  rw [withdrawLift_eq h.wait]
  exact grantingPass_moves (withdrawing_but h waiting)

/-- The withdrawn pedal's own record stays for its owner to change. -/
theorem withdrawLift_pedal (h : BudgetSound p) (waiting : (p.pedal d).state = .waiting) :
    (withdrawLift d p).pedal d = p.pedal d := by
  rw [(withdrawLift_moves h waiting).pedal_of_no_entry (not_hasEntry_withdrawing p d), withdrawing_pedal]

/-- A line that is not QUEUED, and a pedal that is not WAITING, has no entry. -/
theorem BudgetSound.no_key_entry (h : BudgetSound p) {k : KeyNo} (hk : (p.key k).state ≠ .queued) :
    ¬ p.hasEntry (keyLineNo k) := fun c => hk ((h.key k).2.1.2 c)

theorem BudgetSound.no_pedal_entry (h : BudgetSound p) (hd : (p.pedal d).state ≠ .waiting) :
    ¬ p.hasEntry (pedalLineNo d) := fun c => hd ((h.pedal d).2.1.2 c)

/-- Behind a head that stays, the pass moves nothing. -/
theorem withdrawLift_idle (h : BudgetSound p)
    (hh : ∀ e, p.arbiter.wait.head? = some e → e.line ≠ pedalLineNo d) : withdrawLift d p = p.withdrawing d := by
  rw [withdrawLift_eq h.wait]
  refine grantingPass_idle fun e he => decide_eq_false ?_
  have head : p.arbiter.wait.head? = some e := by
    change (p.arbiter.wait.filter _).head? = some e at he
    cases hw : p.arbiter.wait with
    | nil => rw [hw] at he; exact he
    | cons a rest =>
      rw [hw, List.filter_cons_of_pos (by simpa using hh a (by rw [hw]; rfl))] at he
      exact he
  exact not_le.2 (h.wait.2.2.2.2 e head)

/-- What the withdrawal leaves, the pedal's record then replaced (R120). -/
theorem withdrawLift_taken (h : BudgetSound p) (waiting : (p.pedal d).state = .waiting) (back : PedalRecord) :
    LiftWithdrawn d back p ((withdrawLift d p).setPedal d back) := by
  have moves := withdrawLift_moves h waiting
  refine ⟨Part.pedal_setPedal_same _ _ _, ?_, ?_, fun k hk => ?_, fun other ne ho => ?_, fun hh => ?_⟩
  · rw [hasEntry_setPedal]
    exact fun c => not_hasEntry_withdrawing p d (moves.hasEntry c)
  · rw [Part.setPedal_arbiter, moves.withdrawals]
    rfl
  · rw [Part.setPedal_key, moves.key_of_no_entry fun c => h.no_key_entry hk (hasEntry_of_withdrawing c)]
    rfl
  · rw [Part.pedal_setPedal_ne _ _ ne,
      moves.pedal_of_no_entry fun c => h.no_pedal_entry ho (hasEntry_of_withdrawing c), withdrawing_pedal]
  · rw [withdrawLift_idle h hh]
    rfl

/-- The pedal that goes back after a withdrawal, its record from before it (R152). -/
theorem returnPedal_withdrawn (h : BudgetSound p) (waiting : (p.pedal d).state = .waiting) :
    returnPedal d (withdrawLift d p)
      = (withdrawLift d p).setPedal d ((p.pedal d).returned p.settings d p.now) := by
  have frame := withdrawLift_frame d p
  rw [returnPedal_eq, withdrawLift_pedal h waiting, frame.settings, frame.now]

/-! ### Drops -/

theorem pedalSettle_eq (t : Settings) (d : Pedal) : t.pedalSettle d = (t.ofPedal d).2.2.2 := by
  cases d <;> rfl

/-- A pedal begins to drop (R152). -/
theorem beginDrop_eq (d : Pedal) (p : Part) :
    beginDrop d p = p.setPedal d ((p.pedal d).fallen p.now (p.settings.ofPedal d).2.2.2) := by
  rw [beginDrop, ← pedalSettle_eq]
  simp only [PedalRecord.driven, PedalRecord.fallen, setDuty_none]

/-- What a drop does, by the pedal's state (R152). -/
theorem dropPedal_taken (h : BudgetSound p) : DropTaken d p (dropPedal d p) := by
  unfold DropTaken dropPedal
  dsimp only
  cases hs : (p.pedal d).state with
  | lowered => rfl
  | dropping => rfl
  | lifting => rfl
  | raised => exact beginDrop_eq d p
  | waiting =>
    dsimp only
    have frame := withdrawLift_frame d p
    rw [returnPedal_withdrawn h hs]
    cases ho : (p.pedal d).origin with
    | none =>
      rw [if_neg nofun]
      simpa only [PedalRecord.returned, ho] using withdrawLift_taken h hs _
    | some origin =>
      cases origin with
      | lowered =>
        rw [if_neg nofun]
        simpa only [PedalRecord.returned, ho] using withdrawLift_taken h hs _
      | dropping =>
        rw [if_neg nofun]
        simpa only [PedalRecord.returned, ho, pedalSettle_eq] using withdrawLift_taken h hs _
      | deepen =>
        rw [if_pos rfl, beginDrop_eq, Part.pedal_setPedal_same, Part.setPedal_setPedal, Part.setPedal_now,
          Part.setPedal_settings, frame.settings, frame.now]
        simpa only [PedalRecord.returned, ho, PedalRecord.fallen] using withdrawLift_taken h hs _

/-! ### Lifts -/

/-- A lift's depth is the damper's alone (R148). -/
theorem liftDepth_eq (d : Pedal) (r : PedalRecord) (depth : Depth) :
    liftDepth d r depth = if d = .damper then depth else r.depth := by
  cases d <;> rfl

/-- What a lift does, by the pedal's state (R150, R153). -/
theorem liftPedal_taken (h : BudgetSound p) (depth : Depth) : LiftTaken d depth p (liftPedal d depth p) := by
  unfold LiftTaken liftPedal
  dsimp only
  rw [← liftDepth_eq]
  cases hs : (p.pedal d).state with
  | lowered =>
    dsimp only
    split
    · rfl
    · exact beginWait_requested d .lowered depth p h.wait
  | dropping => exact beginWait_requested d .dropping depth p h.wait
  | lifting => rfl
  | waiting =>
    dsimp only
    by_cases same : liftDepth d (p.pedal d) depth = (p.pedal d).depth
    · rw [if_pos same, if_neg (by simpa using same)]
    · have damper : d = .damper := by
        by_contra c
        exact same (by rw [liftDepth_eq, if_neg c])
      subst damper
      have other : (liftDepth .damper (p.pedal .damper) depth != (p.pedal .damper).depth) = true := by simpa using same
      rw [if_neg same, if_pos other]
      simp only [changeDepth, hs]
      split
      · next ho =>
        rw [returnPedal_withdrawn h hs]
        simpa only [PedalRecord.returned, ho] using withdrawLift_taken h hs _
      · rfl
  | raised =>
    dsimp only
    by_cases same : liftDepth d (p.pedal d) depth = (p.pedal d).depth
    · rw [if_pos same, if_neg (by simpa using same)]
    · have damper : d = .damper := by
        by_contra c
        exact same (by rw [liftDepth_eq, if_neg c])
      subst damper
      have other : (liftDepth .damper (p.pedal .damper) depth != (p.pedal .damper).depth) = true := by simpa using same
      rw [if_neg same, if_pos other]
      simp only [changeDepth, hs]
      cases depth with
      | part => simp [liftDepth, PedalRecord.driven, hs]
      | full => exact beginWait_requested .damper .deepen .full p h.wait

end

end Sys2Proof.Machine
end

section
/-! PROOFS. Onsets and note-offs at a key line (R92 to R97, R117, R118, R129, R133). -/

namespace Sys2Proof.Machine

/-! ### The plan of an onset -/

/-- A rail that counts as raised scales the kick (R95). -/
theorem railedKick_railCounts (h : Half) (p : Part) (scale kick : Nat) :
    railedKick (railCounts h p) scale kick
      = if (p.pedal (railOf h)).state = .raised ∨ (p.pedal (railOf h)).state = .dropping then kick * scale / 1000
        else kick := by
  simp only [railedKick, railCounts, Bool.or_eq_true, beq_iff_eq]

theorem priorityOf_eq (origin : Origin) (accent : Bool) :
    priorityOf origin accent = if origin = .roll then (if accent then 1 else 2) else 3 := by
  cases origin <;> rfl

/-- The planner's stages, one after the other (R93 to R97). -/
theorem planOf_eq (o : Onset) (p : Part) : planOf o p = p.planned o := by
  have short : (o.holdTime == some 0) = decide (o.holdTime = some 0) := by
    rw [Bool.eq_iff_iff, beq_iff_eq, decide_eq_true_eq]
  unfold planOf shapedKick
  simp only [railedKick_railCounts, priorityOf_eq, short]
  cases hh : o.half <;> simp only [Part.planned, hh] <;> rfl

section
variable {p : Part} {k : KeyNo}

/-! ### An entry changed in place -/

/-- A list with one entry a line has that entry changed, whether the first of the line is changed or every one. -/
theorem changeEntry_eq_map {w : List WaitEntry} (h : (w.map WaitEntry.line).Nodup) (m : LineNo)
    (f : WaitEntry → WaitEntry) : changeEntry m f w = w.map fun e => if e.line = m then f e else e := by
  induction w with
  | nil => rfl
  | cons e rest ih =>
    rw [List.map_cons, List.nodup_cons] at h
    rw [changeEntry, List.map_cons]
    by_cases he : e.line = m
    · have others : ∀ x ∈ rest, (if x.line = m then f x else x) = x := fun x hx =>
        if_neg fun c => h.1 (List.mem_map.2 ⟨x, hx, c.trans he.symm⟩)
      rw [if_pos he, if_pos he, List.map_congr_left others, List.map_id']
    · rw [if_neg he, if_neg he, ih h.2]

/-- A line has one entry, which is the one that is found. -/
theorem entryOf_eq (h : WaitSound p) {e : WaitEntry} (he : e ∈ p.arbiter.wait) : p.entryOf e.line = some e := by
  obtain ⟨x, hx⟩ := entryOf_isSome (p := p) ⟨e, he, rfl⟩
  obtain ⟨hmem, hl⟩ := entryOf_eq_some hx
  rw [hx, List.inj_on_of_nodup_map h.2.1 hmem he hl]

/-! ### Note-offs -/

/-- What a note-off does, by the line's state and its newest ROLL plan (R118, R133). -/
theorem noteOff_taken (h : BudgetSound p) : NoteOffTaken k p (noteOff k p) := by
  have ofRoll : ∀ {o : Option Plan} {plan : Plan}, o.filter Plan.ofRoll = some plan ↔ o = some plan ∧ plan.origin = .roll :=
    fun {o plan} => by rw [Option.filter_eq_some_iff, Plan.ofRoll, beq_iff_eq]
  have noRoll : ∀ {o : Option Plan}, (¬ ∃ plan, o = some plan ∧ plan.origin = .roll) → o.filter Plan.ofRoll = none :=
    fun {o} hn => Option.eq_none_iff_forall_ne_some.2 fun plan hp => hn ⟨plan, ofRoll.1 hp⟩
  unfold NoteOffTaken noteOff
  dsimp only
  refine ⟨?_, ?_, ?_, ?_, ?_, ?_, ?_, ?_, ?_⟩
  · rintro (hs | hs) <;> rw [hs]
  · intro hs hr
    simp only [hs]
    rw [if_neg hr]
  · intro hs hr
    simp only [hs]
    rw [if_pos hr, shortenEntry, changeEntry_eq_map h.wait.2.1]
    rfl
  · rintro plan (hs | hs) hp hr <;> simp only [hs, ofRoll.2 ⟨hp, hr⟩] <;> rfl
  · rintro hs hp ⟨plan, hplan⟩
    simp only [hs, noRoll hp, ofRoll.2 hplan]
  · intro hs hp hh
    simp only [hs, noRoll hp, noRoll hh]
  · rintro hs ⟨plan, hplan⟩
    simp only [hs, ofRoll.2 hplan, Option.isSome_some, if_true]
    exact enterRelease_eq k p
  · intro hs hh
    simp only [hs, noRoll hh]
    rfl
  · intro hs hp
    simp only [hs, noRoll hp]

/-! ### Onsets -/

/-- A plan that a line keeps pending, and the one it takes the place of (R129, R137). -/
theorem holdPending_taken (plan : Plan) (p : Part) :
    ((p.key plan.line).pending = none →
        holdPending plan p = p.setKey plan.line { p.key plan.line with pending := some plan })
      ∧ ∀ old, (p.key plan.line).pending = some old →
        holdPending plan p = (p.setKey plan.line { p.key plan.line with pending := some plan }).filed old .merged 0 := by
  unfold holdPending
  refine ⟨fun hp => by simp only [hp], fun old hp => ?_⟩
  simp only [hp]
  rw [endPlan_eq_filed]

/-- The part in which a QUEUED line's entry has taken the new plan and the old one has ended MERGED (R117). -/
theorem mergedEntry_eq (h : WaitSound p) {plan old : Plan} {e : WaitEntry} (hr : e.request = .strike old) :
    mergedEntry plan e p
      = (({ p with arbiter := { p.arbiter with
          wait := p.arbiter.wait.map fun x =>
            if x.line = keyLineNo plan.line then
              { x with request := .strike plan, cost := plan.cost, short := plan.flags.short }
            else x } } : Part).setKey plan.line
          { p.key plan.line with state := .queued, queuedOrigin := some plan.origin }).filed (e.standing old) .merged
            ((p.now - e.entered) / 20) := by
  unfold mergedEntry
  simp only [hr]
  rw [endPlan_eq_filed, changeEntry_eq_map h.2.1]
  rfl

/-- A filing counts its outcome. -/
theorem filed_outcomes (plan : Plan) (o : StrikeOutcome) (waited : Nat) (p : Part) :
    (p.filed plan o waited).arbiter.outcomes
      = p.arbiter.outcomes.set o.code (min (p.arbiter.outcomes[o.code] + 1) 4294967295) := by
  unfold Part.filed
  dsimp only
  split <;> rfl

/-- What the new plan of a QUEUED line does: the entry takes it, and where it is the head and now fits it is granted. -/
theorem mergePlan_taken (h : BudgetSound p) {plan old : Plan} {e : WaitEntry} (he : e ∈ p.arbiter.wait)
    (queued : (p.key plan.line).state = .queued) (hl : e.line = keyLineNo plan.line) (hr : e.request = .strike old) :
    let q := mergePlan plan p
    let grows := p.arbiter.wait.head? ≠ some e ∨ e.cost = plan.cost
      ∨ p.settings.budgetUnits < plan.cost + p.arbiter.unitsInUse
    (grows → q = mergedEntry plan e p)
      ∧ (¬ grows → (q.key plan.line).state = .kick ∧ ¬ q.hasEntry (keyLineNo plan.line)
        ∧ q.arbiter.grants[keyLineNo plan.line] = some plan.cost
        ∧ q.arbiter.outcomes[7] = min (p.arbiter.outcomes[7] + 1) 4294967295) := by
  dsimp only
  have found : p.entryOf (keyLineNo plan.line) = some e := hl ▸ entryOf_eq h.wait he
  have but := mergedEntry_but (dr := false) (plan := plan) h.good e queued
  have same := mergedEntry_same plan e p
  have head : p.arbiter.wait.head? = some e →
      ∃ rest, (mergedEntry plan e p).arbiter.wait = e.merged plan :: rest := fun hh => by
    cases hw : p.arbiter.wait with
    | nil => rw [hw] at hh; cases hh
    | cons a rest =>
      rw [hw] at hh
      cases hh
      refine ⟨rest, same.wait.trans ?_⟩
      rw [queueKey, Part.setKey_arbiter, Part.setWait_wait, hw, changeEntry, if_pos hl]
  have fits : (mergedEntry plan e p).fits (e.merged plan).cost = true
      ↔ plan.cost + p.arbiter.unitsInUse ≤ p.settings.budgetUnits := by
    rw [Part.fits, decide_eq_true_eq, same.unitsInUse, same.budget]
    exact Iff.rfl
  rw [mergePlan_of_entry found]
  constructor
  · rintro (hh | hc | hf)
    · rw [if_neg fun c => hh c.1]
    · rw [if_neg fun c => c.2 hc]
    · split
      · next both =>
        obtain ⟨rest, hw⟩ := head both.1
        refine grantingPass_idle fun x hx => ?_
        rw [hw] at hx
        cases hx
        exact Bool.eq_false_iff.2 fun c => absurd (fits.1 c) (not_le.2 hf)
      · rfl
  · intro hg
    obtain ⟨hh, hc, hf⟩ : p.arbiter.wait.head? = some e ∧ e.cost ≠ plan.cost
        ∧ plan.cost + p.arbiter.unitsInUse ≤ p.settings.budgetUnits := by
      simp only [not_or, not_not, not_lt] at hg
      exact hg
    rw [if_pos ⟨hh, hc⟩]
    obtain ⟨rest, hw⟩ := head hh
    have gone : ¬ (grantingPass (mergedEntry plan e p)).hasEntry (keyLineNo plan.line) :=
      hl ▸ grantingPass_head_granted (e := e.merged plan) hw but (fits.2 hf)
    have moves := grantingPass_moves but
    have was : ((mergedEntry plan e p).key plan.line).state = .queued := by
      rw [mergedEntry_eq h.wait hr, ← filed_setKey, Part.key_setKey_same]
    have outcome : (grantingPass (mergedEntry plan e p)).arbiter.outcomes[7] = min (p.arbiter.outcomes[7] + 1) 4294967295 := by
      refine (moves.outcomes 7 (by decide)).trans ?_
      have counted := filed_outcomes (e.standing old) .merged ((p.now - e.entered) / 20)
        (({ p with arbiter := { p.arbiter with
          wait := p.arbiter.wait.map fun x =>
            if x.line = keyLineNo plan.line then
              { x with request := .strike plan, cost := plan.cost, short := plan.flags.short }
            else x } } : Part).setKey plan.line
          { p.key plan.line with state := .queued, queuedOrigin := some plan.origin })
      rw [← mergedEntry_eq h.wait hr] at counted
      simp only [counted]
      exact Vector.getElem_set_self _
    rcases moves.key plan.line with stays | ⟨-, x, hx, other, hxl, -, place, kicked⟩
    · exact absurd (((grantingPass_good but).key plan.line).1.2.1.1 (by rw [stays, was])) gone
    · have first : x = e.merged plan :=
        List.inj_on_of_nodup_map but.list.2.1 hx (by rw [hw]; exact .head _) (hxl.trans hl.symm)
      subst first
      exact ⟨by rw [kicked]; rfl, gone, place, outcome⟩

/-! ### What an onset does at its line (R92, R117, R129, R137) -/

/-- The record of an onset that is dropped (R92). -/
theorem takeOnset_faulted {o : Onset} (hs : (p.key o.key).state = .faulted) :
    takeOnset o p = p.filed (droppedPlan o p) .faulted 0 := by
  rw [takeOnset, dropOutcome, if_pos hs]
  exact endPlan_eq_filed _ _ _ _

theorem takeOnset_resting {o : Onset} (hs : (p.key o.key).state ≠ .faulted) (hr : (p.key o.key).resting = true) :
    takeOnset o p = p.filed (droppedPlan o p) .resting 0 := by
  rw [takeOnset, dropOutcome, if_neg hs, if_pos hr]
  exact endPlan_eq_filed _ _ _ _

theorem takeOnset_awake {o : Onset} (hs : (p.key o.key).state ≠ .faulted) (hr : (p.key o.key).resting = false) :
    takeOnset o p = newPlan (p.planned o) p := by
  rw [takeOnset, dropOutcome, if_neg hs, hr, ← planOf_eq]
  rfl

section
variable {plan : Plan}

theorem newPlan_idle (hw : WaitSound p) (hs : (p.key plan.line).state = .idle) :
    StrikeRequested plan p (newPlan plan p) := by
  rw [newPlan]
  simp only [hs]
  rw [← hs]
  exact submitPlan_requested plan p _ hw

theorem newPlan_held (hs : (p.key plan.line).state = .kick ∨ (p.key plan.line).state = .release) :
    newPlan plan p = holdPending plan p := by
  rw [newPlan]
  rcases hs with hs | hs <;> simp only [hs]

theorem newPlan_hold (hs : (p.key plan.line).state = .hold) (hp : (p.key plan.line).pending = none) :
    newPlan plan p = p.setKey plan.line { (p.key plan.line).letGo p.now with pending := some plan } := by
  rw [newPlan]
  simp only [hs]
  rw [enterRelease_eq]
  refine ((holdPending_taken _ _).1 ?_).trans ?_
  · rw [Part.key_setKey_same]
    exact hp
  · rw [Part.key_setKey_same, Part.setKey_setKey]

theorem newPlan_queued (hs : (p.key plan.line).state = .queued) : newPlan plan p = mergePlan plan p := by
  rw [newPlan]
  simp only [hs]

end

/-- What an onset does at its line, or the drop of one whose line is FAULTED or rests. -/
theorem takeOnset_taken (h : BudgetSound p) (o : Onset) : OnsetTaken o p (takeOnset o p) := by
  have awake := takeOnset_awake (p := p) (o := o)
  unfold OnsetTaken
  dsimp only
  refine ⟨takeOnset_faulted, takeOnset_resting, fun hr hs => ?_, fun hr hs => ?_, fun hr hs hp => ?_,
    fun e he old hr hs hl hreq => ?_⟩
  · rw [awake (by rw [hs]; nofun) hr]
    exact newPlan_idle h.wait hs
  · rw [awake (by rcases hs with hs | hs <;> rw [hs] <;> nofun) hr, newPlan_held hs]
    exact holdPending_taken (p.planned o) p
  · rw [awake (by rw [hs]; nofun) hr]
    exact newPlan_hold hs hp
  · obtain ⟨stays, granted⟩ := mergePlan_taken h (plan := p.planned o) he hs hl hreq
    rw [awake (by rw [hs]; nofun) hr, newPlan_queued hs]
    refine ⟨fun hg => (stays hg).trans ?_, granted⟩
    rw [mergedEntry_eq h.wait hreq]
    exact hs ▸ rfl

end

end Sys2Proof.Machine
end

section
/-! PROOFS. The debounce table, the levels of the map's targets and the events of a row (R39, R46 to R54, R149). -/

namespace Sys2Proof.Machine

/-! ### The debounce table -/

/-- The moves of a track on a hole (R46). -/
theorem moveTrack_hole (onRows offRows row : Nat) (d : Debounce) :
    moveTrack onRows offRows row true d = seeHole onRows row d := rfl

/-- The moves of a track on no hole (R47). -/
theorem moveTrack_noHole (onRows offRows row : Nat) (d : Debounce) :
    moveTrack onRows offRows row false d = seeNoHole offRows d := rfl

/-- A track's move, its event, and what it counts (R46 to R49). -/
theorem moveTrack_table (onRows offRows row : Nat) (hole : Bool) (d : Debounce) :
    let moved := moveTrack onRows offRows row hole d
    let level := fun e : Debounce => match e with | .opened | .closing _ => true | _ => false
    moved.state =
        (match d, hole with
          | .closed, true => if onRows = 1 then .opened else .opening 1 row
          | .opening c first, true => if c + 1 = onRows then .opened else .opening (c + 1) first
          | .opened, true | .closing _, true => .opened
          | .closed, false | .opening _ _, false => .closed
          | .opened, false => if offRows = 1 then .closed else .closing 1
          | .closing c, false => if c + 1 = offRows then .closed else .closing (c + 1))
      ∧ moved.event =
        (match level d, level moved.state, d with
          | false, true, .opening _ first => .onset first
          | false, true, _ => .onset row
          | true, false, _ => .offset
          | _, _, _ => .none)
      ∧ (moved.speck = true ↔ hole = false ∧ ∃ c first, d = .opening c first)
      ∧ (moved.patch = true ↔ hole = true ∧ ∃ c, d = .closing c) := by
  dsimp only
  cases hole with
  | true =>
    rw [moveTrack_hole]
    cases d with
    | closed => by_cases h : onRows = 1 <;> simp [seeHole, TrackMove.to, h]
    | opening c first => by_cases h : c + 1 = onRows <;> simp [seeHole, TrackMove.to, h]
    | opened => simp [seeHole, TrackMove.to]
    | closing c => simp [seeHole]
  | false =>
    rw [moveTrack_noHole]
    cases d with
    | closed => simp [seeNoHole, TrackMove.to]
    | opening c first => simp [seeNoHole]
    | opened => by_cases h : offRows = 1 <;> simp [seeNoHole, TrackMove.to, h]
    | closing c => by_cases h : c + 1 = offRows <;> simp [seeNoHole, TrackMove.to, h]

/-! ### The level of a target (R39) -/

section
variable {t : Settings} {f : TrackFunction} {h : Half}

/-- A track that addresses a target is the one that is found, no other addressing it (R38). -/
theorem trackOf_eq (legal : mapLegal t.trackMap) {u : TrackNo} (hf : t.trackMap[u].function = f)
    (hh : f.isExpression = true → t.trackMap[u].half = h) (target : f ≠ .none) (noKey : f ≠ .key) :
    t.trackOf f h = some u := by
  have addresses : (t.trackMap[u].function == f && (!f.isExpression || t.trackMap[u].half == h)) = true := by
    rw [hf]
    cases hx : f.isExpression
    · simp
    · rw [hh hx]
      simp
  obtain ⟨v, hv⟩ : ∃ v, t.trackOf f h = some v :=
    Option.isSome_iff_exists.1 (List.find?_isSome.2 ⟨u, List.mem_finRange u, addresses⟩)
  have found := List.find?_some hv
  simp only [Bool.and_eq_true, Bool.or_eq_true, beq_iff_eq, Bool.not_eq_true'] at found
  obtain ⟨hvf, hvh⟩ := found
  rw [hv]
  by_contra apart
  have distinct := legal.1 v u fun c => apart (by rw [c])
  have same : t.trackMap[v].sameTarget t.trackMap[u] = true := by
    unfold TrackEntry.sameTarget
    rw [hvf, hf]
    rcases hvh with hx | hx
    · simp [hx, target, noKey]
    · cases hy : f.isExpression
      · simp [target, noKey]
      · rw [hx, hh hy]
        simp [target, noKey]
  rw [same] at distinct
  cases distinct

theorem trackOf_some {u : TrackNo} (hu : t.trackOf f h = some u) :
    t.trackMap[u].function = f ∧ (f.isExpression = true → t.trackMap[u].half = h) := by
  have found := List.find?_some hu
  simp only [Bool.and_eq_true, Bool.or_eq_true, beq_iff_eq, Bool.not_eq_true'] at found
  exact ⟨found.1, fun hx => found.2.resolve_left (by simp [hx])⟩

/-- The level of a half's ACCENT role is open where a track that addresses it is (R39, R82). -/
theorem targetLevel_accent (legal : mapLegal t.trackMap) (states : Vector Debounce 112) :
    targetLevel t states .accent h
      = decide (∃ u : TrackNo, t.trackMap[u].function = .accent ∧ t.trackMap[u].half = h ∧ states[u].level = true) := by
  rw [Bool.eq_iff_iff, decide_eq_true_eq, targetLevel]
  constructor
  · intro hl
    cases hu : t.trackOf .accent h with
    | none => rw [hu] at hl; cases hl
    | some u =>
      rw [hu] at hl
      obtain ⟨hf, hh⟩ := trackOf_some hu
      exact ⟨u, hf, hh rfl, hl⟩
  · rintro ⟨u, hf, hh, hl⟩
    rw [trackOf_eq legal hf (fun _ => hh) (by decide) (by decide)]
    exact hl

end

/-! ### The events of a row -/

section
variable {p : Part} {t : TrackNo} {event : TrackEvent}

theorem handEvent_key_onset (hf : p.settings.trackMap[t].function = .key) (row : Nat) :
    handEvent t (.onset row) p = takeOnset (noteOnset p.settings.trackMap[t].key row p) p := by
  simp only [handEvent, hf]

theorem handEvent_key_offset (hf : p.settings.trackMap[t].function = .key) :
    handEvent t .offset p = noteOff p.settings.trackMap[t].key p := by
  simp only [handEvent, hf]

/-- An expression role's new level is handed over (R53). -/
theorem handEvent_role (he : event ≠ .none) (hf : p.settings.trackMap[t].function.isExpression = true) :
    handEvent t event p
      = takeRoleLevel p.settings.trackMap[t].function p.settings.trackMap[t].half (decide (event ≠ .offset)) p := by
  unfold handEvent
  cases event with
  | none => exact absurd rfl he
  | onset row =>
    rw [decide_eq_true (by nofun)]
    dsimp only
    cases hg : p.settings.trackMap[t].function with
    | none | key | damperLift | damperFeather | soft => rw [hg] at hf; cases hf
    | step1 | step2 | step4 | swell | quick | accent => rfl
  | offset =>
    rw [decide_eq_false (by simp)]
    dsimp only
    cases hg : p.settings.trackMap[t].function with
    | none | key | damperLift | damperFeather | soft => rw [hg] at hf; cases hf
    | step1 | step2 | step4 | swell | quick | accent => rfl

/-- A pedal role's new level is recorded and acted on (R54, R149). -/
theorem handEvent_pedal (he : event ≠ .none) :
    let opens := decide (event ≠ .offset)
    (p.settings.trackMap[t].function = .damperLift → handEvent t event p = takeLiftLevel opens p)
      ∧ (p.settings.trackMap[t].function = .damperFeather → handEvent t event p = takeFeatherLevel opens p)
      ∧ (p.settings.trackMap[t].function = .soft → handEvent t event p = takeSoftLevel opens p) := by
  cases event with
  | none => exact absurd rfl he
  | onset row =>
    rw [decide_eq_true (by nofun)]
    refine ⟨?_, ?_, ?_⟩ <;> intro hf <;> simp only [handEvent, hf]
  | offset =>
    rw [decide_eq_false (by simp)]
    refine ⟨?_, ?_, ?_⟩ <;> intro hf <;> simp only [handEvent, hf]

/-- The half with one role's level set (R53). -/
theorem setRole_eq (f : TrackFunction) (l : InputLevels) (opens : Bool) :
    f.isExpression = true → l.setRole f opens
      = match f with
        | .step1 => { l with step1 := opens }
        | .step2 => { l with step2 := opens }
        | .step4 => { l with step4 := opens }
        | .swell => { l with swell := opens }
        | .quick => { l with quick := opens }
        | _ => { l with accent := opens } := by
  intro hf
  cases f with
  | none | key | damperLift | damperFeather | soft => cases hf
  | step1 | step2 | step4 | swell | quick | accent => rfl

end

/-- Settles O60: the table track by track, an event by its target, and the taken forms of note-offs, lifts and drops. -/
theorem rowEventsActed : Obligations.RowEventsActed := by
  refine ⟨moveTrack_table, fun p t event => ?_, fun _ _ => noteOff_taken, fun _ depth _ h => liftPedal_taken h depth,
    fun _ _ => dropPedal_taken⟩
  dsimp only
  refine ⟨?_, fun row hf he legal => ?_, fun hf he => ?_, fun he hf => ?_, fun he hf => ?_, fun he hf => ?_,
    fun he hf => ?_⟩
  · rintro (rfl | hf)
    · rfl
    · cases event <;> simp only [handEvent, hf]
  · rw [he, handEvent_key_onset hf]
    unfold noteOnset
    dsimp only
    rw [targetLevel_accent legal]
    rfl
  · rw [he, handEvent_key_offset hf]
  · rw [handEvent_role he hf]
    unfold takeRoleLevel
    dsimp only
    rw [setRole_eq _ _ _ hf]
    rfl
  · rw [(handEvent_pedal he).1 hf, takeLiftLevel, demandDamper_eq]
  · rw [(handEvent_pedal he).2.1 hf, takeFeatherLevel, demandDamper_eq]
  · rw [(handEvent_pedal he).2.2 hf, takeSoftLevel, followSoft_eq, followSoft_eq]

end Sys2Proof.Machine
end

section
/-! PROOFS. The timers of a starved roll and of the pedals: the starve-hold expiry and the ends of lifts and settles (R33,
R139, R151, R152). -/

namespace Sys2Proof.Machine

/-! ### One act on each key line -/

/-- The part with every key line's record replaced by what a function makes of it. -/
def Part.mapKeys (p : Part) (g : KeyLine → KeyLine) : Part :=
  { p with drives := { p.drives with keys := Vector.ofFn fun k => g (p.key k) } }

@[simp] theorem mapKeys_key (p : Part) (g : KeyLine → KeyLine) (k : KeyNo) : (p.mapKeys g).key k = g (p.key k) := by
  simp [Part.mapKeys, Part.key]

/-- An act that replaces its own line's record, taken for some lines one after the other, replaces the records of those
lines. -/
theorem foldl_setKey (g : KeyLine → KeyLine) (ks : List KeyNo) (nodup : ks.Nodup) (p : Part) :
    ks.foldl (fun q k => q.setKey k (g (q.key k))) p
      = { p with drives := { p.drives with
          keys := Vector.ofFn fun k => if k ∈ ks then g (p.key k) else p.key k } } := by
  induction ks generalizing p with
  | nil =>
    have same : (Vector.ofFn fun k => if k ∈ ([] : List KeyNo) then g (p.key k) else p.key k) = p.drives.keys := by
      ext i hi
      simp [Part.key]
    rw [same]
    rfl
  | cons k rest ih =>
    obtain ⟨out, nodup⟩ := List.nodup_cons.1 nodup
    rw [List.foldl_cons, ih nodup]
    have keys : (Vector.ofFn fun j => if j ∈ rest then g ((p.setKey k (g (p.key k))).key j)
        else (p.setKey k (g (p.key k))).key j) = Vector.ofFn fun j => if j ∈ k :: rest then g (p.key j) else p.key j := by
      congr 1
      funext j
      by_cases hj : j = k
      · subst hj
        rw [if_neg out, if_pos (.head _), Part.key_setKey_same]
      · rw [Part.key_setKey_ne _ _ hj]
        simp [hj]
    rw [keys]
    rfl

theorem foldl_allKeys (g : KeyLine → KeyLine) (p : Part) :
    allKeys.foldl (fun q k => q.setKey k (g (q.key k))) p = p.mapKeys g := by
  rw [allKeys, foldl_setKey g _ (List.nodup_finRange 88)]
  simp [Part.mapKeys]

/-- An act that replaces its own line's record, by a rule that reads the settings and the time besides, taken for every
key line. -/
theorem foldl_act_allKeys {act : KeyNo → Part → Part} {g : KeyLine → KeyLine} {p : Part}
    (own : ∀ k q, q.settings = p.settings → q.now = p.now → act k q = q.setKey k (g (q.key k))) :
    allKeys.foldl (fun q k => act k q) p = p.mapKeys g := by
  have fold : ∀ (ks : List KeyNo) (q : Part), q.settings = p.settings → q.now = p.now →
      ks.foldl (fun q k => act k q) q = ks.foldl (fun q k => q.setKey k (g (q.key k))) q := by
    intro ks
    induction ks with
    | nil => exact fun _ _ _ => rfl
    | cons k rest ih =>
      intro q settings now
      rw [List.foldl_cons, List.foldl_cons, own k q settings now]
      exact ih _ settings now
  rw [fold _ p rfl rfl, foldl_allKeys]

/-- A held line that is let go. -/
def KeyLine.unheld (l : KeyLine) (now : Time) : KeyLine :=
  if l.state = .hold then l.letGo now else l

/-- The holds are let go, every other line staying as it is (R139). -/
theorem releaseHolds_eq (p : Part) : releaseHolds p = p.mapKeys fun l => l.unheld p.now :=
  foldl_act_allKeys (act := fun k q => if (q.key k).state = .hold then enterRelease k q else q) fun k q _ now => by
    unfold KeyLine.unheld
    split
    · rw [enterRelease_eq, now]
    · exact (Part.setKey_self q k).symm

section
variable {p : Part} {d : Pedal}

/-! ### A pedal that does not wait is dropped -/

/-- The record of a pedal that has been dropped, where it did not wait (R152). -/
def PedalRecord.dropped (r : PedalRecord) (now : Time) (settle : Nat) : PedalRecord :=
  match r.state with
  | .lifting => { r with dropMark := true }
  | .raised => r.fallen now settle
  | .lowered | .dropping | .waiting => r

@[simp] theorem Part.setPedal_self (p : Part) (d : Pedal) : p.setPedal d (p.pedal d) = p := by
  cases d <;> rfl

theorem dropPedal_eq (waiting : (p.pedal d).state ≠ .waiting) :
    dropPedal d p = p.setPedal d ((p.pedal d).dropped p.now (p.settings.ofPedal d).2.2.2) := by
  unfold dropPedal PedalRecord.dropped
  cases hs : (p.pedal d).state with
  | lowered | dropping => simp only [hs, Part.setPedal_self]
  | lifting => simp only [hs]
  | raised =>
    simp only [hs]
    exact beginDrop_eq d p
  | waiting => exact absurd hs waiting

theorem dropped_down {r : PedalRecord} (waiting : r.state ≠ .waiting) (now : Time) (settle : Nat) :
    (r.dropped now settle).Down := by
  unfold PedalRecord.dropped PedalRecord.Down
  cases hs : r.state with
  | lowered => exact .inl hs
  | dropping => exact .inr (.inl hs)
  | lifting => exact .inr (.inr ⟨rfl, rfl⟩)
  | raised => exact .inr (.inl rfl)
  | waiting => exact absurd hs waiting

/-- A dropped damper is down (R152). -/
theorem DropTaken.down {q : Part} (h : DropTaken d p q) : (q.pedal d).Down := by
  unfold DropTaken at h
  dsimp only at h
  cases hs : (p.pedal d).state with
  | lowered => rw [hs] at h; rw [h]; exact .inl hs
  | dropping => rw [hs] at h; rw [h]; exact .inr (.inl hs)
  | lifting =>
    rw [hs] at h
    rw [h, Part.pedal_setPedal_same]
    exact .inr (.inr ⟨rfl, rfl⟩)
  | raised =>
    rw [hs] at h
    rw [h, Part.pedal_setPedal_same]
    exact .inr (.inl rfl)
  | waiting =>
    rw [hs] at h
    rw [h.1]
    split
    · exact .inr (.inl rfl)
    · exact .inr (.inl rfl)
    · exact .inl rfl

end

/-! ### The starve-hold expiry -/

/-- The part in which the expiry has stopped its timer, counted itself and let the holds go. -/
def Part.holdsLetGo (p : Part) : Part :=
  { p with
    feed := { p.feed with starve := none, starveReleases := min (p.feed.starveReleases + 1) 4294967295 }
    drives := { p.drives with keys := Vector.ofFn fun k =>
      if (p.key k).state = .hold then (p.key k).letGo p.now else p.key k } }

theorem expireStarve_eq (p : Part) : expireStarve p = dropPedal .damper p.holdsLetGo := by
  rw [expireStarve, releaseHolds_eq]
  rfl

theorem holdsLetGo_budget {p : Part} (h : BudgetSound p) : BudgetSound p.holdsLetGo := by
  have counted : Good false (p.setFeed { p.feed with starve := none, starveReleases := bump p.feed.starveReleases }) :=
    (setFeed_same p _).good h.good
  have released := releaseHolds_good counted
  rw [releaseHolds_eq] at released
  exact released.budget

theorem holdsLetGo_key (p : Part) (k : KeyNo) :
    p.holdsLetGo.key k = if (p.key k).state = .hold then (p.key k).letGo p.now else p.key k := by
  simp [Part.holdsLetGo, Part.key]

theorem exec_starveHoldExpiry {s : State} (on : s.part.power = .on) :
    exec .starveHoldExpiry s = .next (s.withPart (starveExpires s.part)) :=
  whileOn_on on

/-- Settles O39: the holds are let go line by line, and the damper takes the drop of its state. -/
theorem starveHoldExpires : Obligations.StarveHoldExpires := by
  intro s on
  dsimp only
  rw [exec_starveHoldExpiry on, starveExpires]
  refine ⟨fun h => ?_, fun timer starved running waiting => ?_, fun timer starved running h => ?_⟩
  · rw [if_neg (by rcases h with h | h <;> simp [h])]
    rfl
  · rw [if_pos ⟨starved, by rw [running]; rfl⟩, expireStarve_eq]
    have dropped := dropPedal_eq (p := s.part.holdsLetGo) (d := .damper) waiting
    refine ⟨_, rfl, fun k => ?_, ⟨?_, fun raised => ?_⟩, ?_⟩
    · change (dropPedal .damper s.part.holdsLetGo).key k = _
      rw [dropped, Part.setPedal_key, holdsLetGo_key]
    · change (dropPedal .damper s.part.holdsLetGo).pedals.damper.Down
      rw [dropped]
      exact dropped_down waiting _ _
    · change (dropPedal .damper s.part.holdsLetGo).pedals.damper = _
      rw [dropped]
      change PedalRecord.dropped s.part.pedals.damper _ _ = _
      simp only [PedalRecord.dropped, raised]
      rfl
    · rw [dropped]
      rfl
  · rw [if_pos ⟨starved, by rw [running]; rfl⟩, expireStarve_eq]
    exact ⟨_, rfl, rfl, dropPedal_taken (holdsLetGo_budget h)⟩

/-! ### The ends of a pedal's timers -/

section
variable {p : Part} {d : Pedal}

theorem pedalHold_eq (t : Settings) (d : Pedal) (depth : Depth) :
    t.pedalHold d depth = match d, depth with
      | .damper, .full => t.damperHoldFull
      | .damper, .part => t.damperHoldPart
      | _, _ => t.railHold := by
  cases d <;> cases depth <;> rfl

theorem settle_eq (t : Settings) (d : Pedal) :
    (t.ofPedal d).2.2.2 = if d = .damper then t.damperSettle else t.railSettle := by
  cases d <;> rfl

/-- The record of a pedal whose kick has ended (R151). -/
def PedalRecord.kickEnded (r : PedalRecord) (t : Settings) (d : Pedal) (now : Time) : PedalRecord :=
  if r.dropMark then { r.fallen now (t.ofPedal d).2.2.2 with kickTimer := none }
  else
    { r with
      state := .raised
      kickTimer := none
      drive := r.drive.setDuty t.pwmBase now (some (t.pedalHold d r.depth)) }

/-- A lift that ends: its units are reported, and its record takes the end (R151). -/
theorem liftEnds_eq (h : BudgetSound p) (lifting : (p.pedal d).state = .lifting) :
    liftEnds d p
      = (reportEnd (pedalLineNo d) p).setPedal d ((p.pedal d).kickEnded p.settings d p.now) := by
  have none_waits := h.no_pedal_entry (d := d) (by rw [lifting]; nofun)
  have record := (reportEnd_reported h.good none_waits).pedal d none_waits
  have frame := reportEnd_frame (pedalLineNo d) p
  unfold liftEnds PedalRecord.kickEnded
  dsimp only
  rw [if_pos lifting, record]
  split
  · rw [beginDrop_eq, Part.pedal_setPedal_same, Part.setPedal_setPedal, Part.setPedal_now, Part.setPedal_settings,
      frame.settings, frame.now]
    rfl
  · rw [Part.pedal_setPedal_same, Part.setPedal_setPedal, PedalRecord.driven, Part.setPedal_now, Part.setPedal_settings,
      frame.settings, frame.now]

end

/-- Settles O51: the units return in a granting pass, and the pedal's record takes the end of its timer. -/
theorem pedalTimersEnd : Obligations.PedalTimersEnd := by
  intro s d on
  have kick : exec (.pedalKickEnd d) s = .next (s.withPart (liftEnds d s.part)) := whileOn_on on
  have settle : exec (.settleEnd d) s = .next (s.withPart (settleEnds d s.part)) := whileOn_on on
  dsimp only
  rw [kick, settle]
  refine ⟨fun h => ?_, fun h => ?_, fun h => ?_, fun lifting h => ?_⟩
  · rw [liftEnds, if_neg h]
    rfl
  · rw [settleEnds, if_neg h]
    rfl
  · rw [settleEnds, if_pos h]
  · have none_waits := h.no_pedal_entry (d := d) (by rw [lifting]; nofun)
    have reported := reportEnd_reported h.good none_waits
    have frame := reportEnd_frame (pedalLineNo d) s.part
    rw [liftEnds_eq h lifting]
    refine ⟨_, rfl, rfl, ?_, fun noDrop => ?_, fun drop => ?_, fun k hk => ?_, ?_, ?_, ?_, ?_, ?_, ?_⟩
    · change (Part.setPedal _ d _).arbiter.grants[pedalLineNo d] = none
      rw [setPedal_grants]
      exact (reported.but.free _ (also_self _ _)).1
    · change (Part.setPedal _ d _).pedal d = _
      rw [Part.pedal_setPedal_same, PedalRecord.kickEnded, if_neg (by rw [noDrop]; nofun), pedalHold_eq] <;> rfl
    · change (Part.setPedal _ d _).pedal d = _
      rw [Part.pedal_setPedal_same, PedalRecord.kickEnded, if_pos drop, settle_eq]
    · change (Part.setPedal _ d _).key k = _
      rw [Part.setPedal_key, reported.key k (h.no_key_entry hk)]
    · exact (Part.setPedal_feed _ _ _).trans frame.feed
    · exact (Part.setPedal_ring _ _ _).trans frame.ring
    · exact (Part.setPedal_tracks _ _ _).trans frame.tracks
    · exact (Part.setPedal_settings _ _ _).trans frame.settings
    · exact (Part.setPedal_expression _ _ _).trans frame.expression
    · exact (Part.setPedal_player _ _ _).trans frame.player

end Sys2Proof.Machine
end

section
/-! PROOFS. The deadline of an entry (R119, R154). -/

namespace Sys2Proof.Machine

/-- A raised source without a set has its flag (R168). -/
theorem raise_own_flag (p : Part) {src : NoticeSource} (h : src.hasSet = false) : (raise src p).notices.flag src = true := by
  simp [raise_flag p h]

/-- A plan that ends in an outcome other than PLAYED and MERGED raises STRIKES_DROPPED (R123). -/
theorem filed_flag (plan : Plan) {o : StrikeOutcome} (h : ¬ (o = .played ∨ o = .merged)) (waited : Nat) (p : Part) :
    (p.filed plan o waited).notices.flag .strikesDropped = true := by
  unfold Part.filed
  dsimp only
  rw [if_neg h]
  exact raise_own_flag _ rfl

/-- A filing leaves the counters of pedals. -/
theorem filed_pedal_counts (plan : Plan) (o : StrikeOutcome) (waited : Nat) (p : Part) :
    (p.filed plan o waited).arbiter.latePedals = p.arbiter.latePedals
      ∧ (p.filed plan o waited).arbiter.withdrawals = p.arbiter.withdrawals := by
  unfold Part.filed
  dsimp only
  split <;> exact ⟨rfl, rfl⟩

section
variable {p : Part} {e : WaitEntry}

/-- The part without an entry, a key's plan ended and its line IDLE, before the pass that follows. -/
def Part.unqueuing (p : Part) (e : WaitEntry) (plan : Plan) (o : StrikeOutcome) (waited : Nat) : Part :=
  (unqueueKey plan.line (p.dropEntry e.line)).filed (plan.withShort e.short) o waited

theorem removeKeyEntry_eq (plan : Plan) (o : StrikeOutcome) (waited : Nat) :
    removeKeyEntry e plan o waited p = grantingPass (p.unqueuing e plan o waited) := by
  rw [removeKeyEntry, endPlan_eq_filed, Part.unqueuing]

/-- What the removal of a key entry leaves (R114, R124, R131). -/
theorem removeKeyEntry_left (h : BudgetSound p) (he : e ∈ p.arbiter.wait) {plan : Plan} (hr : e.request = .strike plan)
    {o : StrikeOutcome} (ho : ¬ (o = .played ∨ o = .merged)) (waited : Nat) :
    let q := removeKeyEntry e plan o waited p
    ¬ q.hasEntry e.line ∧ q.arbiter.grants[e.line] = none
      ∧ q.key plan.line = { p.key plan.line with state := .idle, queuedOrigin := none }
      ∧ q.arbiter.outcomes[o.code] = min (p.arbiter.outcomes[o.code] + 1) 4294967295
      ∧ q.arbiter.latePedals = p.arbiter.latePedals ∧ q.notices.flag .strikesDropped = true := by
  dsimp only
  have left : BudgetBut false noLine (p.unqueuing e plan o waited) := by
    rw [Part.unqueuing, ← endPlan_eq_filed]
    exact (endPlan_same (plan.withShort e.short) o waited _).budgetBut (h.good.but.unqueue he hr)
  have moves := grantingPass_moves left
  have keeps := filed_keeps (plan.withShort e.short) o waited (unqueueKey plan.line (p.dropEntry e.line))
  have list : (p.unqueuing e plan o waited).arbiter.wait = (p.dropEntry e.line).arbiter.wait := keeps.2.2.2.2.2
  have gone : ¬ (p.unqueuing e plan o waited).hasEntry e.line := by
    rw [hasEntry_iff, list, ← hasEntry_iff]
    exact not_hasEntry_dropEntry h.good.but.list e.line
  have code : o.code ≠ 0 := fun c => ho (.inl (by cases o <;> first | rfl | cases c))
  have idle := removeKeyEntry_key h.good he hr o waited
  rw [removeKeyEntry_eq] at idle ⊢
  refine ⟨fun c => gone (moves.hasEntry c), ?_, idle, ?_, ?_, ?_⟩
  · rw [moves.grants _ gone]
    exact (congrArg (fun g : Vector (Option Nat) 91 => g[e.line]) keeps.2.2.2.2.1).trans (h.good.but.waiting he).2.1
  · refine (moves.outcomes _ code).trans ?_
    rw [Part.unqueuing]
    simp only [filed_outcomes]
    exact Vector.getElem_set_self _
  · exact moves.latePedals.trans (filed_pedal_counts _ _ _ _).1
  · rw [moves.frame.notices]
    exact filed_flag _ ho _ _

/-- What the deadline of a pedal's entry leaves (R119, R154). -/
theorem expireLift_left (h : BudgetSound p) (he : e ∈ p.arbiter.wait) {depth : Depth} (hr : e.request = .lift depth)
    {d : Pedal} (hl : e.line = pedalLineNo d) :
    let q := expireEntry e p
    ¬ q.hasEntry e.line ∧ q.arbiter.grants[e.line] = none
      ∧ q.pedal d = (p.pedal d).returned p.settings d p.now
      ∧ q.arbiter.outcomes[1] = p.arbiter.outcomes[1]
      ∧ q.arbiter.latePedals = min (p.arbiter.latePedals + 1) 4294967295 := by
  have late : expireEntry e p = grantingPass (returnPedal d (countLatePedal (p.dropEntry e.line))) := by
    simp only [expireEntry, hr, hl, lineKey_pedalLineNo]
  have waiting : (p.pedal d).state = .waiting := (h.pedal d).2.1.2 ⟨e, he, hl⟩
  have left := (countLatePedal_same _).budgetBut (h.good.but.drop ((h.pedal d).place_of_waiting waiting))
  dsimp only
  simp only [late, hl]
  have back := left.return_pedal
  have gone : ¬ (returnPedal d (countLatePedal (p.dropEntry (pedalLineNo d)))).hasEntry (pedalLineNo d) := by
    rw [returnPedal_eq, hasEntry_setPedal]
    exact (left.free _ (also_self _ _)).2
  have moves := grantingPass_moves back
  have arbiter := returnPedal_arbiter d (countLatePedal (p.dropEntry (pedalLineNo d)))
  have record : (countLatePedal (p.dropEntry (pedalLineNo d))).pedal d = p.pedal d := by cases d <;> rfl
  refine ⟨fun c => gone (moves.hasEntry c), ?_, ?_, ?_, ?_⟩
  · rw [moves.grants _ gone, returnPedal_eq, setPedal_grants]
    exact (left.free _ (also_self _ _)).1
  · rw [moves.pedal_of_no_entry gone, returnPedal_eq, Part.pedal_setPedal_same, record]
    rfl
  · refine (moves.outcomes 1 (by decide)).trans ?_
    rw [arbiter]
    rfl
  · rw [moves.latePedals, arbiter]
    rfl

end

/-- Where a pedal goes back to, by its waiting origin (R154). -/
theorem returned_eq (r : PedalRecord) (t : Settings) (d : Pedal) (now : Time) :
    r.returned t d now
      = match r.origin with
        | some .dropping =>
          { r with
            state := .dropping
            origin := none
            settleTimer := some
              { started := now, length := if d = .damper then t.damperSettle else t.railSettle } }
        | some .deepen => { r with state := .raised, origin := none, depth := .part }
        | _ => { r with state := .lowered, origin := none } := by
  unfold PedalRecord.returned
  rw [pedalSettle_eq, settle_eq]
  cases r.origin with
  | none => rfl
  | some origin => cases origin <;> rfl

/-- Settles O50: the entry leaves LATE or goes back to its pedal, and the pass that follows leaves its line alone. -/
theorem waitDeadlinePasses : Obligations.WaitDeadlinePasses := by
  intro s m on
  have run : exec (.waitDeadline m.val) s = .next (s.withPart (lineDeadline m s.part)) :=
    (onLine_val m lineDeadline s).trans (whileOn_on on)
  dsimp only
  rw [run]
  refine ⟨fun none_waits => ?_, fun e he hl h => ?_⟩
  · have unfound : s.part.entryOf m = none := by
      cases hf : s.part.entryOf m with
      | none => rfl
      | some e => exact absurd ⟨e, entryOf_eq_some hf⟩ none_waits
    rw [lineDeadline, unfound]
    rfl
  · subst hl
    have frame := lineDeadline_frame e.line s.part
    have found : lineDeadline e.line s.part = expireEntry e s.part := by
      rw [lineDeadline, entryOf_eq h.wait he]
    rw [found] at frame ⊢
    have rest : ∀ {P : Prop}, P → P ∧ (expireEntry e s.part).feed = s.part.feed
        ∧ (expireEntry e s.part).ring = s.part.ring ∧ (expireEntry e s.part).tracks = s.part.tracks
        ∧ (expireEntry e s.part).settings = s.part.settings ∧ (expireEntry e s.part).expression = s.part.expression
        ∧ (expireEntry e s.part).player = s.part.player := fun hp =>
      ⟨hp, frame.feed, frame.ring, frame.tracks, frame.settings, frame.expression, frame.player⟩
    have sound := h.wait.2.2.2.1 e he
    refine ⟨_, rfl, rfl, ?_⟩
    change ¬ (expireEntry e s.part).hasEntry e.line ∧ (expireEntry e s.part).arbiter.grants[e.line] = none ∧ _
    cases hr : e.request with
    | strike plan =>
      have line := (sound.of_strike hr).1
      have late : expireEntry e s.part = removeKeyEntry e plan .late (wholeMs e.entered e.deadline) s.part := by
        simp only [expireEntry, hr]
      rw [late] at rest ⊢
      obtain ⟨gone, place, key, outcome, pedals, flag⟩ :=
        removeKeyEntry_left h he hr (o := .late) (by decide) (wholeMs e.entered e.deadline)
      refine ⟨gone, place, fun k hk => ?_, rest fun d hd => ?_⟩
      · obtain rfl := keyLineNo_inj.1 (hk.symm.trans line)
        exact ⟨key, outcome, pedals, flag⟩
      · exact absurd (line.symm.trans hd) (keyLineNo_ne_pedalLineNo _ _)
    | lift depth =>
      obtain ⟨⟨d, line⟩, -⟩ := sound.of_lift hr
      obtain ⟨gone, place, pedal, outcome, late⟩ := expireLift_left h he hr line
      refine ⟨gone, place, fun k hk => ?_, rest fun x hx => ?_⟩
      · exact absurd (hk.symm.trans line) (keyLineNo_ne_pedalLineNo _ _)
      · obtain rfl := pedalLineNo_inj.1 (hx.symm.trans line)
        refine ⟨late, outcome, ?_⟩
        refine pedal.trans ((returned_eq _ _ _ _).trans ?_)
        rfl

end Sys2Proof.Machine
end

section
/-! PROOFS. The timers of the key lines: the end of a kick, the heat and the end of a hold, and the end of a guard (R132,
R134, R136, R141). -/

namespace Sys2Proof.Machine

section
variable {p q : Part} {k : KeyNo} {plan : Plan}

/-! ### What a request leaves of its line -/

/-- The last entry of a full list asks for a strike: the pedals' entries stand before it and are three at most (R111). -/
theorem last_strike (h : WaitSound p) (full : p.arbiter.wait.length = 32) {last : WaitEntry}
    (hl : p.arbiter.wait.getLast? = some last) : ∃ victim, last.request = .strike victim := by
  cases hr : last.request with
  | strike victim => exact ⟨victim, rfl⟩
  | lift depth =>
    obtain ⟨-, nodup, sorted, sound, -⟩ := h
    have bottom : last.priority = 0 := ((sound last (List.mem_of_getLast? hl)).of_lift hr).2
    rw [← List.dropLast_append_getLast? last hl, List.pairwise_append] at sorted
    have pedal : ∀ e ∈ p.arbiter.wait, e.line ∈ ([88, 89, 90] : List LineNo) := fun e he => by
      have prio : e.priority = 0 := by
        rw [← List.dropLast_append_getLast? last hl, List.mem_append, List.mem_singleton] at he
        rcases he with he | rfl
        · have := sorted.2.2 e he last (.head _)
          omega
        · exact bottom
      have hs := sound e he
      cases hreq : e.request with
      | strike plan =>
        have := (hs.of_strike hreq).2
        omega
      | lift depth =>
        obtain ⟨⟨d, hd⟩, -⟩ := hs.of_lift hreq
        rw [hd]
        cases d <;> decide
    have lines : p.arbiter.wait.map WaitEntry.line ⊆ ([88, 89, 90] : List LineNo) := fun m hm => by
      obtain ⟨e, he, rfl⟩ := List.mem_map.1 hm
      exact pedal e he
    have few : (p.arbiter.wait.map WaitEntry.line).length ≤ 3 := (nodup.subperm lines).length_le
    rw [List.length_map] at few
    omega

/-- A list that is not short of 32 entries is full, and a strike stands last in it. -/
theorem full_last (h : WaitSound p) (full : 32 ≤ p.arbiter.wait.length) :
    p.arbiter.wait.length = 32 ∧ ∃ last victim, p.arbiter.wait.getLast? = some last ∧ last.request = .strike victim := by
  have all : p.arbiter.wait.length = 32 := Nat.le_antisymm h.1 full
  obtain ⟨last, hl⟩ : ∃ last, p.arbiter.wait.getLast? = some last :=
    Option.ne_none_iff_exists'.1 fun c => by
      rw [List.getLast?_eq_none_iff] at c
      rw [c] at all
      cases all
  obtain ⟨victim, hv⟩ := last_strike h all hl
  exact ⟨all, last, victim, hl, hv⟩

/-- The line of a plan that has been handed over is in KICK, QUEUED, or, turned away by a full list, IDLE (R112, R113). -/
theorem StrikeRequested.line (h : StrikeRequested plan p q) (hw : WaitSound p) :
    q.key plan.line = (p.key plan.line).kicked plan p.settings.pwmBase p.now
      ∨ q.key plan.line = { p.key plan.line with state := .queued, queuedOrigin := some plan.origin }
      ∨ (q.key plan.line = { p.key plan.line with state := .idle, queuedOrigin := none }
        ∧ p.arbiter.wait.length = 32) := by
  obtain ⟨granted, joins, full⟩ := h
  by_cases now : p.headFor plan.priority ∧ plan.cost + p.arbiter.unitsInUse ≤ p.settings.budgetUnits
  · rw [granted now, Part.key_setKey_same]
    exact .inl rfl
  · rcases Nat.lt_or_ge p.arbiter.wait.length 32 with room | all
    · rw [joins now room, Part.key_setKey_same]
      exact .inr (.inl rfl)
    · obtain ⟨all, last, victim, hl, hv⟩ := full_last hw all
      obtain ⟨better, turned⟩ := full last victim now all hl hv
      by_cases hp : plan.priority < last.priority
      · rw [better hp, Part.key_setKey_same]
        exact .inr (.inl rfl)
      · rw [turned (Nat.le_of_not_lt hp), ← filed_setKey, Part.key_setKey_same]
        exact .inr (.inr ⟨rfl, all⟩)

/-! ### The end of a guard -/

/-- A guard that ends with a plan pending, its line not resting, hands the plan over (R136). -/
theorem endOfGuard_requested (hp : (p.key k).pending = some plan) (own : plan.line = k)
    (rest : (p.key k).resting = false) (hw : WaitSound p) :
    StrikeRequested plan (p.setKey k { p.key k with state := .idle, guardDone := false, pending := none })
      (endOfGuard k p) := by
  subst own
  have requested := submitPlan_requested plan
    (p.setKey plan.line { p.key plan.line with state := .idle, guardDone := false, pending := none }) (some plan.origin) hw
  rw [Part.key_setKey_same, Part.setKey_setKey] at requested
  unfold endOfGuard
  dsimp only
  split
  · next hn => rw [hp] at hn; cases hn
  · next other ho =>
    cases hp.symm.trans ho
    rw [if_neg (by rw [rest]; nofun)]
    exact requested

theorem endOfGuard_bare (hp : (p.key k).pending = none) :
    endOfGuard k p = p.setKey k { p.key k with state := .idle, guardDone := false } := by
  unfold endOfGuard
  simp only [hp]

theorem endOfGuard_resting (hp : (p.key k).pending ≠ none) (rest : (p.key k).resting = true) :
    endOfGuard k p = p.setKey k { p.key k with guardDone := true } := by
  obtain ⟨plan, hp⟩ := Option.ne_none_iff_exists'.1 hp
  unfold endOfGuard
  simp only [hp, rest]
  rfl

theorem guarding_iff (l : KeyLine) : l.guarding = true ↔ l.state = .release ∧ l.guardDone = false := by
  rw [KeyLine.guarding, Bool.and_eq_true, beq_iff_eq, Bool.not_eq_true']

/-! ### Heat -/

/-- What a gain leaves of the part: its line warmed, with LINE_RESTING raised where the line begins to rest (R141,
R143). -/
theorem gainHeat_eq (k : KeyNo) (n : Nat) (p : Part) :
    gainHeat k n p
      = if p.settings.heatHard ≤ min ((p.key k).heat + n) 65535 ∧ (p.key k).resting = false then
          raiseLineResting k (p.setKey k ((p.key k).warmed p.settings n))
        else p.setKey k ((p.key k).warmed p.settings n) := by
  unfold gainHeat KeyLine.warmed
  simp only [Bool.and_eq_true, decide_eq_true_eq, Bool.not_eq_true']

/-- A raise of a line puts it in the set. -/
theorem raiseLineResting_mem (k : KeyNo) (p : Part) :
    (raiseLineResting k p).notices.restingSet.getLsbD k.val = true :=
  (mem_or_one_shift p.notices.restingSet k k).trans (by simp)

/-- A line that begins to rest is in the set (R143). -/
theorem gainHeat_raises {n : Nat} (was : (p.key k).resting = false) (is : ((gainHeat k n p).key k).resting = true) :
    (gainHeat k n p).notices.restingSet.getLsbD k.val = true := by
  rw [gainHeat_key, if_pos rfl, KeyLine.warmed] at is
  simp only [was, Bool.false_or, decide_eq_true_eq] at is
  rw [gainHeat_eq, if_pos ⟨is, was⟩]
  exact raiseLineResting_mem _ _

/-! ### The end of a kick -/

/-- The end of a kick or lift raises nothing. -/
theorem reportEnd_notices (h : BudgetSound p) {m : LineNo} (none_waits : ¬ p.hasEntry m) :
    (reportEnd m p).notices = p.notices := by
  unfold reportEnd
  split
  · rfl
  · exact (grantingPass_moves (h.good.but.empty none_waits)).frame.notices

/-- The record of a key line whose kick has run out (R132). -/
def KeyLine.ranOut (l : KeyLine) (t : Settings) (plan : Plan) (now : Time) : KeyLine :=
  let warm := l.warmed t (plan.kick * plan.kickDuty / 2)
  if l.short || l.pending.isSome then warm.letGo now
  else
    { warm with
      state := .hold
      holdStarted := now
      holdGains := 0
      holdDeadline := some (now + 20 * plan.holdTime.getD (1000 * t.holdLimit))
      drive := l.drive.setDuty t.pwmBase now (some plan.holdDuty) }

/-- A kick that runs out: the coil warms, the units are reported, and the record takes the end (R132). -/
theorem kickRunsOut_eq (h : BudgetSound p) (kick : (p.key k).state = .kick) (hp : (p.key k).plan = some plan) :
    kickRunsOut k p
      = (reportEnd (keyLineNo k) (gainHeat k (kickHeat plan.kick plan.kickDuty) p)).setKey k
          ((p.key k).ranOut p.settings plan p.now) := by
  have warm := gainHeat_same (k := k) (kickHeat plan.kick plan.kickDuty) (p := p) (by rw [kick]; nofun)
  have noEntry : ¬ (gainHeat k (kickHeat plan.kick plan.kickDuty) p).hasEntry (keyLineNo k) := fun c =>
    h.no_key_entry (by rw [kick]; nofun) ((warm.kept _).entry.1 c)
  have record := (reportEnd_reported (warm.good h.good) noEntry).key k noEntry
  rw [gainHeat_key, if_pos rfl] at record
  have frame := (gainHeat_frame k (kickHeat plan.kick plan.kickDuty) p).trans (reportEnd_frame (keyLineNo k) _)
  unfold kickRunsOut KeyLine.ranOut
  simp only [kick, hp]
  rw [record]
  by_cases ends : ((p.key k).short || (p.key k).pending.isSome) = true
  · rw [if_pos ends, if_pos (show ((KeyLine.warmed _ _ _).short || (KeyLine.warmed _ _ _).pending.isSome) = true from ends),
      enterRelease_eq, record, frame.now]
    rfl
  · rw [if_neg ends, if_neg (show ¬ ((KeyLine.warmed _ _ _).short || (KeyLine.warmed _ _ _).pending.isSome) = true from ends),
      enterHold, record, frame.now, frame.settings]
    rfl

end

/-- Settles O48: the end is told line by line, and the granting pass moves the lines that wait alone. -/
theorem kickRunsOut_settled : Obligations.KickRunsOut := by
  intro s k on
  have run : exec (.kickEnd k.val) s = .next (s.withPart (kickRunsOut k s.part)) :=
    (onKeyLine_val k kickRunsOut s).trans (whileOn_on on)
  dsimp only
  rw [run]
  refine ⟨fun h => ?_, fun plan kick hp h => ?_⟩
  · unfold kickRunsOut
    split
    · next hs _ => exact absurd hs h
    · rfl
  · have warm := gainHeat_same (k := k) (kickHeat plan.kick plan.kickDuty) (p := s.part) (by rw [kick]; nofun)
    have budget := (warm.good h.good).budget
    have noEntry : ¬ (gainHeat k (kickHeat plan.kick plan.kickDuty) s.part).hasEntry (keyLineNo k) := fun c =>
      h.no_key_entry (by rw [kick]; nofun) ((warm.kept _).entry.1 c)
    have reported := reportEnd_reported budget.good noEntry
    have frame := (gainHeat_frame k (kickHeat plan.kick plan.kickDuty) s.part).trans (reportEnd_frame (keyLineNo k) _)
    rw [kickRunsOut_eq h kick hp]
    generalize hq : reportEnd (keyLineNo k) (gainHeat k (kickHeat plan.kick plan.kickDuty) s.part) = q at *
    have key : (q.setKey k ((s.part.key k).ranOut s.part.settings plan s.part.now)).key k
        = (s.part.key k).ranOut s.part.settings plan s.part.now := Part.key_setKey_same _ _ _
    refine ⟨_, rfl, rfl, ?_, fun ends => key.trans ?_, fun noShort noPending => key.trans ?_, fun j hj hs => ?_,
      fun was is => ?_, frame.feed, frame.ring, frame.tracks, frame.cues, frame.expression, frame.settings, frame.player⟩
    · exact (reported.but.free _ (also_self _ _)).1
    · unfold KeyLine.ranOut
      dsimp only
      rw [if_pos (by simpa [Option.isSome_iff_ne_none] using ends)]
    · unfold KeyLine.ranOut
      dsimp only
      rw [if_neg (by simp [noShort, noPending])]
    · refine (Part.key_setKey_ne _ _ hj).trans ?_
      rw [reported.key j fun c => h.no_key_entry hs ((warm.kept _).entry.1 c), gainHeat_key, if_neg (Ne.symm hj)]
    · have notices : q.notices = (gainHeat k (kickHeat plan.kick plan.kickDuty) s.part).notices := by
        rw [← hq]
        exact reportEnd_notices budget noEntry
      change q.notices.restingSet.getLsbD k.val = true
      rw [notices]
      refine gainHeat_raises was ?_
      rw [gainHeat_key, if_pos rfl]
      have rests := (congrArg KeyLine.resting key).symm.trans is
      unfold KeyLine.ranOut at rests
      dsimp only at rests
      split at rests <;> exact rests

section
variable {p : Part} {k : KeyNo}

/-! ### The end of a hold and of a guard -/

/-- A millisecond of a hold (R141). -/
theorem holdGains_eq {plan : Plan} (hold : (p.key k).state = .hold) (hp : (p.key k).plan = some plan) :
    holdGains k p
      = if p.settings.heatHard ≤ min ((p.key k).heat + plan.holdDuty / 4) 65535 ∧ (p.key k).resting = false then
          raiseLineResting k (p.setKey k
            { (p.key k).warmed p.settings (plan.holdDuty / 4) with holdGains := (p.key k).holdGains + 1 })
        else p.setKey k
          { (p.key k).warmed p.settings (plan.holdDuty / 4) with holdGains := (p.key k).holdGains + 1 } := by
  unfold holdGains
  simp only [hold, hp]
  rw [gainHeat_eq, Part.key_setKey_same, Part.setKey_setKey]
  rw [← hold, ← hp]
  rfl

theorem holdEnds_eq {plan : Plan} (hold : (p.key k).state = .hold) (hp : (p.key k).plan = some plan) :
    holdEnds k p
      = if plan.origin = .roll then countHoldCut (p.setKey k ((p.key k).letGo p.now))
        else p.setKey k ((p.key k).letGo p.now) := by
  have ofRoll : ((p.key k).plan.filter Plan.ofRoll).isSome = decide (plan.origin = .roll) := by
    rw [hp, Option.filter_some, Plan.ofRoll]
    cases plan.origin <;> rfl
  unfold holdEnds
  dsimp only
  rw [if_pos hold, ofRoll, enterRelease_eq]
  simp only [decide_eq_true_eq]

/-- With nothing waiting, a list is sound. -/
theorem waitSound_of_nil (h : p.arbiter.wait = []) : WaitSound p := by
  unfold WaitSound
  rw [h]
  simp

end

/-- Settles O49: a hold and a guard end on their own line, and a plan that is handed over is a request. -/
theorem holdAndGuardTimed : Obligations.HoldAndGuardTimed := by
  intro s k on
  have gain : exec (.holdHeatGain k.val) s = .next (s.withPart (holdGains k s.part)) :=
    (onKeyLine_val k holdGains s).trans (whileOn_on on)
  have deadline : exec (.holdDeadline k.val) s = .next (s.withPart (holdEnds k s.part)) :=
    (onKeyLine_val k holdEnds s).trans (whileOn_on on)
  have guard : exec (.guardEnd k.val) s = .next (s.withPart (guardEnds k s.part)) :=
    (onKeyLine_val k guardEnds s).trans (whileOn_on on)
  dsimp only
  rw [gain, deadline, guard]
  have ended : (s.part.key k).state = .release → (s.part.key k).guardDone = false →
      guardEnds k s.part = endOfGuard k s.part := fun hs hg => by
    rw [guardEnds, if_pos ((guarding_iff _).2 ⟨hs, hg⟩)]
  refine ⟨fun hs => ⟨?_, ?_⟩, fun plan hs hp => ⟨?_, fun ho => ?_, fun ho => ?_⟩, fun hs => ?_, fun hs hg => ?_,
    fun hs hg hp rest h => ?_⟩
  · unfold holdGains
    split
    · next c _ => exact absurd c hs
    · rfl
  · rw [holdEnds, if_neg hs]
    rfl
  · rw [holdGains_eq hs hp]
  · rw [holdEnds_eq hs hp, if_neg ho]
  · rw [holdEnds_eq hs hp, if_pos ho]
    rfl
  · rw [guardEnds, if_neg]
    · rfl
    · rw [guarding_iff]
      rintro ⟨hr, hd⟩
      rcases hs with hs | hs
      · exact hs hr
      · rw [hd] at hs
        cases hs
  · rw [ended hs hg]
    refine ⟨fun hp => ?_, fun hp rest => ?_, fun plan hp own rest none_waits fits => ⟨_, rfl, rfl, ?_⟩⟩
    · rw [endOfGuard_bare hp, ← hg]
    · rw [endOfGuard_resting hp rest]
    · obtain ⟨granted, -⟩ := endOfGuard_requested hp own rest (waitSound_of_nil none_waits)
      subst own
      have first : s.part.headFor plan.priority := by
        rw [Part.headFor, none_waits]
        exact fun _ he => by cases he
      have granted := granted ⟨first, fits⟩
      rw [Part.key_setKey_same] at granted
      change (endOfGuard plan.line s.part).key plan.line = _
        ∧ (∀ j, j ≠ plan.line → (endOfGuard plan.line s.part).key j = s.part.key j)
        ∧ (endOfGuard plan.line s.part).arbiter.grants = _ ∧ (endOfGuard plan.line s.part).arbiter.outcomes[0] = _
      rw [granted]
      refine ⟨?_, fun j hj => ?_, rfl, ?_⟩
      · rw [Part.key_setKey_same, ← hg]
        rfl
      · rw [Part.key_setKey_ne _ _ hj]
        exact Part.key_setKey_ne _ _ hj
      · exact (congrArg (fun o : Vector Nat 8 => o[0]) (filed_outcomes plan .played 0 _)).trans
          (Vector.getElem_set_self _)
  · obtain ⟨plan, hp⟩ := Option.ne_none_iff_exists'.1 hp
    have own := ((h.key k).2.2.2.2.2.1 plan hp).1
    have requested := endOfGuard_requested hp own rest h.wait
    rw [ended hs hg]
    subst own
    refine ⟨_, rfl, rfl, ?_⟩
    have line := requested.line h.wait
    rw [Part.key_setKey_same] at line
    change ((endOfGuard plan.line s.part).key plan.line).pending = none
      ∧ (((endOfGuard plan.line s.part).key plan.line).state = .kick
        ∨ ((endOfGuard plan.line s.part).key plan.line).state = .queued
        ∨ ((endOfGuard plan.line s.part).key plan.line).state = .idle ∧ s.part.arbiter.wait.length = 32)
    rcases line with line | line | ⟨line, full⟩
    · rw [line]
      exact ⟨rfl, .inl rfl⟩
    · rw [line]
      exact ⟨rfl, .inr (.inl rfl)⟩
    · rw [line]
      exact ⟨rfl, .inr (.inr ⟨rfl, full⟩)⟩

end Sys2Proof.Machine
end

section
/-! PROOFS. RESTORE LINE (R147, R155). -/

namespace Sys2Proof.Machine

/-! ### The marks of the pedals -/

/-- Every pedal has the fault kind and the faulted mark it had. -/
def SameMarks (p q : Part) : Prop :=
  ∀ d, (q.pedal d).fault = (p.pedal d).fault ∧ (q.pedal d).faulted = (p.pedal d).faulted

theorem SameMarks.of_pedals {p q : Part} (h : ∀ d, q.pedal d = p.pedal d) : SameMarks p q := fun d => by
  rw [h d]
  exact ⟨rfl, rfl⟩

/-- No operation on the lines but a fault, and the clearing of one, changes a mark. -/
theorem sameMarks_moves : KeptByMoves SameMarks where
  refl p := .of_pedals fun _ => rfl
  trans h g d := ⟨(g d).1.trans (h d).1, (g d).2.trans (h d).2⟩
  elsewhere same := .of_pedals same.pedals
  key _ _ _ _ _ := .of_pedals fun _ => Part.setKey_pedal _ _ _ _
  pedal d r p fault faulted e := by
    by_cases he : e = d
    · subst he
      rw [Part.pedal_setPedal_same]
      exact ⟨fault, faulted⟩
    · rw [Part.pedal_setPedal_ne _ _ he]
      exact ⟨rfl, rfl⟩
  place _ _ _ := .of_pedals fun _ => Part.setPlace_pedal _ _ _ _
  wait _ _ := .of_pedals fun _ => Part.setWait_pedal _ _ _
  ended plan o n p := .of_pedals fun d => by
    rw [endPlan_eq_filed]
    have keeps := (filed_keeps plan o n p).2.1
    cases d <;> simp only [Part.pedal, keeps]
  withdrawal _ := .of_pedals fun d => by cases d <;> rfl
  late _ := .of_pedals fun d => by cases d <;> rfl

/-- A rail that is moved keeps every mark. -/
theorem moveRail_marks (d : Pedal) (up : Bool) (p : Part) : SameMarks p (moveRail d up p) := by
  unfold moveRail
  split
  · exact sameMarks_moves.liftPedal d _ p
  · exact sameMarks_moves.dropPedal d p

/-- A re-sync keeps every mark (R157). -/
theorem resyncPedal_marks (d : Pedal) (p : Part) : SameMarks p (resyncPedal d p) := by
  have demand : ∀ h up, SameMarks p (p.setAutoUp h up) := fun _ _ => .of_pedals fun d => by cases d <;> rfl
  have rail : ∀ h, SameMarks p (resyncRail h p) := fun h => by
    unfold resyncRail
    split
    · exact sameMarks_moves.trans (demand h _) (moveRail_marks _ _ _)
    all_goals exact moveRail_marks _ _ p
  unfold resyncPedal
  split
  · exact sameMarks_moves.refl p
  · split
    · unfold demandDamper
      split
      · exact sameMarks_moves.liftPedal _ _ p
      · exact sameMarks_moves.dropPedal _ p
    · exact rail _
    · exact rail _

/-! ### The request -/

theorem rowOf_restoreLine {f : Frame} (h : f.kind = 0x33) : rowOf f = .restoreLine := by
  simp [rowOf, h]

theorem exec_restoreLine {s : State} {f : Frame} (h : s.part.MayTake f) (hk : f.kind = 0x33) :
    exec .restoreLine s = .next (s.withPart
      ((restoreLine f.payload s.part).2.replied f (restoreLine f.payload s.part).1)) :=
  takeRequest_answer h (rowOf_restoreLine hk)

section
variable {payload : List Byte} {p : Part} {m : LineNo}

/-- A request that names a line goes by the line's fault and the latest report of it (R147). -/
theorem restoreLine_of_line (hl : payload.length = 1) (hm : byteAt payload 0 = m.val) :
    restoreLine payload p
      = if p.lineFaulted m then
          if p.drives.reported[m] = .none then ([0], restoreNow m p) else ([10], p)
        else ([3], p) := by
  rw [restoreLine, if_neg (not_not.2 hl), hm, below_val]
  rfl

theorem lineFaulted_key (k : KeyNo) : p.lineFaulted (keyLineNo k) = ((p.key k).state == .faulted) := by
  rw [Part.lineFaulted, lineKey_keyLineNo]

theorem lineFaulted_pedal (d : Pedal) : p.lineFaulted (pedalLineNo d) = ((p.pedal d).fault != .none) := by
  rw [Part.lineFaulted, lineKey_pedalLineNo]

theorem restoreNow_key (k : KeyNo) :
    restoreNow (keyLineNo k) p = p.setKey k { (p.key k).letGo p.now with fault := .none } := by
  rw [restoreNow, lineKey_keyLineNo]
  dsimp only
  rw [restoreKey, enterRelease_eq, Part.key_setKey_same, Part.setKey_setKey]

theorem restoreNow_pedal (d : Pedal) : restoreNow (pedalLineNo d) p = restorePedal d p := by
  rw [restoreNow, lineKey_pedalLineNo]

end

/-- Settles O43: the line's fault and its latest report decide the result, and a restored pedal keeps its cleared marks
through a re-sync. -/
theorem lineRestored : Obligations.LineRestored := by
  intro s f hf hk
  refine ⟨fun hl => ?_, fun hl hm => ?_, fun k hl hm => ?_, fun d hl hm => ?_⟩
  · rw [Refuses, exec_restoreLine hf hk, restoreLine, if_pos hl]
    rfl
  · rw [Refuses, exec_restoreLine hf hk, restoreLine, if_neg (not_not.2 hl), below_eq_none hm]
    rfl
  · simp only [Refuses, Completes]
    rw [exec_restoreLine hf hk, restoreLine_of_line (m := keyLineNo k) hl hm, lineFaulted_key]
    refine ⟨fun hs => ?_, fun hs hr => ?_, fun hs hr => ?_⟩
    · rw [if_neg (by simpa using hs)]
    · rw [if_pos (by simpa using hs), if_neg hr]
    · rw [if_pos (by simpa using hs), if_pos hr, restoreNow_key]
  · simp only [Refuses, Completes]
    rw [exec_restoreLine hf hk, restoreLine_of_line hl hm, lineFaulted_pedal]
    refine ⟨fun hs => ?_, fun hs hr => ?_, fun hs hr play => ?_, fun hs hr play => ?_⟩
    · rw [if_neg (by simpa using hs)]
    · rw [if_pos (by simpa using hs), if_neg hr]
    · have out : (clearPedalFault d s.part).inPlay = false := by cases d <;> exact play
      rw [if_pos (by simpa using hs), if_pos hr, restoreNow_pedal, restorePedal, if_neg (by simp [out])]
      rfl
    · have into : (clearPedalFault d s.part).inPlay = true := by cases d <;> exact play
      rw [if_pos (by simpa using hs), if_pos hr, restoreNow_pedal, restorePedal, if_pos into]
      have marks := resyncPedal_marks d (clearPedalFault d s.part) d
      rw [clearPedalFault, Part.pedal_setPedal_same] at marks
      have same := sameRoll_play.resyncPedal d (clearPedalFault d s.part)
      exact ⟨_, rfl, marks.1, marks.2, same.feed.trans (Part.setPedal_feed _ _ _),
        same.settings.trans (Part.setPedal_settings _ _ _)⟩

end Sys2Proof.Machine
end

section
/-! PROOFS. The expression tick (R75 to R79, R86). -/

namespace Sys2Proof.Machine

/-! ### The shade of a half -/

/-- A shade moves toward its target by the rate or the distance, and stands still at the target (R79). -/
theorem glide_eq (shade target rate : Nat) :
    glide shade target rate = if shade < target then min target (shade + rate) else max target (shade - rate) := by
  unfold glide
  rw [min_comm, max_comm]

/-- At the target the rate is of no account. -/
theorem glide_still (target rate rate' : Nat) : glide target target rate = glide target target rate' := by
  unfold glide
  rw [if_neg (lt_irrefl _), if_neg (lt_irrefl _)]
  omega

/-- The four stages of a half (R76 to R79). -/
theorem tickHalf_eq (t : Settings) (x : HalfExpression) :
    tickHalf t x =
      (let l := x.levels
       let step : Fin 8 := (if l.step1 then 1 else 0) + (if l.step2 then 2 else 0) + (if l.step4 then 4 else 0)
       let base := t.stepTable[step]
       let target := if l.swell then max base t.swellCeiling else base
       let swelled := if x.shade ≤ base then false else if l.swell then true else x.swelled
       let rate :=
         if x.shade < target then
           if l.swell = false then t.stepRate else if l.quick then t.quickRate else t.slowRate
         else if l.quick then t.quickRate
         else if swelled then t.slowRate else t.stepRate
       { x with
         swelled := swelled
         shade := if x.shade < target then min target (x.shade + rate) else max target (x.shade - rate) }) := by
  have swelled : nextSwelled (expressionBase t x.levels) x
      = if x.shade ≤ expressionBase t x.levels then false else if x.levels.swell then true else x.swelled := by
    unfold nextSwelled
    cases x.levels.swell <;> rfl
  have base : expressionBase t x.levels = t.stepTable[x.levels.step] := rfl
  have target : expressionTarget t x.levels
      = if x.levels.swell then max (expressionBase t x.levels) t.swellCeiling else expressionBase t x.levels := rfl
  unfold tickHalf
  dsimp only
  rw [swelled]
  generalize hs : (if x.shade ≤ expressionBase t x.levels then false else if x.levels.swell then true else x.swelled) = flag
  have rate : glide x.shade (expressionTarget t x.levels) (expressionRate t x (expressionTarget t x.levels) flag)
      = glide x.shade (expressionTarget t x.levels)
        (if x.shade < expressionTarget t x.levels then
          if x.levels.swell = false then t.stepRate else if x.levels.quick then t.quickRate else t.slowRate
        else if x.levels.quick then t.quickRate
        else if flag then t.slowRate else t.stepRate) := by
    unfold expressionRate
    rcases Nat.lt_trichotomy x.shade (expressionTarget t x.levels) with up | still | down
    · rw [if_pos up, if_pos up]
      cases x.levels.swell <;> rfl
    · rw [← still]
      exact glide_still _ _ _
    · rw [if_neg (Nat.lt_asymm down), if_neg (Nat.lt_asymm down), if_pos down]
  rw [rate, glide_eq, ← hs, target, base]
  rfl

/-! ### The rail stage -/

section
variable {p : Part}

/-- What a rail stage leaves of the halves: the demand of an AUTO rail outside the band between RailOn and RailOff
(R86). -/
def HalfExpression.staged (x : HalfExpression) (t : Settings) (h : Half) : HalfExpression :=
  { x with autoUp :=
      if t.railMode.get h = .auto then
        if x.shade < t.railOn then true else if t.railOff < x.shade then false else x.autoUp
      else x.autoUp }

theorem Part.railAsked_frame (p : Part) (h : Half) (up : Bool) : LinesOnly p (p.railAsked h up) := by
  unfold Part.railAsked
  split
  · exact liftPedal_frame _ _ p
  · exact dropPedal_frame _ p

/-- A rail stage moves the lines and the demand of its half alone. -/
theorem railStaged_frame (h : Half) (p : Part) :
    LinesOnly (p.setHalf h ((p.expression.halves.get h).staged p.settings h)) (p.railStaged h) := by
  have self : p.setHalf h (p.expression.halves.get h) = p := by simp [Part.setHalf]
  unfold Part.railStaged HalfExpression.staged
  dsimp only
  by_cases mode : p.settings.railMode.get h = .auto
  · rw [if_neg (not_not.2 mode), if_pos mode]
    split
    · exact Part.railAsked_frame _ _ _
    · split
      · exact Part.railAsked_frame _ _ _
      · exact self.symm ▸ .refl p
  · rw [if_pos mode, if_neg mode]
    exact self.symm ▸ .refl p

/-- A half may be set before or after the lines have moved. -/
theorem LinesOnly.setHalf {p q : Part} (f : LinesOnly p q) (h : Half) (x : HalfExpression) :
    LinesOnly (p.setHalf h x) (q.setHalf h x) :=
  { f with
    expression := by
      change { q.expression with halves := q.expression.halves.set h x }
        = { p.expression with halves := p.expression.halves.set h x }
      rw [f.expression] }

/-- Both stages, the bass before the treble. -/
theorem railsStaged_frame (p : Part) :
    LinesOnly
      { p with expression := { p.expression with
          halves :=
            { bass := p.expression.halves.bass.staged p.settings .bass
              treble := p.expression.halves.treble.staged p.settings .treble } } }
      ((p.railStaged .bass).railStaged .treble) := by
  have bass := railStaged_frame .bass p
  have treble := railStaged_frame .treble (p.railStaged .bass)
  rw [bass.expression, bass.settings] at treble
  exact (bass.setHalf .treble _).trans treble

end

theorem railStaged_of_mode {p : Part} {h : Half} (mode : p.settings.railMode.get h ≠ .auto) : p.railStaged h = p :=
  if_pos mode

/-- The part with both shades moved, before the rail stages (R75). -/
def Part.glided (p : Part) : Part :=
  { p with expression :=
      { halves := { bass := tickHalf p.settings p.expression.halves.bass
                    treble := tickHalf p.settings p.expression.halves.treble }
        nextTick := p.now + 20 } }

theorem expressionTick_eq {p : Part} (running : p.feed.transport = .running) :
    expressionTick p = (p.glided.railStaged .bass).railStaged .treble := by
  rw [expressionTick, if_pos running, expressionTicks, autoRailStage_eq, autoRailStage_eq]
  rfl

/-- Settles O40: both halves move by the four stages, and then each rail stage takes its half. -/
theorem expressionTickGlides : Obligations.ExpressionTickGlides := by
  intro s on p after
  have run : exec .expressionTick s = .next (s.withPart (expressionTick p)) := whileOn_on on
  have stages : after = fun h => tickHalf p.settings (p.expression.halves.get h) :=
    funext fun h => (tickHalf_eq _ _).symm
  clear_value after
  subst stages
  rw [run]
  refine ⟨fun h => ?_, fun running => ?_⟩
  · rw [expressionTick, if_neg h]
  have frame := railsStaged_frame p.glided
  rw [← expressionTick_eq running] at frame
  refine ⟨⟨_, rfl, fun h => ?_, frame.feed, frame.ring, frame.tracks, frame.cues, frame.settings, frame.player⟩, ?_,
    fun modes => ?_⟩
  · change ((expressionTick p).expression.halves.get h).shade = _ ∧ ((expressionTick p).expression.halves.get h).swelled = _
      ∧ ((expressionTick p).expression.halves.get h).levels = _ ∧ ((expressionTick p).expression.halves.get h).autoUp = _
    rw [frame.expression]
    cases h <;> exact ⟨rfl, rfl, rfl, rfl⟩
  · rw [expressionTick_eq running]
    rfl
  · have bass : p.glided.railStaged .bass = p.glided := railStaged_of_mode (modes .bass)
    rw [expressionTick_eq running, bass, railStaged_of_mode (p := p.glided) (modes .treble)]
    rfl

end Sys2Proof.Machine
end

section
/-! PROOFS. A read of the status chain (R144, R145, R146). -/

namespace Sys2Proof.Machine

/-! ### Acts in any order, each on its own line -/

/-- Acts on different elements: each is taken from a part ready for it, brings about what it stands for, and leaves the
others ready, or done, as they are. -/
theorem inAnyOrder_each {α : Type} {act : α → Part → Part} {I : Part → Prop} {R A : α → Part → Prop} {as : List α}
    {p : Part} (nodup : as.Nodup) (start : I { p with choices := p.choices + (as.length - 1) })
    (ready : ∀ a ∈ as, R a { p with choices := p.choices + (as.length - 1) })
    (step : ∀ a ∈ as, ∀ q, I q → R a q → I (act a q) ∧ A a (act a q)
      ∧ ∀ b ∈ as, b ≠ a → (R b q → R b (act a q)) ∧ (A b q → A b (act a q))) :
    I (inAnyOrder as act p) ∧ ∀ a ∈ as, A a (inAnyOrder as act p) := by
  have fold : ∀ (bs : List α), (∀ b ∈ bs, b ∈ as) → bs.Nodup → ∀ q, I q → (∀ b ∈ bs, R b q) →
      I (bs.foldl (fun q a => act a q) q) ∧ (∀ b ∈ bs, A b (bs.foldl (fun q a => act a q) q))
        ∧ ∀ c ∈ as, c ∉ bs → A c q → A c (bs.foldl (fun q a => act a q) q) := by
    intro bs
    induction bs with
    | nil => exact fun _ _ q h _ => ⟨h, by simp, fun _ _ _ hc => hc⟩
    | cons b bs ih =>
      intro sub nd q h hr
      obtain ⟨apart, nd⟩ := List.nodup_cons.1 nd
      obtain ⟨h', done, keep⟩ := step b (sub b (.head bs)) q h (hr b (.head bs))
      obtain ⟨inv, each, others⟩ := ih (fun c hc => sub c (.tail b hc)) nd _ h' fun c hc =>
        (keep c (sub c (.tail b hc)) fun e => apart (e ▸ hc)).1 (hr c (.tail b hc))
      refine ⟨inv, fun c hc => ?_, fun c hc out hA => ?_⟩
      · rcases List.mem_cons.1 hc with rfl | hc
        · exact others c (sub c (.head bs)) apart done
        · exact each c hc
      · obtain ⟨ne, out⟩ := not_or.1 fun c => out (List.mem_cons.2 c)
        exact others c hc out ((keep c hc ne).2 hA)
  obtain ⟨inv, each, -⟩ := fold _ (fun b hb => mem_freeOrder.mp hb) ((freeOrder_perm _ _ _).nodup_iff.2 nodup) _ start
    fun b hb => ready b (mem_freeOrder.mp hb)
  exact ⟨inv, fun a ha => each a (mem_freeOrder.mpr ha)⟩

/-! ### The sets of faulty and resting lines -/

/-- The set of LINE_FAULT is the same. -/
def SameFaultSet (p q : Part) : Prop := q.notices.faultSet = p.notices.faultSet

/-- The sets of LINE_FAULT and LINE_RESTING. -/
def Notices.lineSets (n : Notices) : BitVec 91 × BitVec 88 := (n.faultSet, n.restingSet)

/-- Both sets of lines are the same. -/
def SameLineSets (p q : Part) : Prop := q.notices.lineSets = p.notices.lineSets

theorem SameLineSets.fault {p q : Part} (h : SameLineSets p q) : SameFaultSet p q := congrArg Prod.fst h

theorem SameLineSets.resting {p q : Part} (h : SameLineSets p q) : q.notices.restingSet = p.notices.restingSet :=
  congrArg Prod.snd h

section
variable {p : Part} {k : KeyNo} {d : Pedal}

theorem filed_lineSets (plan : Plan) (o : StrikeOutcome) (waited : Nat) (p : Part) :
    SameLineSets p (p.filed plan o waited) := by
  unfold Part.filed SameLineSets
  dsimp only
  split <;> rfl

theorem grant_lineSets (m : LineNo) (cost : Nat) (request : KickRequest) (short : Bool) (waited : Nat) (p : Part) :
    SameLineSets p (grant m cost request short waited p) := by
  unfold grant
  cases request with
  | strike plan =>
    dsimp only
    rw [endPlan_eq_filed]
    exact filed_lineSets _ _ _ (p.setPlace m _)
  | lift depth =>
    dsimp only
    split
    · rfl
    · exact congrArg Notices.lineSets (Part.setPedal_notices _ _ _)

theorem grantingPass_lineSets (p : Part) : SameLineSets p (grantingPass p) := by
  have pass : ∀ (w : List WaitEntry) (q : Part), SameLineSets q (grantFrom w q) := by
    intro w
    induction w with
    | nil => exact fun _ => rfl
    | cons e rest ih =>
      intro q
      unfold grantFrom
      split
      · exact (ih _).trans (grant_lineSets _ _ _ _ _ (q.setWait rest))
      · rfl
  exact pass _ p

theorem reportEnd_lineSets (m : LineNo) (p : Part) : SameLineSets p (reportEnd m p) := by
  unfold reportEnd
  split
  · rfl
  · exact grantingPass_lineSets _

theorem endPending_lineSets (k : KeyNo) (o : StrikeOutcome) (p : Part) : SameLineSets p (endPending k o p) := by
  unfold endPending
  split
  · rfl
  · rw [endPlan_eq_filed]
    exact filed_lineSets _ _ _ (p.setKey k _)

theorem cutKick_faultSet (k : KeyNo) (p : Part) : SameFaultSet p (cutKick k p) := by
  unfold cutKick gainHeat
  dsimp only
  split
  · split <;> rfl
  · rfl

theorem faultCuts_faultSet (k : KeyNo) (p : Part) : SameFaultSet p (faultCuts k p) := by
  unfold faultCuts
  split
  · unfold faultEntry
    split
    · split
      · rw [removeKeyEntry_eq]
        exact SameLineSets.fault ((grantingPass_lineSets _).trans (filed_lineSets _ _ _ _))
      · rfl
    · rfl
  · exact (SameLineSets.fault ((endPending_lineSets k _ _).trans (grantingPass_lineSets _))).trans (cutKick_faultSet k p)
  · exact (endPending_lineSets k _ p).fault
  all_goals rfl

/-- A fault puts its own line in the set, and takes none out. -/
theorem raiseLineFault_faultSet (m n : LineNo) (p : Part) :
    (raiseLineFault m p).notices.faultSet.getLsbD n.val = (p.notices.faultSet.getLsbD n.val || n == m) :=
  mem_or_one_shift p.notices.faultSet m n

/-! ### The fault of a key line -/

/-- The record of a key line that has taken a fault (R145). -/
def KeyLine.faultedBy (l : KeyLine) (kind : FaultKind) : KeyLine :=
  { l with
    state := .faulted
    queuedOrigin := none
    plan := none
    pending := none
    short := false
    holdDeadline := none
    guardDone := false
    drive := { l.drive with duty := none }
    fault := kind }

/-- What a fault report leaves of a key line that was not FAULTED (R145). -/
theorem faultKey_left (h : BudgetSound p) (kind : FaultKind) (hs : (p.key k).state ≠ .faulted) :
    let q := faultKey k kind p
    (∃ l : KeyLine, q.key k = l.faultedBy kind) ∧ q.arbiter.grants[keyLineNo k] = none ∧ ¬ q.hasEntry (keyLineNo k)
      ∧ ∀ n : LineNo, q.notices.faultSet.getLsbD n.val = (p.notices.faultSet.getLsbD n.val || n == keyLineNo k) := by
  have cuts := (faultCuts_reported (k := k) h.good).2.2.2
  have key : (faultKey k kind p).key k = ((faultCuts k p).key k).faultedBy kind := by
    rw [faultKey, if_neg hs]
    change (markFaulted k kind (faultCuts k p)).key k = _
    rw [markFaulted, Part.key_setKey_same, KeyLine.faultedBy, cuts, setDuty_none]
  have good := (faultKey_good (k := k) kind h.good).1
  have free := (good.key k).free (by rw [key]; exact nofun) (by rw [key]; exact nofun)
  refine ⟨⟨_, key⟩, free.1, free.2, fun n => ?_⟩
  rw [faultKey, if_neg hs, raiseLineFault_faultSet]
  exact congrArg (fun s : BitVec 91 => s.getLsbD n.val || n == keyLineNo k) (faultCuts_faultSet k p)

/-! ### The fault of a pedal line -/

/-- What a fault cuts on a pedal's line leaves its record as it is (R155). -/
theorem pedalFaulted_left (h : BudgetSound p) :
    ∃ cut : Part, pedalFaulted d p = cut.setPedal d
        { p.pedal d with
          state := .lowered, origin := none, dropMark := false, kickTimer := none, settleTimer := none, faulted := true }
      ∧ SameFaultSet p cut := by
  unfold pedalFaulted
  dsimp only
  split
  · next lifting =>
    have none_waits := h.no_pedal_entry (d := d) (by rw [lifting]; nofun)
    refine ⟨reportEnd (pedalLineNo d) p, ?_, (reportEnd_lineSets _ p).fault⟩
    rw [(reportEnd_reported h.good none_waits).pedal d none_waits]
  · next waiting =>
    refine ⟨withdrawLift d p, ?_, (grantingPass_lineSets _).fault⟩
    rw [withdrawLift_pedal h waiting]
  all_goals exact ⟨p, rfl, rfl⟩

/-- What a fault report leaves of a pedal whose fault was none (R146, R155). -/
theorem faultPedal_left (h : BudgetSound p) (kind : FaultKind) (hf : (p.pedal d).fault = .none) :
    let q := faultPedal d kind p
    (∃ r : PedalRecord, q.pedal d =
        { r with
          state := .lowered, origin := none, dropMark := false, kickTimer := none, settleTimer := none, faulted := true
          fault := kind, drive := { r.drive with duty := none } })
      ∧ q.arbiter.grants[pedalLineNo d] = none ∧ ¬ q.hasEntry (pedalLineNo d)
      ∧ ∀ n : LineNo, q.notices.faultSet.getLsbD n.val = (p.notices.faultSet.getLsbD n.val || n == pedalLineNo d) := by
  have driven : faultPedal d kind p = pedalFaulted d (raiseLineFault (pedalLineNo d)
      (p.setPedal d { p.pedal d with drive := { (p.pedal d).drive with duty := none }, fault := kind })) := by
    rw [faultPedal, if_neg (not_not.2 hf), PedalRecord.driven, setDuty_none]
  have sound := ((raiseLineFault_same (pedalLineNo d) _).good (setPedal_good (d := d)
    (r := { p.pedal d with drive := { (p.pedal d).drive with duty := none }, fault := kind }) h.good rfl rfl)).budget
  obtain ⟨cut, left, same⟩ := pedalFaulted_left (d := d) sound
  have record : (raiseLineFault (pedalLineNo d)
      (p.setPedal d { p.pedal d with drive := { (p.pedal d).drive with duty := none }, fault := kind })).pedal d
      = { p.pedal d with drive := { (p.pedal d).drive with duty := none }, fault := kind } := by
    cases d <;> rfl
  rw [record, ← driven] at left
  have key : (faultPedal d kind p).pedal d = _ := left ▸ Part.pedal_setPedal_same _ _ _
  have good := (faultPedal_good (d := d) kind h.good).1
  have free := (good.pedal d).free (by rw [key]; nofun) (by rw [key]; nofun)
  refine ⟨⟨p.pedal d, key⟩, free.1, free.2, fun n => ?_⟩
  rw [left, Part.setPedal_notices]
  refine (congrArg (fun s : BitVec 91 => s.getLsbD n.val) same).trans ?_
  rw [raiseLineFault_faultSet, Part.setPedal_notices]

end

end Sys2Proof.Machine
end

section
/-! PROOFS. Every line that a read of the status chain reports takes its fault, the lines in any order (R144 to R146). -/

namespace Sys2Proof.Machine

/-! ### A line before and after its report -/

/-- The line, not yet reported to, is FAULTED or has its fault kind as before the read. -/
structure Unreported (p q : Part) (m : LineNo) : Prop where
  faulted : ∀ k, m = keyLineNo k → (q.key k).state = .faulted → (p.key k).state = .faulted
  same : ∀ k, m = keyLineNo k → (p.key k).state = .faulted → q.key k = p.key k
  fault : ∀ d, m = pedalLineNo d → (q.pedal d).fault = (p.pedal d).fault

/-- A key line that has been reported faulty (R145). -/
structure KeyReported (kind : FaultKind) (p q : Part) (k : KeyNo) : Prop where
  state : (q.key k).state = .faulted
  plan : (q.key k).plan = none
  pending : (q.key k).pending = none
  grant : q.arbiter.grants[keyLineNo k] = none
  entry : ¬ q.hasEntry (keyLineNo k)
  before : (p.key k).state = .faulted → q.key k = p.key k
  taken : (p.key k).state ≠ .faulted → (q.key k).fault = kind ∧ (q.key k).drive.duty = none
    ∧ q.notices.faultSet.getLsbD (keyLineNo k).val = true

/-- A pedal line whose fault has been taken (R146, R155). -/
structure PedalDown (kind : FaultKind) (q : Part) (d : Pedal) : Prop where
  state : (q.pedal d).state = .lowered
  faulted : (q.pedal d).faulted = true
  fault : (q.pedal d).fault = kind
  duty : (q.pedal d).drive.duty = none
  dropMark : (q.pedal d).dropMark = false
  kick : (q.pedal d).kickTimer = none
  settle : (q.pedal d).settleTimer = none
  flag : q.notices.faultSet.getLsbD (pedalLineNo d).val = true
  grant : q.arbiter.grants[pedalLineNo d] = none
  entry : ¬ q.hasEntry (pedalLineNo d)

/-- The line, reported faulty, has taken its fault, or kept the one it had. -/
structure FaultTaken (kind : FaultKind) (p q : Part) (m : LineNo) : Prop where
  key : ∀ k, m = keyLineNo k → KeyReported kind p q k
  kept : ∀ d, m = pedalLineNo d → (p.pedal d).fault ≠ .none → (q.pedal d).fault = (p.pedal d).fault
  pedal : ∀ d, m = pedalLineNo d → (p.pedal d).fault = .none → PedalDown kind q d

section
variable {p q : Part} {kind : FaultKind}

/-- A FAULTED line has nothing in hand. -/
theorem keyReported_of_faulted (h : BudgetSound q) {k : KeyNo} (hs : (q.key k).state = .faulted)
    (before : (p.key k).state = .faulted → q.key k = p.key k)
    (taken : (p.key k).state ≠ .faulted → (q.key k).fault = kind ∧ (q.key k).drive.duty = none
      ∧ q.notices.faultSet.getLsbD (keyLineNo k).val = true) : KeyReported kind p q k := by
  obtain ⟨hkick, hqueued, hplan, hpending, -⟩ := h.key k
  refine ⟨hs, ?_, ?_, ?_, fun c => ?_, before, taken⟩
  · by_contra c
    rcases hplan.2 c with c | c <;> rw [hs] at c <;> cases c
  · by_contra c
    rcases hpending c with c | c <;> rw [hs] at c <;> cases c
  · by_contra c
    have := hkick.2 c
    rw [hs] at this
    cases this
  · have := hqueued.2 c
    rw [hs] at this
    cases this

/-- A line takes its report. -/
theorem reportFault_taken (h : BudgetSound q) {m : LineNo} (ready : Unreported p q m) :
    FaultTaken kind p (reportFault m kind q) m := by
  have good := (reportFault_good m kind h.good).budget
  rcases line_cases m with ⟨k, rfl⟩ | ⟨d, rfl⟩
  · refine ⟨fun j hj => ?_, fun d hd => absurd hd (keyLineNo_ne_pedalLineNo _ _),
      fun d hd => absurd hd (keyLineNo_ne_pedalLineNo _ _)⟩
    obtain rfl := keyLineNo_inj.1 hj
    have report : reportFault (keyLineNo k) kind q = faultKey k kind q := by rw [reportFault, lineKey_keyLineNo]
    rw [report] at good ⊢
    by_cases hs : (q.key k).state = .faulted
    · have still : faultKey k kind q = q := if_pos hs
      rw [still]
      exact keyReported_of_faulted h hs (ready.same k rfl) fun c => absurd (ready.faulted k rfl hs) c
    · obtain ⟨⟨l, hl⟩, -, -, flags⟩ := faultKey_left h kind hs
      refine keyReported_of_faulted good (by rw [hl]; rfl) (fun c => ?_) fun _ => ⟨by rw [hl]; rfl, by rw [hl]; rfl, ?_⟩
      · exact absurd (ready.same k rfl c ▸ c) hs
      · rw [flags]
        simp
  · refine ⟨fun k hk => absurd hk.symm (keyLineNo_ne_pedalLineNo _ _), fun e he hf => ?_, fun e he hf => ?_⟩
    all_goals
      obtain rfl := pedalLineNo_inj.1 he
      have report : reportFault (pedalLineNo d) kind q = faultPedal d kind q := by rw [reportFault, lineKey_pedalLineNo]
      rw [report]
      have same := ready.fault d rfl
    · have still : faultPedal d kind q = q := if_pos (by rw [same]; exact hf)
      rw [still, same]
    · obtain ⟨⟨r, hr⟩, place, gone, flags⟩ := faultPedal_left h kind (same.trans hf)
      have flag : (faultPedal d kind q).notices.faultSet.getLsbD (pedalLineNo d).val = true := by
        rw [flags]
        simp
      constructor
      all_goals first | assumption | (rw [hr])

/-- A line stands aside while another is reported to. -/
theorem reportFault_aside (h : BudgetSound q) (m : LineNo) : Aside (only m) q (reportFault m kind q) := by
  unfold reportFault
  rcases line_cases m with ⟨k, rfl⟩ | ⟨d, rfl⟩
  · rw [lineKey_keyLineNo]
    exact (faultKey_good kind h.good).2
  · rw [lineKey_pedalLineNo]
    exact (faultPedal_good kind h.good).2

/-- A report takes no line out of the set. -/
theorem reportFault_set (h : BudgetSound q) (m : LineNo) {n : LineNo} (hn : q.notices.faultSet.getLsbD n.val = true) :
    (reportFault m kind q).notices.faultSet.getLsbD n.val = true := by
  unfold reportFault
  rcases line_cases m with ⟨k, rfl⟩ | ⟨d, rfl⟩
  · rw [lineKey_keyLineNo]
    dsimp only
    by_cases hs : (q.key k).state = .faulted
    · rw [faultKey, if_pos hs]
      exact hn
    · rw [(faultKey_left h kind hs).2.2.2 n, hn, Bool.true_or]
  · rw [lineKey_pedalLineNo]
    dsimp only
    by_cases hf : (q.pedal d).fault = .none
    · rw [(faultPedal_left h kind hf).2.2.2 n, hn, Bool.true_or]
    · rw [faultPedal, if_pos hf]
      exact hn

theorem Unreported.after (h : BudgetSound q) {r : Part} {m n : LineNo} (ready : Unreported p q n)
    (aside : Aside (only m) q r) (ne : n ≠ m) : Unreported p r n where
  faulted k hk hs := ready.faulted k hk (aside.faulted k (hk ▸ ne) hs)
  same k hk hs := by
    have same := ready.same k hk hs
    have out : ¬ q.hasEntry n := hk ▸ h.no_key_entry (by rw [same, hs]; nofun)
    exact ((aside.still n ne out).key k hk).trans same
  fault d hd := (aside.fault d (hd ▸ ne)).trans (ready.fault d hd)

theorem FaultTaken.after {r : Part} {m n : LineNo} (taken : FaultTaken kind p q n) (aside : Aside (only m) q r) (ne : n ≠ m)
    (set : q.notices.faultSet.getLsbD n.val = true → r.notices.faultSet.getLsbD n.val = true) :
    FaultTaken kind p r n where
  key k hk := by
    subst hk
    obtain ⟨state, plan, pending, grant, entry, before, was⟩ := taken.key k rfl
    obtain ⟨entry', grant', key, -⟩ := aside.still _ ne entry
    have same := key k rfl
    rw [← same] at state plan pending before was
    exact ⟨state, plan, pending, grant'.trans grant, entry', before, fun c =>
      ⟨(was c).1, (was c).2.1, set (was c).2.2⟩⟩
  kept d hd hf := (aside.fault d (hd ▸ ne)).trans (taken.kept d hd hf)
  pedal d hd hf := by
    subst hd
    obtain ⟨state, faulted, fault, duty, dropMark, kick, settle, flag, grant, entry⟩ := taken.pedal d rfl hf
    obtain ⟨entry', grant', -, pedal⟩ := aside.still _ ne entry
    have same := pedal d rfl
    rw [← same] at state faulted fault duty dropMark kick settle
    exact ⟨state, faulted, fault, duty, dropMark, kick, settle, set flag, grant'.trans grant, entry'⟩

end

/-! ### The read -/

/-- The lines that a read reports. -/
def faultyLines (bits : BitVec 182) : List LineNo :=
  allLines.filter fun m => reportedKind bits m != .none

/-- The part with these reported kinds. -/
def Part.withReported (x : Vector FaultKind 91) (p : Part) : Part :=
  { p with drives := { p.drives with reported := x } }

theorem withReported_units (x : Vector FaultKind 91) (n : Nat) (p : Part) :
    SameUnits p { p.withReported x with choices := n } :=
  .of_eq rfl rfl rfl (fun _ => rfl) fun d => by cases d <;> rfl

theorem withReported_aside (x : Vector FaultKind 91) (n : Nat) (p : Part) (own : LineNo → Prop) :
    Aside own p { p.withReported x with choices := n } :=
  .of_eq rfl rfl (fun _ => rfl) fun d => by cases d <;> rfl

theorem withReported_unreported (x : Vector FaultKind 91) (n : Nat) (p : Part) (m : LineNo) :
    Unreported p { p.withReported x with choices := n } m :=
  ⟨fun _ _ => id, fun _ _ _ => rfl, fun d _ => by cases d <;> rfl⟩

/-- The part in which a read has replaced every reported kind (R144). -/
def Part.reporting (bits : BitVec 182) (p : Part) : Part :=
  p.withReported (Vector.ofFn (reportedKind bits))

theorem readChain_eq (bits : BitVec 182) (p : Part) :
    readChain bits p = inAnyOrder (faultyLines bits) (fun m => reportFault m (reportedKind bits m)) (p.reporting bits) := rfl

theorem mem_faultyLines {bits : BitVec 182} {m : LineNo} : m ∈ faultyLines bits ↔ reportedKind bits m ≠ .none := by
  rw [faultyLines, List.mem_filter, bne_iff_ne]
  exact and_iff_right (List.mem_finRange m)

/-- After a read every line reported faulty has taken its fault, and the others stand aside (R144 to R146). -/
theorem readChain_taken {p : Part} (h : BudgetSound p) (bits : BitVec 182) :
    Aside (fun m => reportedKind bits m ≠ .none) p (readChain bits p)
      ∧ ∀ m, reportedKind bits m ≠ .none → FaultTaken (reportedKind bits m) p (readChain bits p) m := by
  obtain ⟨⟨-, aside⟩, each⟩ := inAnyOrder_each (act := fun m => reportFault m (reportedKind bits m))
    (I := fun q => BudgetSound q ∧ Aside (fun m => reportedKind bits m ≠ .none) p q) (R := fun m q => Unreported p q m)
    (A := fun m q => FaultTaken (reportedKind bits m) p q m) (as := faultyLines bits) (p := p.reporting bits)
    ((List.nodup_finRange 91).filter _)
    ⟨((withReported_units _ _ p).good h.good).budget, withReported_aside _ _ p _⟩
    (fun m _ => withReported_unreported _ _ p m)
    fun m hm q hI ready => by
      obtain ⟨budget, aside⟩ := hI
      have own := reportFault_aside (kind := reportedKind bits m) budget m
      refine ⟨⟨(reportFault_good m _ budget.good).budget, aside.trans (own.mono fun n hn => ?_)⟩,
        reportFault_taken budget ready, fun n _ ne => ⟨fun r => r.after budget own ne, fun t => t.after own ne fun hn =>
          reportFault_set budget m hn⟩⟩
      rw [show n = m from hn]
      exact mem_faultyLines.1 hm
  exact ⟨aside, fun m hm => each m (mem_faultyLines.2 hm)⟩

/-- What a read replaces outside the lines (R144). -/
theorem readChain_frame (bits : BitVec 182) (p : Part) :
    ∃ x : Vector FaultKind 91, (∀ m : LineNo, x[m] = FaultKind.ofCode (chainPair bits m.val))
      ∧ LinesOnly (p.withReported x) (readChain bits p) :=
  ⟨_, fun m => Vector.getElem_ofFn m.isLt, inAnyOrder_keeps (P := LinesOnly (p.reporting bits)) (choices_frame _ _)
    fun m _ q hq => hq.trans (reportFault_frame m _ q)⟩

/-- The kind of a pair, 0 for none (R144). -/
theorem reportedKind_ne {bits : BitVec 182} {m : LineNo} : reportedKind bits m ≠ .none ↔ chainPair bits m.val ≠ 0 := by
  have small : chainPair bits m.val ≤ 3 := by
    have := (bits.getLsbD (2 * m.val)).toNat_le
    have := (bits.getLsbD (2 * m.val + 1)).toNat_le
    unfold chainPair
    omega
  unfold reportedKind
  generalize chainPair bits m.val = n at *
  interval_cases n <;> decide

theorem chainPair_zero (n : Nat) : chainPair 0 n = 0 := by
  simp [chainPair]

/-- A read that reports no fault (R144). -/
theorem readChain_zero (p : Part) : readChain 0 p = p.withReported (Vector.replicate 91 .none) := by
  have none_reported : ∀ m, reportedKind 0 m = .none := fun m => by
    rw [reportedKind, chainPair_zero]
    rfl
  have none_faulty : faultyLines 0 = [] := by
    refine List.filter_eq_nil_iff.2 fun m _ => ?_
    rw [none_reported m]
    decide
  have all : Vector.ofFn (reportedKind 0) = Vector.replicate 91 .none :=
    Vector.ext fun i hi => by rw [Vector.getElem_ofFn, Vector.getElem_replicate, none_reported]
  rw [readChain_eq, none_faulty, inAnyOrder_nil, Part.reporting, all]

/-- Settles O42: the pairs name the lines that take a fault, and each takes its own, whatever the order. -/
theorem chainReadFaults : Obligations.ChainReadFaults := by
  intro s bits on
  have run : exec (.statusChainRead bits) s = .next (s.withPart (readChain bits s.part)) := whileOn_on on
  dsimp only
  rw [run]
  obtain ⟨x, kinds, frame⟩ := readChain_frame bits s.part
  refine ⟨fun zero => ?_, fun h => ?_⟩
  · rw [zero, readChain_zero]
    rfl
  · obtain ⟨aside, taken⟩ := readChain_taken h bits
    generalize readChain bits s.part = t at *
    refine ⟨s.withPart t, rfl, rfl, fun m => ?_, fun k hk => ?_, fun d hd => ?_, fun k hk hs => ?_, frame.feed, frame.ring,
      frame.tracks, frame.settings, frame.expression, frame.player⟩
    · refine ((congrArg (fun v : Vector FaultKind 91 => v[m]) frame.reported).trans
        (kinds m)).trans ?_
      unfold FaultKind.ofCode chainPair
      generalize (bits.getLsbD (2 * m.val)).toNat + 2 * (bits.getLsbD (2 * m.val + 1)).toNat = n
      rfl
    · obtain ⟨state, plan, pending, grant, entry, before, was⟩ := (taken _ (reportedKind_ne.2 hk)).key k rfl
      exact ⟨state, plan, pending, before, was, grant, entry⟩
    · have line := taken _ (reportedKind_ne.2 hd)
      refine ⟨line.kept d rfl, fun hf => ?_⟩
      obtain ⟨state, faulted, fault, duty, dropMark, kick, settle, flag, grant, entry⟩ := line.pedal d rfl hf
      exact ⟨state, faulted, fault, duty, dropMark, kick, settle, flag, grant, entry⟩
    · have out : ¬ reportedKind bits (keyLineNo k) ≠ .none := fun c => reportedKind_ne.1 c hk
      exact (aside.still _ out (h.no_key_entry hs)).key k rfl

end Sys2Proof.Machine
end

section
/-! PROOFS. STRIKE KEY (R92 to R97, R101, R102). -/

namespace Sys2Proof.Machine

theorem rowOf_strikeKey {f : Frame} (h : f.kind = 0x30) : rowOf f = .strikeKey := by
  simp [rowOf, h]

theorem exec_strikeKey {s : State} {f : Frame} (h : s.part.MayTake f) (hk : f.kind = 0x30) :
    exec .strikeKey s = .next (s.withPart
      ((strikeKey f.payload s.part).2.replied f (strikeKey f.payload s.part).1)) :=
  takeRequest_answer h (rowOf_strikeKey hk)

/-- A STRIKE KEY that answers `code` alone is a refusal. -/
theorem refuses_strike {s : State} {f : Frame} {code : Byte} (h : s.part.MayTake f) (hk : f.kind = 0x30)
    (e : strikeKey f.payload s.part = ([code], s.part)) : Refuses .strikeKey s f code := by
  rw [Refuses, exec_strikeKey h hk, e]

theorem completes_strike {s : State} {f : Frame} {bs : List Byte} {q : Part} (h : s.part.MayTake f) (hk : f.kind = 0x30)
    (e : strikeKey f.payload s.part = (bs, q)) : Completes .strikeKey s f q bs := by
  rw [Completes, exec_strikeKey h hk, e]

section
variable {p : Part} {k : KeyNo} {payload : List Byte}

theorem strikeKey_admitted (hl : payload.length = 5) (hp : p.inPlay = false) (hk : byteAt payload 0 = k.val)
    (hs : fieldAt payload 1 2 ≤ 1023) :
    strikeKey payload p = strikeNow k (fieldAt payload 1 2) (fieldAt payload 3 2) p := by
  unfold strikeKey StrikeRequest.read
  dsimp only
  rw [if_neg (not_not.2 hl), hp, if_neg Bool.false_ne_true, hk, below_val]
  exact if_pos hs

theorem strikeKey_range (hl : payload.length = 5) (hp : p.inPlay = false)
    (hr : 87 < byteAt payload 0 ∨ 1023 < fieldAt payload 1 2) : strikeKey payload p = ([4], p) := by
  unfold strikeKey StrikeRequest.read
  dsimp only
  rw [if_neg (not_not.2 hl), hp, if_neg Bool.false_ne_true]
  split
  · next key hk =>
    rw [if_neg]
    · rfl
    · have := of_below_eq_some hk
      have := key.isLt
      omega
  · rfl

/-- The plan of a direct onset takes neither accent nor lift, and has the host's hold time (R93, R97, R101). -/
theorem strikeReply_planned (changed : Prop) [Decidable changed] (hold : Nat) (plan : Plan) :
    strikeReply (if changed then .clamped else .ok) hold none plan
      = [if changed then 1 else 0] ++ littleEndian 2 hold ++ [0] ++ littleEndian 2 plan.shade ++ littleEndian 2 plan.kick
        ++ [BitVec.ofNat 8 (2 * plan.flags.clamped.toNat + 4 * plan.flags.derated.toNat)] := by
  unfold strikeReply
  cases plan.flags.clamped <;> cases plan.flags.derated <;> split <;> rfl

theorem strikeReply_dropped (changed : Prop) [Decidable changed] (hold : Nat) (outcome : StrikeOutcome) (o : Onset)
    (ho : outcome = .faulted ∨ outcome = .resting) (ha : o.accent = false) :
    strikeReply (if changed then .clamped else .ok) hold (some outcome) (droppedPlan o p)
      = [if changed then 1 else 0] ++ littleEndian 2 hold ++ [if outcome = .faulted then 4 else 5]
        ++ littleEndian 2 o.shade ++ littleEndian 2 0 ++ [0] := by
  unfold strikeReply droppedPlan accentedShade
  rw [ha]
  rcases ho with rfl | rfl <;> split <;> rfl

theorem dropOutcome_none (hs : (p.key k).state ≠ .faulted) (hr : (p.key k).resting = false) : dropOutcome k p = none := by
  rw [dropOutcome, if_neg hs, hr]
  rfl

/-- The drop of an onset whose line is FAULTED or rests (R92). -/
theorem takeOnset_dropped {o : Onset} {outcome : StrikeOutcome}
    (h : ((p.key o.key).state = .faulted ∧ outcome = .faulted)
      ∨ ((p.key o.key).state ≠ .faulted ∧ (p.key o.key).resting = true ∧ outcome = .resting)) :
    dropOutcome o.key p = some outcome ∧ takeOnset o p = p.filed (droppedPlan o p) outcome 0 := by
  rcases h with ⟨hs, rfl⟩ | ⟨hs, hr, rfl⟩
  · exact ⟨if_pos hs, takeOnset_faulted hs⟩
  · exact ⟨(if_neg hs).trans (if_pos hr), takeOnset_resting hs hr⟩

theorem filed_key (plan : Plan) (o : StrikeOutcome) (waited : Nat) (k : KeyNo) : (p.filed plan o waited).key k = p.key k := by
  unfold Part.filed
  dsimp only
  split <;> rfl

/-- The line of an onset that was IDLE or QUEUED is struck, waits, or was turned away by a full list (R113). -/
theorem takeOnset_line {o : Onset} (h : BudgetSound p) (hs : (p.key o.key).state = .idle ∨ (p.key o.key).state = .queued)
    (hr : (p.key o.key).resting = false) :
    ((takeOnset o p).key o.key).state = .kick ∨ ((takeOnset o p).key o.key).state = .queued
      ∨ (((takeOnset o p).key o.key).state = .idle ∧ (p.key o.key).state = .idle ∧ p.arbiter.wait.length = 32) := by
  obtain ⟨-, -, idle, -, -, queued⟩ := takeOnset_taken h o
  rcases hs with hs | hs
  · rcases (idle hr hs).line h.wait with kicked | waits | ⟨away, full⟩
    · exact .inl (congrArg KeyLine.state kicked)
    · exact .inr (.inl (congrArg KeyLine.state waits))
    · exact .inr (.inr ⟨congrArg KeyLine.state away, hs, full⟩)
  · obtain ⟨e, he, hl⟩ := (h.key o.key).2.1.1 hs
    obtain ⟨old, request, -⟩ := (h.wait.2.2.2.1 e he).strike_of_key hl
    obtain ⟨stays, grows⟩ := queued e he old hr hs hl request
    by_cases c : p.arbiter.wait.head? ≠ some e ∨ e.cost = (p.planned o).cost
        ∨ p.settings.budgetUnits < (p.planned o).cost + p.arbiter.unitsInUse
    · rw [stays c, filed_key, Part.key_setKey_same]
      exact .inr (.inl hs)
    · exact .inl (grows c).1

end

/-- Settles O44: an onset is taken as its line's state gives, and a direct one is the plan that the reply tells. -/
theorem keyStruck : Obligations.KeyStruck := by
  refine ⟨fun o p h => takeOnset_taken h o, fun s f hf hk => ?_⟩
  intro p shade asked
  refine ⟨fun hl => ?_, fun hl play => ?_, fun hl play range => ?_, fun k hl play key range => ?_⟩
  · exact refuses_strike hf hk (if_pos hl)
  · refine refuses_strike hf hk ?_
    rw [strikeKey, if_neg (not_not.2 hl), if_pos play]
    rfl
  · exact refuses_strike hf hk (strikeKey_range hl play range)
  intro l v hold result half rail x bent spread railed factor shaped kick flags plan record filed told bare
  let o := directOnset k .direct shade hold p
  have short : decide (some hold = some 0) = (hold == 0) := by
    rw [Bool.eq_iff_iff, decide_eq_true_iff, beq_iff_eq, Option.some_inj]
  have planned : p.planned o = plan :=
    congrArg (fun b => ({ plan with flags := { flags with short := b } } : Plan)) short
  have strikes : strikeKey f.payload p
      = (strikeReply (if hold < asked then .clamped else .ok) hold (dropOutcome o.key p) (onsetPlan o p), takeOnset o p) :=
    strikeKey_admitted hl play key range
  have awake : l.state ≠ .faulted → l.resting = false →
      strikeKey f.payload p = (told, newPlan plan p) := fun hs hr => by
    have bare : dropOutcome o.key p = none := dropOutcome_none hs hr
    have made : onsetPlan o p = plan := by rw [onsetPlan, bare, ← planned, ← planOf_eq]
    rw [strikes, bare, made, takeOnset_awake hs hr, strikeReply_planned, planned]
  have wakes : ∀ {st : KeyState}, l.state = st → st ≠ .faulted → l.state ≠ .faulted := fun h c => h ▸ c
  refine ⟨fun outcome drop => ?_, fun hs hr hw fits => ?_, fun hs hr hp => ?_, fun hs hr hp => ?_,
    fun hs hr h => ?_⟩
  · obtain ⟨named, taken⟩ := takeOnset_dropped (o := o) drop
    refine completes_strike hf hk ?_
    have made : onsetPlan o p = droppedPlan o p := by rw [onsetPlan, named]
    have either : outcome = .faulted ∨ outcome = .resting := drop.imp (·.2) (·.2.2)
    rw [strikes, named, made, taken, strikeReply_dropped _ _ _ _ either rfl]
    rcases either with rfl | rfl <;> rfl
  · refine completes_strike hf hk ((awake (wakes hs nofun) hr).trans (congrArg (Prod.mk told) ?_))
    exact (newPlan_idle (waitSound_of_nil hw) hs).1 ⟨fun e he => absurd (hw ▸ he) List.not_mem_nil, fits⟩
  · refine completes_strike hf hk ((awake (by rcases hs with hs | hs <;> exact wakes hs nofun) hr).trans
      (congrArg (Prod.mk told) ?_))
    rw [newPlan_held hs]
    exact (holdPending_taken plan p).1 hp
  · refine completes_strike hf hk ((awake (wakes hs nofun) hr).trans (congrArg (Prod.mk told) ?_))
    exact newPlan_hold hs hp
  · have line := takeOnset_line (o := o) h hs hr
    have taken := takeOnset_awake (o := o) (by rcases hs with hs | hs <;> exact wakes hs nofun) hr
    rw [planned] at taken
    have frame := takeOnset_frame o p
    rw [taken] at line frame
    exact ⟨_, completes_strike hf hk (awake (by rcases hs with hs | hs <;> exact wakes hs nofun) hr), frame.feed,
      frame.settings, line⟩

end Sys2Proof.Machine
end

section
/-! PROOFS. The pattern player (R104, R105). -/

namespace Sys2Proof.Machine

/-! ### The steps of a pattern -/

theorem pairsOf_eq (n : Nat) (bs : List Byte) (h : bs.length = 2 * n) :
    pairsOf bs = (List.range n).map fun i => byteAt bs (2 * i) + 256 * byteAt bs (2 * i + 1) := by
  induction n generalizing bs with
  | zero =>
    obtain rfl := List.eq_nil_of_length_eq_zero h
    rfl
  | succ n ih =>
    obtain _ | ⟨a, _ | ⟨b, rest⟩⟩ := bs
    · cases h
    · simp only [List.length_cons, List.length_nil] at h
      omega
    · have tail : rest.length = 2 * n := by
        simp only [List.length_cons] at h
        omega
      rw [pairsOf, ih rest tail, List.range_succ_eq_map, List.map_cons, List.map_map]
      rfl

section
variable {payload : List Byte}

/-- The steps that a PLAY PATTERN carries (section 10.6). -/
theorem patternSteps (h : payload.length = 5 + 2 * byteAt payload 4) :
    (PatternRequest.read payload).steps = (List.range (byteAt payload 4)).map fun i =>
      byteAt payload (5 + 2 * i) + 256 * byteAt payload (6 + 2 * i) := by
  have drop : (payload.drop 5).length = 2 * byteAt payload 4 := by
    rw [List.length_drop]
    omega
  refine (pairsOf_eq _ _ drop).trans (List.map_congr_left fun i _ => ?_)
  rw [byteAt_drop, byteAt_drop, Nat.add_comm (2 * i), ← Nat.add_assoc]

/-- PLAY PATTERN is legal when its time, its count and each of its steps are (R104). -/
theorem patternLegal_iff (h : payload.length = 5 + 2 * byteAt payload 4) :
    (PatternRequest.read payload).legal = true ↔
      (20 ≤ fieldAt payload 1 2 ∧ fieldAt payload 1 2 ≤ 2000) ∧ (1 ≤ byteAt payload 4 ∧ byteAt payload 4 ≤ 16)
        ∧ ∀ i, i < byteAt payload 4 → byteAt payload (5 + 2 * i) + 256 * byteAt payload (6 + 2 * i) ≤ 1023
          ∨ byteAt payload (5 + 2 * i) + 256 * byteAt payload (6 + 2 * i) = 65535 := by
  rw [PatternRequest.legal, patternSteps h]
  simp only [Bool.and_eq_true, decide_eq_true_eq, List.all_eq_true, List.mem_map, List.mem_range, Bool.or_eq_true,
    beq_iff_eq, forall_exists_index, and_imp, forall_apply_eq_imp_iff₂, and_assoc]
  rfl

/-! ### A step -/

variable {p : Part} {a : Pattern} {i : Nat}

theorem takePatternStep_eq (hp : p.player = some a) (hi : a.current = some i) :
    takePatternStep p = { takePatternOnset a i p with player := some (a.advance i p.now) } := by
  unfold takePatternStep
  simp only [hp, hi]

/-- The player after a step (R105). -/
theorem advance_eq (a : Pattern) (i : Nat) (now : Time) :
    a.advance i now =
      { (if i + 1 < a.steps.length then { a with current := some (i + 1) }
         else
          { a with
            repeats := min (a.repeats + 1) 255
            current := if a.repeatCount = 0 ∨ min (a.repeats + 1) 255 < a.repeatCount then some 0 else none }) with
        stepsTaken := min (a.stepsTaken + 1) 65535, timerStarted := now } := by
  unfold Pattern.advance
  dsimp only
  split
  · rfl
  · split <;> rfl

theorem flagByte_isSome (o : Option Pattern) : flagByte o.isSome = if o = none then 0 else 1 := by
  cases o <;> rfl

theorem takePatternStep_still (h : ∀ a i, p.player = some a → a.current ≠ some i) : takePatternStep p = p := by
  unfold takePatternStep
  split
  · rfl
  · next a ha =>
    split
    · rfl
    · next i hi => exact absurd hi (h a i ha)

/-- A REST is no onset. -/
theorem takePatternOnset_rest (h : a.steps.getD i none = none) : takePatternOnset a i p = p := by
  rw [takePatternOnset, h]

theorem takePatternOnset_shade {shade : Nat} (h : a.steps.getD i none = some shade) :
    takePatternOnset a i p = takeOnset
      { key := a.key, half := if a.key.val < p.settings.splitKey then .bass else .treble, origin := .pattern,
        onsetRow := none, shade := shade, accent := false, holdTime := some (a.stepTime / 2) } p := by
  rw [takePatternOnset, h]
  rfl

end

/-! ### PLAY PATTERN -/

theorem rowOf_playPattern {f : Frame} (h : f.kind = 0x31) : rowOf f = .playPattern := by
  simp [rowOf, h]

theorem exec_playPattern {s : State} {f : Frame} (h : s.part.MayTake f) (hk : f.kind = 0x31) :
    exec .playPattern s = .next (s.withPart
      ((playPattern f.payload s.part).2.replied f (playPattern f.payload s.part).1)) :=
  takeRequest_answer h (rowOf_playPattern hk)

theorem completes_pattern {s : State} {f : Frame} {bs : List Byte} {q : Part} (h : s.part.MayTake f) (hk : f.kind = 0x31)
    (e : playPattern f.payload s.part = (bs, q)) : Completes .playPattern s f q bs := by
  rw [Completes, exec_playPattern h hk, e]

section
variable {payload : List Byte} {p : Part}

theorem pattern_fits_iff :
    (PatternRequest.read payload).fits payload = true ↔ 5 ≤ payload.length ∧ payload.length = 5 + 2 * byteAt payload 4 := by
  rw [PatternRequest.fits, Bool.and_eq_true, decide_eq_true_iff, beq_iff_eq]
  rfl

/-- Past LENGTH and STATE, PLAY PATTERN goes by its fields. -/
theorem playPattern_fields (fits : 5 ≤ payload.length ∧ payload.length = 5 + 2 * byteAt payload 4)
    (stopped : p.inPlay = false) :
    playPattern payload p =
      match below 88 (byteAt payload 0) with
      | some key =>
        if (PatternRequest.read payload).legal then
          (Result.ok.bytes ++ [flagByte p.player.isSome],
            takePatternStep { cancelPlayer p with player := some (newPattern key (PatternRequest.read payload) p.now) })
        else (Result.range.bytes, p)
      | none => (Result.range.bytes, p) := by
  unfold playPattern
  dsimp only
  rw [pattern_fits_iff.2 fits, stopped]
  rfl

end

/-- Settles O46: an admitted pattern takes step 0 at once, and a step is its onset and the player's move. -/
theorem patternPlayed : Obligations.PatternPlayed := by
  refine ⟨fun s f hf hk => ?_, fun s on => ?_⟩
  · intro p n step legal fits
    have steps_legal : fits → byteAt f.payload 0 ≤ 87 → ((PatternRequest.read f.payload).legal = true ↔ legal) :=
      fun h hk => (patternLegal_iff h.2).trans (and_iff_right hk).symm
    refine ⟨fun h => ?_, fun h play => ?_, fun h play range => ?_, fun k h play ok key => ?_⟩
    · refine completes_pattern hf hk ?_
      rw [playPattern, Bool.eq_false_iff.2 (mt pattern_fits_iff.1 h)]
      rfl
    · refine completes_pattern hf hk ?_
      rw [playPattern, pattern_fits_iff.2 h, if_pos play]
      rfl
    · refine completes_pattern hf hk ((playPattern_fields h play).trans ?_)
      split
      · next key hkey =>
        have known : byteAt f.payload 0 ≤ 87 := by
          rw [of_below_eq_some hkey]
          omega
        rw [if_neg (mt (steps_legal h known).1 range)]
        rfl
      · rfl
    · intro started
      have known : byteAt f.payload 0 ≤ 87 := by omega
      have begun : newPattern k (PatternRequest.read f.payload) p.now = started := by
        rw [newPattern, patternSteps h.2, List.map_map]
        rfl
      have played : playPattern f.payload p
          = ([0, if p.player = none then 0 else 1], takePatternStep { p with player := some started }) := by
        rw [playPattern_fields h play, key, below_val]
        dsimp only
        rw [if_pos ((steps_legal h known).2 ok), begun, flagByte_isSome]
        rfl
      have count : started.steps.length = n := by
        rw [List.length_map, List.length_range]
      have first : started.steps.getD 0 none = if step 0 = 65535 then none else some (step 0) := by
        have some_step : 0 < n := ok.2.2.1.1
        rw [List.getD_eq_getElem _ _ (count ▸ some_step), List.getElem_map, List.getElem_range]
      have taken : takePatternStep { p with player := some started }
          = { takePatternOnset started 0 { p with player := some started } with
              player := some (started.advance 0 p.now) } := takePatternStep_eq rfl rfl
      rw [advance_eq, count] at taken
      refine ⟨_, completes_pattern hf hk played, ?_⟩
      rw [taken]
      refine ⟨fun rest => ?_, fun shade => ?_, fun more => ?_, fun one again => ?_, fun one once => ?_⟩
      · rw [takePatternOnset_rest (by rw [first, if_pos rest])]
      · rw [takePatternOnset_shade (by rw [first, if_neg shade])]
      · dsimp only
        rw [if_pos (by omega)]
        rfl
      · dsimp only
        rw [if_neg (by omega), if_pos (by change byteAt f.payload 3 = 0 ∨ 1 < byteAt f.payload 3; omega)]
        rfl
      · dsimp only
        rw [if_neg (by omega), if_neg (by change ¬ (byteAt f.payload 3 = 0 ∨ 1 < byteAt f.payload 3); omega)]
        rfl
  · have steps : exec .patternStep s = .next (s.withPart (takePatternStep s.part)) := whileOn_on on
    have ends : exec .patternEnd s = .next (s.withPart (endPattern s.part)) := whileOn_on on
    rw [steps, ends]
    refine ⟨fun still => ?_, fun a ha rest => ?_, fun still => ?_, fun a i ha hi => ?_⟩
    · rw [takePatternStep_still still]
      rfl
    · rw [endPattern, ha]
      dsimp only
      rw [if_pos rest]
      rfl
    · have same : endPattern s.part = s.part := by
        unfold endPattern
        split
        · next a ha => exact if_neg (still a ha)
        · rfl
      rw [same]
      rfl
    · dsimp only
      rw [takePatternStep_eq ha hi, advance_eq]
      exact ⟨fun rest => by rw [takePatternOnset_rest rest], fun shade h => by rw [takePatternOnset_shade h]⟩

end Sys2Proof.Machine
end

section
/-! PROOFS. A write of a rail mode (R84, R150, R152, R158). -/

namespace Sys2Proof.Machine

section
variable {p q : Part} {d : Pedal} {depth : Depth} {origin : WaitOrigin}

/-! ### A lift that has been asked for -/

/-- The pedal of a lift that has been asked for is lifted, or waits with its entry (R112). -/
theorem LiftRequested.line (h : LiftRequested d depth origin p q) (hw : WaitSound p) :
    (q.pedal d).state = .lifting
      ∨ ((q.pedal d).state = .waiting ∧ ∃ e ∈ q.arbiter.wait,
          e.line = pedalLineNo d ∧ e.priority = 0 ∧ e.cost = (p.settings.ofPedal d).1) := by
  obtain ⟨granted, joins, full⟩ := h
  by_cases now : p.headFor 0 ∧ (p.settings.ofPedal d).1 + p.arbiter.unitsInUse ≤ p.settings.budgetUnits
  · rw [granted now, Part.pedal_setPedal_same]
    exact .inl rfl
  · refine .inr ?_
    rcases Nat.lt_or_ge p.arbiter.wait.length 32 with room | all
    · rw [joins now room, Part.pedal_setPedal_same, Part.setPedal_arbiter]
      exact ⟨rfl, _, mem_joined.2 (.inl rfl), rfl, rfl, rfl⟩
    · obtain ⟨all, last, victim, hl, hv⟩ := full_last hw all
      rw [full last victim now all hl hv, Part.pedal_setPedal_same, Part.setPedal_arbiter]
      exact ⟨rfl, _, mem_joined.2 (.inl rfl), rfl, rfl, rfl⟩

/-- A drop of a WAITING pedal withdraws its entry, and the pedal is down or on its way (R152). -/
theorem DropTaken.withdrawn (h : DropTaken d p q) (hs : (p.pedal d).state = .waiting) :
    ((q.pedal d).state = .lowered ∨ (q.pedal d).state = .dropping) ∧ ¬ q.hasEntry (pedalLineNo d)
      ∧ q.arbiter.withdrawals = min (p.arbiter.withdrawals + 1) 4294967295 := by
  unfold DropTaken at h
  dsimp only at h
  rw [hs] at h
  obtain ⟨back, gone, count, -⟩ := h
  refine ⟨?_, gone, count⟩
  rw [back]
  split
  · exact .inr rfl
  · exact .inr rfl
  · exact .inl rfl

/-! ### A lift of a rail -/

variable {half : Half}

theorem liftDepth_railOf (half : Half) (r : PedalRecord) : liftDepth (railOf half) r depth = r.depth := by
  cases half <;> rfl

/-- A rail that is up, or waits to be, stays as it is. -/
theorem liftRail_stays (hs : (p.pedal (railOf half)).state = .raised ∨ (p.pedal (railOf half)).state = .waiting) :
    liftPedal (railOf half) depth p = p := by
  unfold liftPedal
  simp only [liftDepth_railOf]
  rcases hs with hs | hs <;> simp [hs]

theorem liftRail_lifting (hs : (p.pedal (railOf half)).state = .lifting) :
    liftPedal (railOf half) depth p = p.setPedal (railOf half) { p.pedal (railOf half) with dropMark := false } := by
  unfold liftPedal
  simp only [liftDepth_railOf, hs]

theorem liftRail_faulted (hs : (p.pedal (railOf half)).state = .lowered) (hf : (p.pedal (railOf half)).faulted = true) :
    liftPedal (railOf half) depth p = { p with arbiter := { p.arbiter with
        withdrawals := min (p.arbiter.withdrawals + 1) 4294967295 } } := by
  unfold liftPedal
  simp only [hs, hf, if_true]
  rfl

/-- A rail that is down asks for its lift. -/
theorem liftRail_requested (hw : WaitSound p)
    (hs : ((p.pedal (railOf half)).state = .lowered ∧ (p.pedal (railOf half)).faulted = false)
      ∨ (p.pedal (railOf half)).state = .dropping) :
    ∃ origin, LiftRequested (railOf half) (p.pedal (railOf half)).depth origin p (liftPedal (railOf half) depth p) := by
  have requested := fun origin => beginWait_requested (railOf half) origin depth p hw
  simp only [liftDepth_railOf] at requested
  rcases hs with ⟨hs, hf⟩ | hs
  · refine ⟨.lowered, ?_⟩
    have : liftPedal (railOf half) depth p = beginWait (railOf half) .lowered depth p := by
      unfold liftPedal
      simp only [hs, hf, Bool.false_eq_true, if_false]
    rw [this]
    exact requested _
  · refine ⟨.dropping, ?_⟩
    have : liftPedal (railOf half) depth p = beginWait (railOf half) .dropping depth p := by
      unfold liftPedal
      simp only [hs]
    rw [this]
    exact requested _

/-- A rail whose lift finds nothing waiting and its units free is lifted at once (R112). -/
theorem LiftRequested.rail (h : LiftRequested (railOf half) depth origin p q) (hw : p.arbiter.wait = [])
    (fits : p.settings.railCost + p.arbiter.unitsInUse ≤ p.settings.budgetUnits) :
    q = ({ p with arbiter := { p.arbiter with
          grants := p.arbiter.grants.set (pedalLineNo (railOf half)) (some p.settings.railCost) } } : Part).setPedal
        (railOf half)
        { p.pedal (railOf half) with
          state := .lifting
          depth := depth
          origin := none
          settleTimer := none
          kickTimer := some { started := p.now, length := p.settings.railKick }
          drive := (p.pedal (railOf half)).drive.setDuty p.settings.pwmBase p.now (some p.settings.railKickDuty) } := by
  have head : p.headFor 0 := fun e he => absurd (hw ▸ he) List.not_mem_nil
  cases half <;> exact h.1 ⟨head, fits⟩

end

/-! ### The move of a mode -/

/-- The move that a rail mode asks for as it is written, if it asks for one (R84, R158). -/
def Part.modeAsks (p : Part) (h : Half) (m : RailMode) : Option Bool :=
  match m with
  | .up => some true
  | .down => some false
  | .roll => some (p.inPlay && p.pedals.softLevel)
  | .auto =>
    if p.inPlay = false then some false
    else if (p.expression.halves.get h).shade < p.settings.railOn then some true
    else if p.settings.railOff < (p.expression.halves.get h).shade then some false
    else none

/-- The part with a rail mode stored, and the demand of AUTO with it. -/
def Part.modeStored (p : Part) (h : Half) (m : RailMode) : Part :=
  ({ p with settings := { p.settings with railMode := p.settings.railMode.set h m } } : Part).setHalf h
    { p.expression.halves.get h with
      autoUp := if m = .auto then (p.modeAsks h m).getD (p.expression.halves.get h).autoUp
        else (p.expression.halves.get h).autoUp }

section
variable {p : Part} {h : Half} {m : RailMode}

theorem Part.setHalf_self (p : Part) (h : Half) : p.setHalf h (p.expression.halves.get h) = p := by
  rw [Part.setHalf, PerHalf.set_get]

/-- A rail mode that is written asks for the move of its table (R84, R158). -/
theorem handRailMode_eq (p : Part) (h : Half) (m : RailMode) :
    handRailMode h (p.withSettings fun t => { t with railMode := t.railMode.set h m })
      = match p.modeAsks h m with
        | none => p.modeStored h m
        | some up => (p.modeStored h m).railAsked h up := by
  generalize hq : p.withSettings (fun t => { t with railMode := t.railMode.set h m }) = q
  have half : q.expression.halves.get h = p.expression.halves.get h := by rw [← hq]; rfl
  have mode : q.settings.railMode.get h = m := by
    rw [← hq]
    exact PerHalf.get_set_same _ _ _
  have kept : q.setHalf h (p.expression.halves.get h) = q := by rw [← half, Part.setHalf_self]
  have play : q.inPlay = p.inPlay := by rw [← hq]; rfl
  have soft : q.pedals.softLevel = p.pedals.softLevel := by rw [← hq]; rfl
  have stored : p.modeStored h m = q.setHalf h
      { p.expression.halves.get h with
        autoUp := if m = .auto then (p.modeAsks h m).getD (p.expression.halves.get h).autoUp
          else (p.expression.halves.get h).autoUp } := by rw [← hq]; rfl
  have limits : q.settings.railOn = p.settings.railOn ∧ q.settings.railOff = p.settings.railOff := by
    rw [← hq]; exact ⟨rfl, rfl⟩
  unfold handRailMode
  rw [mode, stored]
  cases m with
  | up => simp only [Part.modeAsks, reduceCtorEq, if_false, kept]; rfl
  | down => simp only [Part.modeAsks, reduceCtorEq, if_false, kept]; rfl
  | roll => simp only [Part.modeAsks, reduceCtorEq, if_false, kept, play, soft]; rfl
  | auto =>
    simp only [Part.modeAsks, if_true, play, railStage, half, limits]
    by_cases stopped : p.inPlay = false
    · simp only [stopped, if_true, Bool.false_eq_true, if_false, Option.getD_some, Part.setAutoUp, half]
      rfl
    · rw [if_neg stopped, if_pos (Bool.not_eq_false _ ▸ stopped)]
      by_cases low : (p.expression.halves.get h).shade < p.settings.railOn
      · simp only [low, if_true, Option.getD_some, Part.setAutoUp, half]
        rfl
      · by_cases high : p.settings.railOff < (p.expression.halves.get h).shade
        · simp only [low, high, if_true, if_false, Option.getD_some, Part.setAutoUp, half]
          rfl
        · simp only [low, high, if_false, Option.getD_none, kept]

@[simp] theorem modeStored_pedal (d : Pedal) : (p.modeStored h m).pedal d = p.pedal d := by
  cases d <;> rfl

theorem modeStored_budget (sound : BudgetSound p) : BudgetSound (p.modeStored h m) :=
  have same : SameUnits p (p.modeStored h m) :=
    .of_eq rfl rfl rfl (fun _ => rfl) fun d => congrArg PedalRecord.view (modeStored_pedal d)
  (same.good sound.good).budget

end

/-! ### The write -/

theorem ofPedal_railOf (t : Settings) (h : Half) :
    t.ofPedal (railOf h) = (t.railCost, t.railKick, t.railKickDuty, t.railSettle) := by
  cases h <;> rfl

theorem RailMode.ofCode_code (m : RailMode) : RailMode.ofCode m.code = some m := by
  cases m <;> rfl

theorem RailMode.ofCode_eq_none {n : Nat} (h : 3 < n) : RailMode.ofCode n = none := by
  unfold RailMode.ofCode
  split <;> first | rfl | omega

/-- Settles O23: the mode is stored, its move found, and the rail takes the move as its state gives. -/
theorem railModeWritten : Obligations.RailModeWritten := by
  intro s f hf
  have own := writeItem_scalar (f := f) (item := .railMode) (write := writeRailModeValue) (fun _ _ _ => rfl) s.part
  refine ⟨fun out => refuses_write (r := .range) hf (own.trans ?_) rfl, fun h m hh hm => ?_⟩
  · unfold writeRailModeValue
    rcases out with out | out
    · rw [Half.ofCode_eq_none out]
    · rw [RailMode.ofCode_eq_none out]
      cases Half.ofCode (byteAt f.payload 1) <;> rfl
  · intro p x asked autoUp stored d r
    have done : ∀ {q}, (match asked with | none => stored | some up => stored.railAsked h up) = q →
        Completes .writeRailMode s f q [0] := fun {q} same => by
      refine completes_write (r := .ok) hf (own.trans ?_)
      rw [writeRailModeValue, hh, hm, Half.ofCode_code, RailMode.ofCode_code, ← same]
      exact congrArg (Prod.mk Result.ok) (handRailMode_eq p h m)
    have record : stored.pedal d = r := modeStored_pedal (p := p) (h := h) (m := m) d
    have sound : BudgetSound p → BudgetSound stored := modeStored_budget
    have drops : ∀ {q}, asked = some false → dropPedal d stored = q → Completes .writeRailMode s f q [0] :=
      fun ask same => done (by rw [ask]; exact same)
    have lifts : ∀ {q}, asked = some true → liftPedal d .full stored = q → Completes .writeRailMode s f q [0] :=
      fun ask same => done (by rw [ask]; exact same)
    have dropped : r.state ≠ .waiting → dropPedal d stored = stored.setPedal d (r.dropped p.now p.settings.railSettle) :=
      fun c => by
        rw [dropPedal_eq (record ▸ c), record, ofPedal_railOf]
        rfl
    refine ⟨fun ask => done (by rw [ask]), fun ask hs => drops ask ?_, fun ask hs => drops ask ?_,
      fun ask hs => drops ask ?_, fun ask hs => lifts ask ?_, fun ask hs => lifts ask ?_, fun ask hs hf => lifts ask ?_,
      fun ask hs hw fits => lifts ask ?_, fun ask hs b => ?_, fun ask hs b => ?_⟩
    · rw [dropped (by rcases hs with hs | hs <;> rw [hs] <;> nofun), PedalRecord.dropped]
      rcases hs with hs | hs <;> rw [hs] <;> dsimp only <;> rw [← record, Part.setPedal_self]
    · rw [dropped (by rw [hs]; nofun), PedalRecord.dropped, hs]
    · rw [dropped (by rw [hs]; nofun), PedalRecord.dropped, hs]
    · exact liftRail_stays (record ▸ hs)
    · rw [liftRail_lifting (record ▸ hs)]
      exact congrArg (fun x : PedalRecord => stored.setPedal d { x with dropMark := false }) record
    · exact liftRail_faulted (record ▸ hs) (record ▸ hf)
    · obtain ⟨origin, requested⟩ := liftRail_requested (depth := .full) (waitSound_of_nil (p := stored) hw) (record ▸ hs)
      refine (requested.rail hw fits).trans ?_
      exact congrArg (fun x : PedalRecord => ({ stored with arbiter := { p.arbiter with
          grants := p.arbiter.grants.set (pedalLineNo d) (some p.settings.railCost) } } : Part).setPedal d
        { x with
          state := .lifting
          origin := none
          settleTimer := none
          kickTimer := some { started := p.now, length := p.settings.railKick }
          drive := x.drive.setDuty p.settings.pwmBase p.now (some p.settings.railKickDuty) }) record
    · have taken := (dropPedal_taken (d := d) (sound b)).withdrawn (record ▸ hs)
      obtain ⟨down, gone, count⟩ := taken
      exact ⟨_, drops ask rfl, (dropPedal_frame d stored).settings, down, fun e he c => gone ⟨e, he, c⟩, count⟩
    · obtain ⟨origin, requested⟩ := liftRail_requested (depth := .full) (sound b).wait (record ▸ hs)
      have line := requested.line (sound b).wait
      rw [ofPedal_railOf] at line
      exact ⟨_, lifts ask rfl, (liftPedal_frame d .full stored).settings, line⟩

end Sys2Proof.Machine
end

section
/-! PROOFS. Guards that end together, each line by itself, in any order (R136; log entry 1). -/

namespace Sys2Proof.Machine

section
variable {p q : Part} {plan : Plan}

theorem evicting_key (last : WaitEntry) (victim : Plan) (j : KeyNo) :
    (p.evicting last victim).key j
      = if victim.line = j then { p.key j with state := .idle, queuedOrigin := none } else p.key j := by
  rw [Part.evicting, filed_key, key_setKey]
  split
  · next e => rw [e]
  · rfl

/-- A plan that is handed over moves its own line and, on a full list, the line of the entry it pushes out (R112,
R113). -/
theorem StrikeRequested.other (h : StrikeRequested plan p q) (hw : WaitSound p) {j : KeyNo} (hj : j ≠ plan.line) :
    q.key j = p.key j ∨ q.key j = { p.key j with state := .idle, queuedOrigin := none } := by
  obtain ⟨granted, joins, full⟩ := h
  by_cases now : p.headFor plan.priority ∧ plan.cost + p.arbiter.unitsInUse ≤ p.settings.budgetUnits
  · rw [granted now, Part.key_setKey_ne _ _ hj]
    exact .inl (filed_key _ _ _ _)
  · rcases Nat.lt_or_ge p.arbiter.wait.length 32 with room | all
    · rw [joins now room, Part.key_setKey_ne _ _ hj]
      exact .inl rfl
    · obtain ⟨all, last, victim, hl, hv⟩ := full_last hw all
      obtain ⟨better, turned⟩ := full last victim now all hl hv
      by_cases hp : plan.priority < last.priority
      · have moved : q.key j = (p.evicting last victim).key j := by
          rw [better hp, Part.key_setKey_ne _ _ hj]
          rfl
        rw [moved, evicting_key]
        split
        · exact .inr rfl
        · exact .inl rfl
      · rw [turned (Nat.le_of_not_lt hp), filed_key, Part.key_setKey_ne _ _ hj]
        exact .inl rfl

theorem StrikeRequested.lineSets (h : StrikeRequested plan p q) (hw : WaitSound p) : SameLineSets p q := by
  obtain ⟨granted, joins, full⟩ := h
  by_cases now : p.headFor plan.priority ∧ plan.cost + p.arbiter.unitsInUse ≤ p.settings.budgetUnits
  · rw [granted now]
    exact filed_lineSets plan .played 0 p
  · rcases Nat.lt_or_ge p.arbiter.wait.length 32 with room | all
    · rw [joins now room]
      rfl
    · obtain ⟨all, last, victim, hl, hv⟩ := full_last hw all
      obtain ⟨better, turned⟩ := full last victim now all hl hv
      by_cases hp : plan.priority < last.priority
      · rw [better hp]
        exact filed_lineSets _ _ _ _
      · rw [turned (Nat.le_of_not_lt hp)]
        exact filed_lineSets _ _ _ _

/-! ### A line whose guard ends -/

/-- What becomes of a line whose guard ends (R136). -/
structure GuardEnded (p q : Part) (k : KeyNo) : Prop where
  bare : (p.key k).pending = none → q.key k = { p.key k with state := .idle, guardDone := false }
  rests : (p.key k).pending ≠ none → (p.key k).resting = true → q.key k = { p.key k with guardDone := true }
  submits : (p.key k).pending ≠ none → (p.key k).resting = false →
    (q.key k).pending = none ∧ ((q.key k).state = .kick ∨ (q.key k).state = .queued ∨ (q.key k).state = .idle)

/-- A guard ends on its own line. -/
theorem endOfGuard_ended (h : BudgetSound q) {k : KeyNo} (hr : (p.key k).state = .release) (same : q.key k = p.key k) :
    GuardEnded p (endOfGuard k q) k := by
  refine ⟨fun hp => ?_, fun hp rest => ?_, fun hp rest => ?_⟩
  · rw [endOfGuard_bare (same ▸ hp), Part.key_setKey_same, same]
  · rw [endOfGuard_resting (same ▸ hp) (same ▸ rest), Part.key_setKey_same, same]
  · obtain ⟨plan, hp⟩ := Option.ne_none_iff_exists'.1 hp
    rw [← same] at hp rest hr
    obtain rfl := ((h.key k).2.2.2.2.2.1 plan hp).1
    have requested := endOfGuard_requested hp rfl rest h.wait
    rcases requested.line h.wait with kicked | waits | ⟨away, -⟩
    · rw [kicked, Part.key_setKey_same]
      exact ⟨rfl, .inl rfl⟩
    · rw [waits, Part.key_setKey_same]
      exact ⟨rfl, .inr (.inl rfl)⟩
    · rw [away, Part.key_setKey_same]
      exact ⟨rfl, .inr (.inr rfl)⟩

/-- The guard of another line leaves a line as it is, or turns it out of the list. -/
theorem endOfGuard_other (h : BudgetSound q) {j k : KeyNo} (hj : j ≠ k) :
    (endOfGuard k q).key j = q.key j
      ∨ (endOfGuard k q).key j = { q.key j with state := .idle, queuedOrigin := none } := by
  by_cases hp : (q.key k).pending = none
  · rw [endOfGuard_bare hp, Part.key_setKey_ne _ _ hj]
    exact .inl rfl
  by_cases rest : (q.key k).resting = true
  · rw [endOfGuard_resting hp rest, Part.key_setKey_ne _ _ hj]
    exact .inl rfl
  · obtain ⟨plan, hp⟩ := Option.ne_none_iff_exists'.1 hp
    obtain rfl := ((h.key k).2.2.2.2.2.1 plan hp).1
    have requested := endOfGuard_requested hp rfl (Bool.eq_false_iff.2 rest) h.wait
    have other := requested.other h.wait hj
    rwa [Part.key_setKey_ne _ _ hj] at other

theorem endOfGuard_lineSets (h : BudgetSound q) (k : KeyNo) : SameLineSets q (endOfGuard k q) := by
  by_cases hp : (q.key k).pending = none
  · rw [endOfGuard_bare hp]
    rfl
  by_cases rest : (q.key k).resting = true
  · rw [endOfGuard_resting hp rest]
    rfl
  · obtain ⟨plan, hp⟩ := Option.ne_none_iff_exists'.1 hp
    obtain rfl := ((h.key k).2.2.2.2.2.1 plan hp).1
    exact (endOfGuard_requested hp rfl (Bool.eq_false_iff.2 rest) h.wait).lineSets h.wait

theorem GuardEnded.after (h : BudgetSound q) {j k : KeyNo} (hr : (p.key j).state = .release) (ended : GuardEnded p q j)
    (hj : j ≠ k) (aside : Aside (only (keyLineNo k)) q (endOfGuard k q)) : GuardEnded p (endOfGuard k q) j where
  bare hp := by
    have done := ended.bare hp
    rw [aside.other h.good (keyLineNo_ne hj) (by rw [done]; nofun), done]
  rests hp rest := by
    have done := ended.rests hp rest
    rw [aside.other h.good (keyLineNo_ne hj) (by rw [done]; exact hr ▸ nofun), done]
  submits hp rest := by
    obtain ⟨none, state⟩ := ended.submits hp rest
    rcases endOfGuard_other h hj with same | idle
    · rw [same]
      exact ⟨none, state⟩
    · rw [idle]
      exact ⟨none, .inr (.inr rfl)⟩

/-- Guards that end together, each on its own line, in any order (R135, R136; log entry 1). -/
theorem guards_ended (h : BudgetSound p) {act : KeyNo → Part → Part} {ks : List KeyNo} (nodup : ks.Nodup)
    (release : ∀ k ∈ ks, (p.key k).state = .release)
    (own : ∀ k ∈ ks, ∀ q, q.key k = p.key k → LinesOnly p q → act k q = endOfGuard k q) :
    BudgetSound (inAnyOrder ks act p) ∧ Aside (fun m => ∃ k ∈ ks, m = keyLineNo k) p (inAnyOrder ks act p)
      ∧ LinesOnly p (inAnyOrder ks act p) ∧ SameLineSets p (inAnyOrder ks act p)
      ∧ ∀ k ∈ ks, GuardEnded p (inAnyOrder ks act p) k := by
  obtain ⟨⟨good, aside, frame, sets⟩, ended⟩ := inAnyOrder_each (act := act)
    (I := fun q => BudgetSound q ∧ Aside (fun m => ∃ k ∈ ks, m = keyLineNo k) p q ∧ LinesOnly p q ∧ SameLineSets p q)
    (R := fun k q => q.key k = p.key k) (A := fun k q => GuardEnded p q k) (as := ks) (p := p) nodup
    ⟨((choices_same p _).good h.good).budget, .of_eq rfl rfl (fun _ => rfl) (fun d => by cases d <;> rfl),
      choices_frame p _, rfl⟩ (fun _ _ => rfl) fun k hk q hI same => by
      obtain ⟨budget, aside, frame, sets⟩ := hI
      have released : (q.key k).state = .release := same ▸ release k hk
      obtain ⟨good, own'⟩ := endOfGuard_good budget.good released
      rw [own k hk q same frame]
      refine ⟨⟨good.budget, aside.trans (own'.mono fun m hm => ⟨k, hk, hm⟩), frame.trans (endOfGuard_frame k q),
        (endOfGuard_lineSets budget k).trans sets⟩, endOfGuard_ended budget (release k hk) same, fun j hj ne => ?_⟩
      refine ⟨fun as => ?_, fun ended => ended.after budget (release j hj) ne own'⟩
      exact (own'.other budget.good (keyLineNo_ne ne) (by rw [as, release j hj]; nofun)).trans as
  exact ⟨good, aside, frame, sets, ended⟩

end

end Sys2Proof.Machine
end

section
/-! PROOFS. The heat tick (R142, R143). -/

namespace Sys2Proof.Machine

/-! ### The lines that may resume -/

theorem mayResume_iff (l : KeyLine) :
    l.mayResume = true ↔ l.state = .release ∧ l.guardDone = true ∧ l.pending ≠ none ∧ l.resting = false := by
  rw [KeyLine.mayResume, Bool.and_eq_true, Bool.and_eq_true, Bool.and_eq_true, beq_iff_eq, Bool.not_eq_true',
    Option.isSome_iff_ne_none]
  tauto

/-- The lines that may resume. -/
def Part.resuming (p : Part) : List KeyNo := allKeys.filter fun k => (p.key k).mayResume

theorem resumeLines_eq (p : Part) : resumeLines p = inAnyOrder p.resuming endOfGuard p := rfl

theorem mem_resuming {p : Part} {k : KeyNo} : k ∈ p.resuming ↔ (p.key k).mayResume = true := by
  rw [Part.resuming, List.mem_filter]
  exact and_iff_right (List.mem_finRange k)

theorem resuming_nodup (p : Part) : p.resuming.Nodup := allKeys_nodup.filter _

/-- A list without repetitions that holds one element alone. -/
theorem eq_singleton_of_nodup {α : Type} {as : List α} {a : α} (nodup : as.Nodup) (only : ∀ b, b ∈ as ↔ b = a) :
    as = [a] := by
  rw [← List.perm_singleton]
  exact (List.perm_ext_iff_of_nodup nodup (List.nodup_singleton a)).2 fun b => (only b).trans List.mem_singleton.symm

section
variable {p : Part}

/-- The lines that may resume hand their plans over, and the others stand aside (R143). -/
theorem resumeLines_ended (h : BudgetSound p) :
    BudgetSound (resumeLines p) ∧ SameLineSets p (resumeLines p)
      ∧ (∀ k, (p.key k).mayResume = true → ((resumeLines p).key k).pending = none
        ∧ (((resumeLines p).key k).state = .kick ∨ ((resumeLines p).key k).state = .queued
          ∨ ((resumeLines p).key k).state = .idle))
      ∧ ∀ k, (p.key k).mayResume ≠ true → (p.key k).state ≠ .queued → (resumeLines p).key k = p.key k := by
  obtain ⟨good, aside, -, sets, ended⟩ := guards_ended h (resuming_nodup p)
    (fun k hk => mayResume_release (mem_resuming.1 hk)) fun _ _ _ _ _ => rfl
  rw [← resumeLines_eq] at good aside sets ended
  refine ⟨good, sets, fun k hk => ?_, fun k hk hq => ?_⟩
  · obtain ⟨-, -, pending, rest⟩ := (mayResume_iff _).1 hk
    exact (ended k (mem_resuming.2 hk)).submits pending rest
  · refine (aside.still _ ?_ (h.no_key_entry hq)).key k rfl
    rintro ⟨j, hj, e⟩
    obtain rfl := keyLineNo_inj.1 e
    exact hk (mem_resuming.1 hj)

/-- One line that may resume hands its plan over. -/
theorem resumeLines_one (h : BudgetSound p) {k : KeyNo} {plan : Plan} (one : ∀ j, (p.key j).mayResume = true ↔ j = k)
    (hp : (p.key k).pending = some plan) :
    StrikeRequested plan (p.setKey k { p.key k with state := .idle, guardDone := false, pending := none })
      (resumeLines p) := by
  have lines : p.resuming = [k] := eq_singleton_of_nodup (resuming_nodup p) fun j => mem_resuming.trans (one j)
  rw [resumeLines_eq, lines, inAnyOrder_singleton]
  exact endOfGuard_requested hp ((h.key k).2.2.2.2.2.1 plan hp).1 ((mayResume_iff _).1 ((one k).2 rfl)).2.2.2 h.wait

/-- With no plan pending no line resumes. -/
theorem resumeLines_none (none : ∀ k, (p.key k).pending = none) : resumeLines p = p := by
  have lines : p.resuming = [] := List.eq_nil_iff_forall_not_mem.2 fun k hk =>
    ((mayResume_iff _).1 (mem_resuming.1 hk)).2.2.1 (none k)
  rw [resumeLines_eq, lines, inAnyOrder_nil]

end

/-! ### The heat tick -/

/-- A key line after a heat tick (R142, R143). -/
def KeyLine.cool (l : KeyLine) (soft : Nat) : KeyLine :=
  { l with
    heat := l.heat - (l.heat + 63) / 64
    resting := if l.heat - (l.heat + 63) / 64 < soft then false else l.resting }

theorem coolKey_eq (k : KeyNo) (p : Part) : coolKey k p = p.setKey k ((p.key k).cool p.settings.heatSoft) := by
  have resting : ((p.key k).resting && !decide (cooled (p.key k).heat < p.settings.heatSoft))
      = if cooled (p.key k).heat < p.settings.heatSoft then false else (p.key k).resting := by
    by_cases c : cooled (p.key k).heat < p.settings.heatSoft
    · rw [if_pos c, decide_eq_true c, Bool.not_true, Bool.and_false]
    · rw [if_neg c, decide_eq_false c, Bool.not_false, Bool.and_true]
  rw [coolKey, resting]
  rfl

/-- The part with these key lines, and the next heat tick 10 ms away. -/
def Part.heatTicked (p : Part) (keys : Vector KeyLine 88) : Part :=
  { p with drives := { p.drives with keys := keys, nextHeatTick := p.now + 200 } }

theorem heatTicked_roll (p : Part) (keys : Vector KeyLine 88) :
    (p.heatTicked keys).feed = p.feed ∧ (p.heatTicked keys).ring = p.ring ∧ (p.heatTicked keys).tracks = p.tracks
      ∧ (p.heatTicked keys).settings = p.settings :=
  ⟨rfl, rfl, rfl, rfl⟩

theorem heatTicked_same {p : Part} {keys : Vector KeyLine 88} (same : ∀ k : KeyNo, keys[k].view = (p.key k).view) :
    SameUnits p (p.heatTicked keys) :=
  .of_eq rfl rfl rfl same fun d => by cases d <;> rfl

/-- The key lines once they have cooled. -/
def Part.cooledKeys (p : Part) : Vector KeyLine 88 := Vector.ofFn fun k => (p.key k).cool p.settings.heatSoft

theorem cooledKeys_get (p : Part) (k : KeyNo) : p.cooledKeys[k] = (p.key k).cool p.settings.heatSoft :=
  Vector.getElem_ofFn k.isLt

theorem heatTicked_key (p : Part) (k : KeyNo) :
    (p.heatTicked p.cooledKeys).key k = (p.key k).cool p.settings.heatSoft :=
  cooledKeys_get p k

theorem heatTicked_mapKeys (p : Part) (g : KeyLine → KeyLine) :
    (p.heatTicked p.drives.keys).mapKeys g = p.heatTicked (Vector.ofFn fun k => g (p.key k)) := rfl

theorem heatTick_eq (p : Part) : heatTick p = resumeLines (p.heatTicked p.cooledKeys) := by
  rw [heatTick, heatTicks]
  refine congrArg resumeLines ((foldl_act_allKeys (act := coolKey) fun k q settings _ => ?_).trans
    (heatTicked_mapKeys p fun l => l.cool p.settings.heatSoft))
  rw [coolKey_eq, settings]

theorem cooled_budget {p : Part} (h : BudgetSound p) : BudgetSound (p.heatTicked p.cooledKeys) := by
  refine ((heatTicked_same fun k => ?_).good h.good).budget
  rw [cooledKeys_get]
  refine KeyLine.view_eq.2 ⟨rfl, rfl, rfl, rfl, fun c => ?_⟩
  change (if _ then false else (p.key k).resting) = _
  rw [(h.key k).2.2.2.2.2.2 c]
  split <;> rfl

section
variable {p : Part}

/-- After a heat tick every H has fallen and every flag is clear below HeatSoft, whatever resumes. -/
theorem heatTick_temps (p : Part) (k : KeyNo) :
    ((heatTick p).key k).heat = ((p.key k).cool p.settings.heatSoft).heat
      ∧ ((heatTick p).key k).resting = ((p.key k).cool p.settings.heatSoft).resting := by
  have temps := sameTemps_moves.resumeLines (p.heatTicked p.cooledKeys)
  rw [← heatTick_eq] at temps
  rw [temps.heat k, temps.resting k, heatTicked_key]
  exact ⟨rfl, rfl⟩

theorem heatTick_roll (p : Part) :
    (heatTick p).feed = p.feed ∧ (heatTick p).ring = p.ring ∧ (heatTick p).tracks = p.tracks
      ∧ (heatTick p).settings = p.settings := by
  obtain ⟨feed, ring, tracks, settings⟩ := heatTicked_roll p p.cooledKeys
  have frame := resumeLines_frame (p.heatTicked p.cooledKeys)
  rw [← heatTick_eq] at frame
  exact ⟨frame.feed.trans feed, frame.ring.trans ring, frame.tracks.trans tracks, frame.settings.trans settings⟩

theorem heatTick_none (none : ∀ k, (p.key k).pending = none) : heatTick p = p.heatTicked p.cooledKeys := by
  rw [heatTick_eq]
  refine resumeLines_none fun k => ?_
  rw [heatTicked_key]
  exact none k

/-- Does the line resume at the tick (R143)? -/
theorem cool_mayResume (l : KeyLine) (soft : Nat) :
    (l.cool soft).mayResume = true
      ↔ l.state = .release ∧ l.guardDone = true ∧ l.pending ≠ none ∧ (l.cool soft).resting = false :=
  mayResume_iff _

theorem heatTick_ended (h : BudgetSound p) :
    (∀ k, ((p.key k).cool p.settings.heatSoft).mayResume = true → ((heatTick p).key k).pending = none
        ∧ (((heatTick p).key k).state = .kick ∨ ((heatTick p).key k).state = .queued
          ∨ ((heatTick p).key k).state = .idle))
      ∧ ∀ k, ((p.key k).cool p.settings.heatSoft).mayResume ≠ true → (p.key k).state ≠ .queued →
        (heatTick p).key k = (p.key k).cool p.settings.heatSoft := by
  obtain ⟨-, -, resumed, stays⟩ := resumeLines_ended (cooled_budget h)
  rw [← heatTick_eq] at resumed stays
  refine ⟨fun k hk => resumed k ?_, fun k hk hq => (stays k ?_ ?_).trans (heatTicked_key p k)⟩
  · rw [heatTicked_key]
    exact hk
  · rw [heatTicked_key]
    exact hk
  · rw [heatTicked_key]
    exact hq

theorem heatTick_one (h : BudgetSound p) {k : KeyNo} {plan : Plan}
    (one : ∀ j, ((p.key j).cool p.settings.heatSoft).mayResume = true ↔ j = k) (hp : (p.key k).pending = some plan) :
    StrikeRequested plan ((p.heatTicked p.cooledKeys).setKey k
        { (p.key k).cool p.settings.heatSoft with state := .idle, guardDone := false, pending := none })
      (heatTick p) := by
  have requested := resumeLines_one (cooled_budget h) (k := k) (plan := plan)
    (fun j => by rw [heatTicked_key]; exact one j) (by rw [heatTicked_key]; exact hp)
  rwa [heatTicked_key, ← heatTick_eq] at requested

end

/-- Settles O41: every line cools by itself, and those that may resume do. -/
theorem heatTickCools : Obligations.HeatTickCools := by
  intro s on p cool
  have run : exec .heatTick s = .next (s.withPart (heatTick p)) := whileOn_on on
  obtain ⟨feed, ring, tracks, settings⟩ := heatTick_roll p
  have temps := heatTick_temps p
  have still := heatTick_none (p := p)
  have ended := heatTick_ended (p := p)
  have one := @heatTick_one p
  generalize heatTick p = q at *
  refine ⟨s.withPart q, run, rfl, temps, feed, ring, tracks, settings, fun none => ?_, fun h => ?_⟩
  · rw [still none]
    exact ⟨heatTicked_key p, rfl⟩
  · obtain ⟨resumed, stays⟩ := ended h
    exact ⟨fun k hk => resumed k ((cool_mayResume _ _).2 hk), fun k hk hq => stays k (mt (cool_mayResume _ _).1 hk) hq,
      fun k plan only hp => one h (fun j => (cool_mayResume _ _).trans (only j)) hp⟩

end Sys2Proof.Machine
end

section
/-! PROOFS. Writes of RepeatGuard (R135) and of PwmBase (R128). -/

namespace Sys2Proof.Machine

section
variable {p : Part}

/-! ### The guards that end -/

/-- The lines whose guard has passed the repeat guard. -/
def Part.elapsed (p : Part) : List KeyNo :=
  allKeys.filter fun k => (p.key k).guarding && decide (msTime p.settings.repeatGuard ≤ p.now - (p.key k).guardStarted)

theorem endElapsedGuards_eq (p : Part) : endElapsedGuards p = inAnyOrder p.elapsed guardEnds p := rfl

theorem elapsed_nodup (p : Part) : p.elapsed.Nodup := allKeys_nodup.filter _

theorem mem_elapsed {k : KeyNo} :
    k ∈ p.elapsed ↔ (p.key k).state = .release ∧ (p.key k).guardDone = false
      ∧ 20 * p.settings.repeatGuard ≤ p.now - (p.key k).guardStarted := by
  rw [Part.elapsed, List.mem_filter, Bool.and_eq_true, decide_eq_true_eq, guarding_iff, msTime, and_assoc]
  exact and_iff_right (List.mem_finRange k)

theorem guardEnds_eq {k : KeyNo} {q : Part} (h : (q.key k).guarding = true) : guardEnds k q = endOfGuard k q := if_pos h

theorem elapsed_guarding {k : KeyNo} (h : k ∈ p.elapsed) : (p.key k).guarding = true :=
  (guarding_iff _).2 ⟨(mem_elapsed.1 h).1, (mem_elapsed.1 h).2.1⟩

/-- A guard under way is not done. -/
theorem guarding_undone {l : KeyLine} (h : l.guardDone = false) : { l with guardDone := false } = l := by
  rw [← h]

/-- With no plan pending, the guards that end move their own lines alone. -/
theorem endElapsedGuards_bare (none : ∀ k, (p.key k).pending = none) :
    (∃ keys n, endElapsedGuards p = { p with drives := { p.drives with keys := keys }, choices := n })
      ∧ (∀ k, k ∉ p.elapsed → (endElapsedGuards p).key k = p.key k)
      ∧ ∀ k ∈ p.elapsed, (endElapsedGuards p).key k = { p.key k with state := .idle } := by
  rw [endElapsedGuards_eq]
  obtain ⟨⟨shape, others⟩, each⟩ := inAnyOrder_each (act := guardEnds)
    (I := fun q => (∃ keys n, q = { p with drives := { p.drives with keys := keys }, choices := n })
      ∧ ∀ k, k ∉ p.elapsed → q.key k = p.key k)
    (R := fun k q => q.key k = p.key k) (A := fun k q => q.key k = { p.key k with state := .idle }) (as := p.elapsed)
    (p := p) (elapsed_nodup p) ⟨⟨_, _, rfl⟩, fun _ _ => rfl⟩ (fun _ _ => rfl) fun k hk q hI same => by
      obtain ⟨⟨keys, n, shape⟩, others⟩ := hI
      have ended : guardEnds k q = q.setKey k { p.key k with state := .idle } := by
        rw [guardEnds_eq (same ▸ elapsed_guarding hk), endOfGuard_bare (same ▸ none k), same,
          ← guarding_undone (l := p.key k) (mem_elapsed.1 hk).2.1]
      rw [ended]
      refine ⟨⟨⟨_, n, by rw [shape]; rfl⟩, fun j hj => ?_⟩, Part.key_setKey_same _ _ _, fun j _ ne => ?_⟩
      · rw [Part.key_setKey_ne _ _ fun e : j = k => hj (e ▸ hk)]
        exact others j hj
      · rw [Part.key_setKey_ne _ _ ne]
        exact ⟨id, id⟩
  exact ⟨shape, others, each⟩

/-- The guards that end hand their plans over, or have their lines wait (R135, R136). -/
theorem endElapsedGuards_ended (h : BudgetSound p) :
    (∀ k ∈ p.elapsed, GuardEnded p (endElapsedGuards p) k)
      ∧ ∀ k, k ∉ p.elapsed → (p.key k).state ≠ .queued → (endElapsedGuards p).key k = p.key k := by
  obtain ⟨-, aside, -, -, ended⟩ := guards_ended h (act := guardEnds) (elapsed_nodup p)
    (fun k hk => (mem_elapsed.1 hk).1) fun k hk q same _ => guardEnds_eq (same ▸ elapsed_guarding hk)
  rw [← endElapsedGuards_eq] at aside ended
  refine ⟨ended, fun k hk hq => (aside.still _ ?_ (h.no_key_entry hq)).key k rfl⟩
  rintro ⟨j, hj, e⟩
  obtain rfl := keyLineNo_inj.1 e
  exact hk hj

theorem endElapsedGuards_one (h : BudgetSound p) {k : KeyNo} {plan : Plan} (one : ∀ j, j ∈ p.elapsed ↔ j = k)
    (hp : (p.key k).pending = some plan) (rest : (p.key k).resting = false) :
    StrikeRequested plan (p.setKey k { p.key k with state := .idle, pending := none }) (endElapsedGuards p) := by
  have lines : p.elapsed = [k] := eq_singleton_of_nodup (elapsed_nodup p) one
  have mem := (one k).2 rfl
  have requested := endOfGuard_requested hp ((h.key k).2.2.2.2.2.1 plan hp).1 rest h.wait
  rw [← guarding_undone (l := p.key k) (mem_elapsed.1 mem).2.1]
  rw [endElapsedGuards_eq, lines, inAnyOrder_singleton, guardEnds_eq (elapsed_guarding mem)]
  exact requested

end

/-- The part with a new repeat guard. -/
def Part.guardedBy (p : Part) (v : Nat) : Part := p.withSettings fun t => { t with repeatGuard := v }

theorem guardedBy_budget {p : Part} (h : BudgetSound p) (v : Nat) : BudgetSound (p.guardedBy v) :=
  ((withSettings_same _ p rfl).good h.good).budget

/-- Settles O24: the guards that have passed the new value end, each on its own line, and a new base begins a new
period on every line that drives. -/
theorem guardAndPwmWritten : Obligations.GuardAndPwmWritten := by
  intro s f
  refine ⟨fun hf => ?_, fun hf => ?_⟩
  · have own := writeItem_scalar (f := f) (item := .repeatGuard) (write := fun _ => writeRepeatGuardValue)
      (fun _ _ _ => rfl) s.part
    unfold writeRepeatGuardValue at own
    have written : 5 ≤ valueOf f → valueOf f ≤ 100 →
        Completes .writeRepeatGuard s f (endElapsedGuards (s.part.guardedBy (valueOf f))) [0] := fun low high =>
      completes_write (r := .ok) hf (own.trans (if_pos (within_eq_true.2 ⟨low, high⟩)))
    have passed : ∀ k, k ∈ (s.part.guardedBy (valueOf f)).elapsed ↔ _ := fun k => mem_elapsed
    refine ⟨fun out => ?_, fun low high none => ?_, fun low high h => ?_⟩
    · exact refuses_write (r := .range) hf (own.trans (by rw [within_eq_false.2 out]; rfl)) rfl
    · obtain ⟨⟨keys, n, shape⟩, others, ended⟩ := endElapsedGuards_bare (p := s.part.guardedBy (valueOf f)) none
      refine ⟨_, written low high, fun k => ?_, by rw [shape]; rfl⟩
      split
      · next c => exact ended k ((passed k).2 c)
      · next c => exact others k (mt (passed k).1 c)
    · intro elapsed submits
      have sound := guardedBy_budget h (valueOf f)
      obtain ⟨ended, others⟩ := endElapsedGuards_ended sound
      have frame := endElapsedGuards_frame (s.part.guardedBy (valueOf f))
      refine ⟨_, written low high, fun k hk none => ?_, fun k hk pending rest => ?_, fun k ⟨hk, pending, rest⟩ => ?_,
        fun k hk hq => others k (mt (passed k).1 hk) hq, fun k plan one hk hp => ?_, frame.settings, frame.feed,
        frame.ring, frame.tracks, frame.expression, frame.player⟩
      · exact ((ended k ((passed k).2 hk)).bare none).trans
          (congrArg (fun l : KeyLine => { l with state := .idle }) (guarding_undone hk.2.1))
      · exact (ended k ((passed k).2 hk)).rests pending rest
      · exact (ended k ((passed k).2 hk)).submits pending rest
      · exact endElapsedGuards_one sound (fun j => (passed j).trans (one j)) hp hk.2.2
  · have own := writeItem_scalar (f := f) (item := .pwmBase) (write := fun _ => writePwmBaseValue)
      (fun _ _ _ => rfl) s.part
    unfold writePwmBaseValue at own
    refine ⟨fun play => refuses_write (r := .state) hf (own.trans (if_pos play)) rfl, fun stopped a b c => ?_,
      fun stopped legal => ?_⟩
    · refine refuses_write (r := .range) hf (own.trans ?_) rfl
      rw [stopped, if_neg Bool.false_ne_true, if_neg (by tauto)]
    · intro rebased
      rw [stopped, if_neg Bool.false_ne_true, if_pos legal] at own
      exact ⟨_, completes_write (r := .ok) hf own, fun k => rebased_key k _, fun d => rebased_pedal d _, rfl⟩

end Sys2Proof.Machine
end

section
/-! PROOFS. Writes of HeatSoft and HeatHard (R143). -/

namespace Sys2Proof.Machine

section
variable {p : Part} {k : KeyNo}

/-! ### The lines that begin to rest -/

theorem updateResting_settings (k : KeyNo) (p : Part) : (updateResting k p).settings = p.settings :=
  (updateResting_own k p).settings

/-- A line that begins to rest joins the set of LINE_RESTING, and no line leaves it. -/
theorem updateResting_set (k : KeyNo) (p : Part) :
    (∀ j : KeyNo, p.notices.restingSet.getLsbD j.val = true → (updateResting k p).notices.restingSet.getLsbD j.val = true)
      ∧ ((p.key k).resting = false → p.settings.heatHard ≤ (p.key k).heat →
        (updateResting k p).notices.restingSet.getLsbD k.val = true) := by
  unfold updateResting
  dsimp only
  split
  · split
    · next rests => exact ⟨fun _ => id, fun c => absurd c (by rw [rests]; nofun)⟩
    · refine ⟨fun j hj => ?_, fun _ _ => raiseLineResting_mem k _⟩
      refine (mem_or_one_shift p.notices.restingSet k j).trans ?_
      rw [hj, Bool.true_or]
  · next cool =>
    split
    · exact ⟨fun _ => id, fun _ hot => absurd hot cool⟩
    · exact ⟨fun _ => id, fun _ hot => absurd hot cool⟩

theorem restedLines_set (p : Part) (k : KeyNo) (was : (p.key k).resting = false)
    (hot : p.settings.heatHard ≤ (p.key k).heat) : (restedLines p).notices.restingSet.getLsbD k.val = true := by
  have keeps : ∀ (ks : List KeyNo) (q : Part), q.notices.restingSet.getLsbD k.val = true →
      (ks.foldl (fun q k => updateResting k q) q).notices.restingSet.getLsbD k.val = true := by
    intro ks
    induction ks with
    | nil => exact fun _ => id
    | cons j rest ih => exact fun q hq => ih _ ((updateResting_set j q).1 k hq)
  have fold : ∀ (ks : List KeyNo) (q : Part), k ∈ ks → q.key k = p.key k → q.settings = p.settings →
      (ks.foldl (fun q k => updateResting k q) q).notices.restingSet.getLsbD k.val = true := by
    intro ks
    induction ks with
    | nil => exact fun _ hk => absurd hk List.not_mem_nil
    | cons j rest ih =>
      intro q hk same settings
      by_cases hj : j = k
      · subst hj
        exact keeps rest _ ((updateResting_set j q).2 (same ▸ was) (by rw [same, settings]; exact hot))
      · refine ih _ ((List.mem_cons.1 hk).resolve_left fun c => hj c.symm) ?_ ?_
        · rw [updateResting_key, if_neg hj, same]
        · rw [updateResting_settings, settings]
  rw [restedLines]
  exact fold _ p (List.mem_finRange k) rfl rfl

/-! ### The entries that leave -/

theorem removeRestingEntry_key {e : WaitEntry} (h : e.sound) (hk : e.line ≠ keyLineNo k) (p : Part) :
    (removeRestingEntry e p).key k = p.key k := by
  unfold removeRestingEntry
  split
  · next plan hr =>
    split
    · rw [endPlan_eq_filed, filed_key, unqueueKey, key_setKey, if_neg]
      · rfl
      · rintro rfl
        exact hk (h.of_strike hr).1
    · rfl
  · rfl

theorem removeRestingEntry_lineSets (e : WaitEntry) (p : Part) : SameLineSets p (removeRestingEntry e p) := by
  unfold removeRestingEntry
  split
  · split
    · rw [endPlan_eq_filed]
      exact filed_lineSets _ _ _ _
    · rfl
  · rfl

theorem restingRemoved_lineSets (p : Part) : SameLineSets p (restingRemoved p) := by
  have fold : ∀ (es : List WaitEntry) (q : Part), SameLineSets q (es.foldl (fun q e => removeRestingEntry e q) q) := by
    intro es
    induction es with
    | nil => exact fun _ => rfl
    | cons e rest ih => exact fun q => (ih _).trans (removeRestingEntry_lineSets e q)
  exact fold _ p

/-- A line with no entry stays as it is while entries leave. -/
theorem restingRemoved_key (sound : ∀ e ∈ p.arbiter.wait, e.sound) (none : ¬ p.hasEntry (keyLineNo k)) :
    (restingRemoved p).key k = p.key k := by
  have fold : ∀ (es : List WaitEntry) (q : Part), (∀ e ∈ es, e.sound ∧ e.line ≠ keyLineNo k) →
      (es.foldl (fun q e => removeRestingEntry e q) q).key k = q.key k := by
    intro es
    induction es with
    | nil => exact fun _ _ => rfl
    | cons e rest ih =>
      intro q h
      obtain ⟨sound, apart⟩ := h e (.head rest)
      exact (ih _ fun x hx => h x (.tail e hx)).trans (removeRestingEntry_key sound apart q)
  exact fold _ p fun e he => ⟨sound e he, fun c => none ⟨e, he, c⟩⟩

/-! ### The flags brought up to date -/

/-- The part before the lines that no longer rest resume. -/
def restingSettled (p : Part) : Part := grantingPass (restingRemoved (restedLines p))

theorem updateAllResting_settled (p : Part) : updateAllResting p = resumeLines (restingSettled p) :=
  updateAllResting_eq p

theorem restingSettled_budget (h : BudgetSound p) : BudgetSound (restingSettled p) :=
  (grantingPass_good (restedRemoved_but h.good)).budget

/-- A line that does not wait takes its flag and nothing else. -/
theorem restingSettled_key (h : BudgetSound p) (hq : (p.key k).state ≠ .queued) :
    (restingSettled p).key k = (p.key k).rested p.settings := by
  have wait := (restedLines_own p).wait
  have none : ¬ (restedLines p).hasEntry (keyLineNo k) := by
    rw [Part.hasEntry, wait]
    exact h.no_key_entry hq
  have removed : (restingRemoved (restedLines p)).key k = (p.key k).rested p.settings := by
    rw [restingRemoved_key (by rw [wait]; exact h.wait.2.2.2.1) none, restedLines_key]
  have but := restedRemoved_but (p := p) h.good
  have out : ¬ (restingRemoved (restedLines p)).hasEntry (keyLineNo k) := fun c =>
    hq (by have := (but.key (k := k) id).1.2.1.2 c; rwa [removed] at this)
  rw [restingSettled, ← removed]
  exact ((Aside.pass (ms := noLine) but).still _ id out).key k rfl

theorem restingSettled_lineSets (p : Part) : SameLineSets (restedLines p) (restingSettled p) :=
  (grantingPass_lineSets _).trans (restingRemoved_lineSets _)

/-- What a threshold write leaves of the key lines: the flags up to date, and the lines that no longer rest resumed. -/
theorem updateAllResting_ended (h : BudgetSound p) :
    (∀ k, ((p.key k).rested p.settings).mayResume = true → ((updateAllResting p).key k).pending = none
        ∧ (((updateAllResting p).key k).state = .kick ∨ ((updateAllResting p).key k).state = .queued
          ∨ ((updateAllResting p).key k).state = .idle))
      ∧ ∀ k, ((p.key k).rested p.settings).mayResume ≠ true → (p.key k).state ≠ .queued →
        (updateAllResting p).key k = (p.key k).rested p.settings := by
  obtain ⟨-, -, resumed, stays⟩ := resumeLines_ended (restingSettled_budget h)
  rw [← updateAllResting_settled] at resumed stays
  refine ⟨fun k hk => resumed k ?_, fun k hk hq => ?_⟩
  · rwa [restingSettled_key h (by rw [show (p.key k).state = .release from mayResume_release (l := (p.key k).rested p.settings) hk]; nofun)]
  · have key := restingSettled_key h hq
    exact (stays k (by rwa [key]) (by rw [key]; exact hq)).trans key

/-- The flags by the limits (R143). -/
theorem updateAllResting_flag (p : Part) (k : KeyNo) :
    ((updateAllResting p).key k).heat = (p.key k).heat
      ∧ ((updateAllResting p).key k).resting = ((p.key k).rested p.settings).resting := by
  have temps := updateAllResting_temps p
  rw [temps.heat k, temps.resting k, restedLines_key]
  exact ⟨rfl, rfl⟩

/-- A line that begins to rest is in the set of LINE_RESTING (R143). -/
theorem updateAllResting_set (h : BudgetSound p) (was : (p.key k).resting = false)
    (is : ((p.key k).rested p.settings).resting = true) :
    (updateAllResting p).notices.restingSet.getLsbD k.val = true := by
  have hot : p.settings.heatHard ≤ (p.key k).heat := by
    by_contra c
    change (if _ then true else if _ then false else (p.key k).resting) = true at is
    rw [if_neg c, was] at is
    split at is <;> cases is
  have sets := ((resumeLines_ended (restingSettled_budget h)).2.1.trans (restingSettled_lineSets p))
  rw [← updateAllResting_settled] at sets
  rw [SameLineSets.resting sets]
  exact restedLines_set p k was hot

end

/-! ### The writes -/

/-- The part with these heat limits. -/
def Part.heatLimited (p : Part) (soft hard : Nat) : Part := p.withSettings fun t => { t with heatSoft := soft, heatHard := hard }

/-- Settles O25: the flags are brought up to date, and then the lines that no longer rest resume. -/
theorem heatLimitsWritten : Obligations.HeatLimitsWritten := by
  intro s f item hitem hf v soft hard inRange
  have written : writeItem item (byteAt f.payload 1) (f.payload.drop 2) s.part
      = if ¬ inRange then (.range, s.part) else if hard < soft + 1000 then (.conflict, s.part)
        else (.ok, updateAllResting (s.part.heatLimited soft hard)) := by
    rcases hitem with rfl | rfl
    · have range : inRange ↔ within 1000 60000 v = true := within_eq_true.symm
      refine (writeItem_scalar (item := .heatSoft) (write := fun _ => writeHeatSoftValue) (fun _ _ _ => rfl) s.part).trans ?_
      simp only [writeHeatSoftValue, range, Bool.not_eq_true, Bool.not_eq_true']
      rfl
    · have range : inRange ↔ within 2000 65000 v = true := within_eq_true.symm
      refine (writeItem_scalar (item := .heatHard) (write := fun _ => writeHeatHardValue) (fun _ _ _ => rfl) s.part).trans ?_
      simp only [writeHeatHardValue, range, Bool.not_eq_true, Bool.not_eq_true']
      rfl
  refine ⟨fun out => refuses_write (r := .range) hf (written.trans (if_pos out)) rfl, fun range close => ?_,
    fun range apart h => ?_⟩
  · exact refuses_write (r := .conflict) hf (written.trans ((if_neg (not_not.2 range)).trans (if_pos close))) rfl
  · have done := completes_write hf
      (written.trans ((if_neg (not_not.2 range)).trans (if_neg (Nat.not_lt.2 apart))))
    have sound : BudgetSound (s.part.heatLimited soft hard) := ((withSettings_same _ s.part rfl).good h.good).budget
    have after : BudgetSound (updateAllResting (s.part.heatLimited soft hard)) := (updateAllResting_good sound.good).budget
    have flag := updateAllResting_flag (s.part.heatLimited soft hard)
    have set := fun {k} => @updateAllResting_set (s.part.heatLimited soft hard) k
    have frame := updateAllResting_frame (s.part.heatLimited soft hard)
    obtain ⟨resumed, stays⟩ := updateAllResting_ended sound
    generalize updateAllResting (s.part.heatLimited soft hard) = q at *
    refine ⟨q, done, frame.settings, fun k => ⟨(flag k).1, (flag k).2, fun was is => ?_, fun rests => ?_⟩, ?_, frame.feed,
      frame.ring, frame.tracks, frame.cues, frame.expression, frame.player, frame.store⟩
    · exact set sound was ((flag k).2 ▸ is)
    · have waits : (q.key k).state ≠ .queued := fun c => by
        have := (after.key k).2.2.2.2.2.2 c
        rw [rests] at this
        cases this
      exact ⟨waits, after.no_key_entry waits⟩
    · have may : ∀ k, (((s.part.heatLimited soft hard).key k).rested (s.part.heatLimited soft hard).settings).mayResume = true
          ↔ (s.part.key k).state = .release ∧ (s.part.key k).guardDone = true ∧ (s.part.key k).pending ≠ none
            ∧ (q.key k).resting = false := fun k => by
        rw [(flag k).2]
        exact mayResume_iff _
      refine ⟨fun k hk => resumed k ((may k).2 hk), fun k hk hq => ?_⟩
      rw [(flag k).2]
      exact stays k (mt (may k).1 hk) hq

end Sys2Proof.Machine
end

section
/-! PROOFS. The key lines released and the pedals dropped (R28, R29, R31, R138, R152, R156). -/

namespace Sys2Proof.Machine

section
variable {p q r : Part} {d : Pedal}

/-! ### A pedal dropped, and one that is not -/

/-- The pedal has been dropped (R152). -/
def PedalDropped (d : Pedal) (p q : Part) : Prop :=
  (q.pedal d).Down
    ∧ ((p.pedal d).state = .raised → q.pedal d = (p.pedal d).fallen p.now (p.settings.ofPedal d).2.2.2)

/-- The pedal is as it was, unless it waited for a grant. -/
def PedalKept (d : Pedal) (p q : Part) : Prop := (p.pedal d).state ≠ .waiting → q.pedal d = p.pedal d

theorem PedalKept.trans (h : PedalKept d p q) (g : PedalKept d q r) : PedalKept d p r := fun hd => by
  have same := h hd
  rw [g (by rwa [same]), same]

theorem PedalKept.dropped (h : PedalKept d p q) (frame : LinesOnly p q) (g : PedalDropped d q r) : PedalDropped d p r :=
  ⟨g.1, fun hd => by
    have same := h (by rw [hd]; nofun)
    rw [g.2 (by rwa [same]), same, frame.now, frame.settings]⟩

theorem PedalRecord.Down.not_waiting {x : PedalRecord} (h : x.Down) : x.state ≠ .waiting := by
  rcases h with h | h | ⟨h, -⟩ <;> rw [h] <;> nofun

theorem PedalDropped.kept (h : PedalDropped d p q) (g : PedalKept d q r) : PedalDropped d p r := by
  have same := g h.1.not_waiting
  exact ⟨by rw [same]; exact h.1, fun hd => by rw [same]; exact h.2 hd⟩

/-! ### Key lines at rest -/

/-- The key lines are these, none of them draws units, and no key entry waits. -/
structure KeysAtRest (key : KeyNo → KeyLine) (q : Part) : Prop where
  budget : BudgetSound q
  keys : ∀ k, q.key k = key k
  places : ∀ k, q.arbiter.grants[keyLineNo k] = none
  entries : ∀ e ∈ q.arbiter.wait, e.isKey = false

variable {key : KeyNo → KeyLine}

theorem KeysAtRest.no_entry (h : KeysAtRest key q) (k : KeyNo) : ¬ q.hasEntry (keyLineNo k) := fun ⟨e, he, hl⟩ => by
  obtain ⟨plan, hr, -⟩ := (h.budget.wait.2.2.2.1 e he).strike_of_key hl
  have := h.entries e he
  simp [WaitEntry.isKey, hr] at this

/-- A drop moves its own pedal and, where a withdrawal frees the list, a pedal that waits (R152). -/
theorem KeysAtRest.drop (h : KeysAtRest key q) (d : Pedal) :
    KeysAtRest key (dropPedal d q) ∧ PedalDropped d q (dropPedal d q) ∧ ∀ e, e ≠ d → PedalKept e q (dropPedal d q) := by
  obtain ⟨good, aside⟩ := dropPedal_good (d := d) h.budget.good
  have taken := dropPedal_taken (d := d) h.budget
  have dropped : PedalDropped d q (dropPedal d q) := ⟨taken.down, fun hd => by
    rw [dropPedal_eq (by rw [hd]; nofun), Part.pedal_setPedal_same, PedalRecord.dropped, hd]⟩
  have still := fun k => aside.still _ (keyLineNo_ne_pedalLineNo k d) (h.no_entry k)
  refine ⟨⟨good.budget, fun k => ((still k).key k rfl).trans (h.keys k), fun k => (still k).grant.trans (h.places k),
    fun e he => ?_⟩, dropped, fun e ne hq => ?_⟩
  · cases hr : e.request with
    | strike plan =>
      have line := ((good.budget.wait.2.2.2.1 e he).of_strike hr).1
      exact absurd ⟨e, he, line⟩ (still plan.line).entry
    | lift depth => simp [WaitEntry.isKey, hr]
  · exact (aside.still _ (fun c => ne (pedalLineNo_inj.1 c)) (h.budget.no_pedal_entry hq)).pedal e rfl

/-- The release of the key lines leaves them at rest, and the pedals that do not wait as they were (R138). -/
theorem releaseKeyLines_rest (h : BudgetSound p) (restore : Bool) :
    KeysAtRest (fun k => (p.key k).released restore p.settings p.now) (releaseKeyLines restore p)
      ∧ ∀ d, PedalKept d p (releaseKeyLines restore p) := by
  obtain ⟨keys, places, entries, pedals⟩ := releaseKeyLines_spec h restore
  exact ⟨⟨(releaseKeyLines_good h.good restore).budget, keys, places, entries⟩,
    fun d hd => (pedals d).resolve_right fun c => hd c.1⟩

/-! ### Several pedals dropped -/

/-- The key lines are at rest, the pedals of `ds` have been dropped, and the others kept. -/
structure LetGo (key : KeyNo → KeyLine) (ds : Pedal → Prop) (p q : Part) : Prop where
  rest : KeysAtRest key q
  frame : LinesOnly p q
  dropped : ∀ d, ds d → PedalDropped d p q
  kept : ∀ d, ¬ ds d → PedalKept d p q

variable {ds : Pedal → Prop}

theorem LetGo.mono (h : LetGo key ds p q) {ds' : Pedal → Prop} (same : ∀ d, ds' d ↔ ds d) : LetGo key ds' p q :=
  ⟨h.rest, h.frame, fun d hd => h.dropped d ((same d).1 hd), fun d hd => h.kept d (mt (same d).2 hd)⟩

theorem LetGo.drop (h : LetGo key ds p q) (hd : ¬ ds d) : LetGo key (fun e => ds e ∨ e = d) p (dropPedal d q) := by
  obtain ⟨rest, dropped, kept⟩ := h.rest.drop d
  refine ⟨rest, h.frame.trans (dropPedal_frame d q), fun e he => ?_, fun e he => ?_⟩
  · by_cases own : e = d
    · subst own
      exact (h.kept e hd).dropped h.frame dropped
    · exact (h.dropped e (he.resolve_right own)).kept (kept e own)
  · obtain ⟨out, ne⟩ := not_or.1 he
    exact (h.kept e out).trans (kept e ne)

/-- The rails that PAUSE and the end of the roll drop: those in AUTO and ROLL (R156). -/
def Settings.playsRail (t : Settings) (h : Half) : Prop := t.railMode.get h = .auto ∨ t.railMode.get h = .roll

theorem LetGo.dropPlayedRail (h : LetGo key ds p q) (half : Half) (hd : ¬ ds (railOf half)) :
    LetGo key (fun e => ds e ∨ (e = railOf half ∧ p.settings.playsRail half)) p (dropPlayedRail half q) := by
  have settings : q.settings = p.settings := h.frame.settings
  unfold Machine.dropPlayedRail Settings.playsRail
  rw [settings]
  cases p.settings.railMode.get half with
  | auto => exact (h.drop hd).mono fun d => by simp
  | roll => exact (h.drop hd).mono fun d => by simp
  | up => exact h.mono fun d => by simp
  | down => exact h.mono fun d => by simp

/-- What PAUSE and the end of the roll let go (R28, R31, R156). -/
theorem releasePlay_letGo (h : BudgetSound p) :
    LetGo (fun k => (p.key k).released false p.settings p.now)
      (fun d => d = .damper ∨ ∃ half, d = railOf half ∧ p.settings.playsRail half) p (releasePlay p) := by
  obtain ⟨rest, kept⟩ := releaseKeyLines_rest h false
  have begun : LetGo (fun k => (p.key k).released false p.settings p.now) (fun _ => False) p (releaseKeyLines false p) :=
    ⟨rest, releaseKeyLines_frame false p, fun _ => False.elim, fun d _ => kept d⟩
  have damper := begun.drop (d := .damper) id
  have bass := damper.dropPlayedRail .bass (by simp [railOf])
  have treble := bass.dropPlayedRail .treble (by simp [railOf])
  refine treble.mono fun d => ?_
  simp only [false_or, or_assoc]
  refine or_congr_right ⟨?_, ?_⟩
  · rintro ⟨half, c⟩
    cases half
    · exact .inl c
    · exact .inr c
  · rintro (c | c)
    · exact ⟨_, c⟩
    · exact ⟨_, c⟩

/-- What STOP and a soft reset drop: every pedal (R29, R156). -/
theorem LetGo.dropAll (h : LetGo key (fun _ => False) p q) : LetGo key (fun _ => True) p (dropAllPedals q) := by
  have all := ((h.drop (d := .damper) id).drop (d := .bassRail) (by simp)).drop (d := .trebleRail) (by simp)
  refine all.mono fun d => ?_
  cases d <;> simp

theorem LetGo.damper (h : LetGo key ds p q) (hd : ds .damper) : DamperDropped p q := h.dropped _ hd

theorem PedalDropped.rail {half : Half} (h : PedalDropped (railOf half) p q) : RailDropped half p q := by
  obtain ⟨down, fallen⟩ := h
  rw [ofPedal_railOf] at fallen
  exact ⟨down, fallen⟩

theorem LetGo.rail (h : LetGo key ds p q) (half : Half) (hd : ds (railOf half)) : RailDropped half p q :=
  (h.dropped _ hd).rail

/-- What PAUSE and the end of the roll do to the lines and the pedals (R28, R31). -/
theorem releasePlay_released (h : BudgetSound p) : PlayReleased p (releasePlay p) := by
  have gone := releasePlay_letGo h
  refine ⟨gone.rest.keys, gone.rest.places, gone.rest.entries, gone.damper (.inl rfl), fun half => ?_⟩
  unfold RailPaused
  split
  · next plays => exact gone.rail half (.inr ⟨half, rfl, plays⟩)
  · next plays =>
    refine gone.kept _ fun c => ?_
    rcases c with c | ⟨other, same, c⟩
    · cases half <;> cases c
    · have : other = half := by cases half <;> cases other <;> simp_all [railOf]
      exact plays (this ▸ c)

end

end Sys2Proof.Machine
end

section
/-! PROOFS. PAUSE (R28) and the host's silence (R36, R167). -/

namespace Sys2Proof.Machine

/-! ### Requests without a payload -/

/-- A request whose payload is to be empty is refused with LENGTH, or is taken (R165). -/
theorem takeRequest_empty {s : State} {f : Frame} {c : Instr} {act : Part → List Byte × Part} (h : s.part.MayTake f)
    (hr : rowOf f = c) :
    (f.payload ≠ [] → takeRequest c (answer (fixedLength 0 fun _ => act)) s = .next (s.withPart (s.part.replied f [9])))
      ∧ (f.payload = [] → takeRequest c (answer (fixedLength 0 fun _ => act)) s
        = .next (s.withPart ((act s.part).2.replied f (act s.part).1))) := by
  rw [takeRequest_answer h hr]
  refine ⟨fun some => ?_, fun none => ?_⟩
  · rw [fixedLength, if_neg (mt List.length_eq_zero_iff.1 some)]
    rfl
  · rw [fixedLength, if_pos (List.length_eq_zero_iff.2 none)]

/-! ### PAUSE (R28) -/

section
variable {p : Part}

theorem setFeed_budget (h : BudgetSound p) (f : FeedClock) : BudgetSound (p.setFeed f) :=
  ((setFeed_same p f).good h.good).budget

/-- A pause lets the lines and the played pedals go, and keeps the roll (R28). -/
theorem pauseTransport_released (h : BudgetSound p) :
    (pauseTransport p).feed = { p.feed with transport := .paused, starve := none }
      ∧ PlayReleased p (pauseTransport p) ∧ RollKept p (pauseTransport p) := by
  have sound := setFeed_budget h { p.feed with transport := .paused, starve := none }
  have frame := (releasePlay_letGo sound).frame
  have released := releasePlay_released sound
  rw [← pauseTransport] at frame released
  generalize pauseTransport p = q at *
  exact ⟨frame.feed, released, frame.settings, frame.store, frame.ring, frame.tracks, frame.cues,
    frame.expression, frame.player⟩

theorem pauseTransport_link (h : BudgetSound p) :
    (pauseTransport p).link = { p.link with noticeAsked := (pauseTransport p).link.noticeAsked } := by
  have frame := (releasePlay_letGo (setFeed_budget h { p.feed with transport := .paused, starve := none })).frame
  rw [← pauseTransport] at frame
  generalize pauseTransport p = q at *
  exact frame.link

end

theorem inPlay_iff (p : Part) : p.inPlay = true ↔ p.feed.transport = .running ∨ p.feed.transport = .starved := by
  rw [Part.inPlay, Bool.or_eq_true, beq_iff_eq, beq_iff_eq]

theorem rowOf_pause {f : Frame} (h : f.kind = 0x13) : rowOf f = .pause := by
  simp [rowOf, h]

/-- Settles O35. -/
theorem pauseReleases : Obligations.PauseReleases := by
  intro s f hf hk p
  obtain ⟨long, taken⟩ := takeRequest_empty (c := .pause) (act := pauseRequest) hf (rowOf_pause hk)
  have run : ∀ {q bs}, f.payload = [] → pauseRequest p = (bs, q) → Completes .pause s f q bs := fun none same =>
    (taken none).trans (by rw [same])
  refine ⟨long, fun none paused => run none ?_, fun none state => run none ?_, fun none play h => ?_⟩
  · rw [pauseRequest, paused]
    rfl
  · rw [pauseRequest]
    rcases state with state | state | state <;> rw [state] <;> rfl
  · have paused : pauseRequest p = ([0], pauseTransport p) := by
      rw [pauseRequest]
      rcases (inPlay_iff p).1 play with state | state <;> rw [state] <;> rfl
    exact ⟨_, run none paused, pauseTransport_released h⟩

/-! ### The host's silence (R36, R167) -/

theorem exec_hostSilenceExpiry {s : State} (on : s.part.power = .on) :
    exec .hostSilenceExpiry s = .next (s.withPart (expireSilence s.part)) :=
  whileOn_on on

/-- The part with its silence timer stopped. -/
def Part.silenceStopped (p : Part) : Part := { p with link := { p.link with silenceRunning := false } }

theorem expireSilence_eq {p : Part} (asked : p.settings.linkSilence ≠ 0) (runs : p.link.silenceRunning = true) :
    expireSilence p = if p.inPlay then raise .linkSilence (pauseTransport p.silenceStopped) else p.silenceStopped :=
  if_neg (not_or.2 ⟨asked, by rw [runs]; nofun⟩)

theorem silenceStopped_budget {p : Part} (h : BudgetSound p) : BudgetSound p.silenceStopped := by
  have same : SameUnits p p.silenceStopped := .of_eq rfl rfl rfl (fun _ => rfl) fun _ => rfl
  exact (same.good h.good).budget

/-- Settles O8. -/
theorem hostSilencePauses : Obligations.HostSilencePauses := by
  intro s on
  rw [exec_hostSilenceExpiry on]
  refine ⟨fun none => ?_, fun asked runs out => ?_, fun asked runs play h => ?_⟩
  · rw [expireSilence, if_pos none]
    rfl
  · rw [expireSilence_eq asked runs, out]
    rfl
  · rw [expireSilence_eq asked runs, if_pos play]
    have sound := silenceStopped_budget h
    obtain ⟨feed, released, kept⟩ := pauseTransport_released sound
    have silence : (pauseTransport s.part.silenceStopped).link.silenceRunning = false := by
      rw [pauseTransport_link sound]
      rfl
    have flagged := raise_own_flag (pauseTransport s.part.silenceStopped) (src := .linkSilence) rfl
    generalize pauseTransport s.part.silenceStopped = q at *
    have stopped : (raise .linkSilence q).link.silenceRunning = false := by
      rw [(raise_frame _ q).link]
      exact silence
    exact ⟨s.withPart (raise .linkSilence q), rfl, feed, released, kept, flagged, stopped, rfl⟩

end Sys2Proof.Machine
end

section
/-! PROOFS. LOAD ROLL (R24 to R26), STOP (R29) and RESET PART (R176). -/

namespace Sys2Proof.Machine

/-! ### The roll's own state, cleared -/

/-- The roll's own state with no row in it, the next one at `next` (R16, R56, R57, R58, R71, R159). -/
structure RollFresh (next : Nat) (q : Part) : Prop where
  ring : RingCleared q next
  tracks : TracksClosed q
  lead : LeadReset q next
  cues : CuesFresh q
  demands : ∀ h, (q.expression.halves.get h).autoUp = false

theorem allClosed_get (t : TrackNo) : allClosed[t] = .closed := Vector.getElem_replicate _

theorem freshCueRuns_get (i : Fin 4) : freshCueRuns[i] = { count := 0, spent := false } := Vector.getElem_replicate _

theorem targetLevel_closed {t : Settings} {states : Vector Debounce 112} (closed : ∀ n : TrackNo, states[n] = .closed)
    (f : TrackFunction) (h : Half) : targetLevel t states f h = false := by
  unfold targetLevel
  split
  · rw [closed]
    rfl
  · rfl

/-- What LOAD ROLL, STOP and a soft reset clear of the roll's own state, refreshed (R26, R29, R176). -/
def rollCleared (next : Nat) (p : Part) : Part :=
  levelRefresh (clearDemands (clearCueRuns (resetLead (closeTracks (clearRing next p)))))

/-- A refresh with every track CLOSED closes every level handed over (R57). -/
theorem levelRefresh_closed {p : Part} (closed : ∀ n : TrackNo, p.tracks.states[n] = .closed) :
    TracksClosed (levelRefresh p) := by
  refine ⟨closed, fun h => ?_, targetLevel_closed closed _ _, targetLevel_closed closed _ _, targetLevel_closed closed _ _⟩
  cases h <;> simp only [levelRefresh, PerHalf.get, HalfExpression.withLevels, halfLevels, targetLevel_closed closed] <;> rfl

section
variable {p q : Part} {next : Nat}

theorem RollFresh.lines (h : RollFresh next p) (frame : LinesOnly p q) : RollFresh next q where
  ring := frame.ring.trans h.ring
  tracks := by
    obtain ⟨states, levels, lift, feather, soft⟩ := h.tracks
    refine ⟨fun t => ?_, fun half => ?_, frame.liftLevel.trans lift, frame.featherLevel.trans feather,
      frame.softLevel.trans soft⟩
    · rw [frame.tracks]
      exact states t
    · rw [frame.expression]
      exact levels half
  lead := frame.lead.trans h.lead
  cues i := by
    rw [frame.cues]
    exact h.cues i
  demands half := by
    rw [frame.expression]
    exact h.demands half

theorem rollCleared_fresh (head : p.feed.headRow = next) : RollFresh next (cancelPlayer (rollCleared next p)) where
  ring := rfl
  tracks := levelRefresh_closed allClosed_get
  lead := congrArg LeadDecoder.atRow head
  cues := freshCueRuns_get
  demands half := by cases half <;> rfl

theorem rollCleared_shades (p : Part) (next : Nat) : ShadesHeld p (rollCleared next p) := fun half => by
  cases half <;> exact ⟨rfl, rfl⟩

/-- What clearing the roll and the player leaves as it was. -/
structure RollLeft (q r : Part) : Prop where
  feed : r.feed = q.feed
  settings : r.settings = q.settings
  store : r.store = q.store
  arbiter : r.arbiter = q.arbiter
  keys : r.drives = q.drives
  pedals : ∀ d, r.pedal d = q.pedal d
  specks : r.tracks.specks = q.tracks.specks
  patches : r.tracks.patches = q.tracks.patches
  valid : r.cues.valid = q.cues.valid
  notices : r.notices = q.notices
  link : r.link = q.link
  player : r.player = none

theorem rollCleared_left (q : Part) (next : Nat) : RollLeft q (cancelPlayer (rollCleared next q)) := by
  unfold cancelPlayer rollCleared levelRefresh clearDemands clearCueRuns resetLead closeTracks clearRing Part.setLead
  dsimp only
  refine ⟨rfl, rfl, rfl, rfl, rfl, fun d => ?_, rfl, rfl, rfl, rfl, rfl, rfl⟩
  cases d <;> rfl

theorem RollLeft.key {q r : Part} (h : RollLeft q r) (k : KeyNo) : r.key k = q.key k := by
  rw [Part.key, h.keys, Part.key]

/-- What has been let go stays so while the roll is cleared. -/
theorem RollLeft.dropped {q r : Part} {d : Pedal} (h : RollLeft q r) (g : PedalDropped d p q) : PedalDropped d p r := by
  obtain ⟨down, fallen⟩ := g
  exact ⟨by rw [h.pedals d]; exact down, fun hd => (h.pedals d).trans (fallen hd)⟩

end

theorem PedalDropped.setFeed {p q : Part} {d : Pedal} {c : FeedClock} (h : PedalDropped d (p.setFeed c) q) :
    PedalDropped d p q := by
  rw [PedalDropped, Part.setFeed_pedal] at h
  exact h

/-! ### STOP (R29) -/

theorem rowOf_stop {f : Frame} (h : f.kind = 0x14) : rowOf f = .stop := by
  simp [rowOf, h]

theorem stopTransport_eq (p : Part) :
    stopTransport p = cancelPlayer (rollCleared 0 (dropAllPedals (releaseKeyLines false (p.setFeed p.feed.unload)))) := rfl

/-- What STOP and a soft reset let go before the roll is cleared. -/
theorem dropAll_letGo {p : Part} (h : BudgetSound p) (restore : Bool) :
    LetGo (fun k => (p.key k).released restore p.settings p.now) (fun _ => True) p
      (dropAllPedals (releaseKeyLines restore p)) := by
  obtain ⟨rest, kept⟩ := releaseKeyLines_rest h restore
  exact LetGo.dropAll ⟨rest, releaseKeyLines_frame restore p, fun _ => False.elim, fun d _ => kept d⟩

/-- Settles O36: the lines and the pedals are let go, and then the roll is cleared. -/
theorem stopUnloads : Obligations.StopUnloads := by
  intro s f hf hk p
  obtain ⟨long, taken⟩ := takeRequest_empty (c := .stop) (act := stopRequest) hf (rowOf_stop hk)
  have run : ∀ {q bs}, f.payload = [] → stopRequest p = (bs, q) → Completes .stop s f q bs := fun none same =>
    (taken none).trans (by rw [same])
  refine ⟨long, fun none state => run none ?_, fun none loaded h => ?_⟩
  · rw [stopRequest, state]
    rfl
  · have stopped : stopRequest p = ([0], stopTransport p) := by
      unfold stopRequest
      split
      · next state => exact absurd state loaded
      all_goals rfl
    refine ⟨_, run none stopped, ?_⟩
    rw [stopTransport_eq]
    have gone := dropAll_letGo (setFeed_budget h p.feed.unload) false
    generalize dropAllPedals (releaseKeyLines false (p.setFeed p.feed.unload)) = q at *
    have frame := gone.frame
    have fresh : RollFresh 0 (cancelPlayer (rollCleared 0 q)) := by
      refine rollCleared_fresh ?_
      rw [frame.feed]
      rfl
    have left := rollCleared_left q 0
    have shades : ShadesHeld p (cancelPlayer (rollCleared 0 q)) := fun half => by
      have kept := rollCleared_shades q 0 half
      rw [frame.expression] at kept
      exact kept
    have dropped : ∀ d, PedalDropped d p (cancelPlayer (rollCleared 0 q)) := fun d =>
      left.dropped (gone.dropped d trivial).setFeed
    generalize cancelPlayer (rollCleared 0 q) = r at *
    refine ⟨left.feed.trans frame.feed, fun k => (left.key k).trans (gone.rest.keys k), ?_, ?_, dropped .damper,
      fun half => (dropped _).rail, fresh.ring, fresh.tracks, ?_, ?_, fresh.lead, fresh.cues, ?_, shades, fresh.demands,
      left.player, left.settings.trans frame.settings, left.store.trans frame.store⟩
    · rw [left.arbiter]
      exact gone.rest.places
    · rw [left.arbiter]
      exact gone.rest.entries
    · rw [left.specks, frame.tracks]
      rfl
    · rw [left.patches, frame.tracks]
      rfl
    · rw [left.valid, frame.cues]
      rfl

end Sys2Proof.Machine
end

section
/-! PROOFS. LOAD ROLL (R24 to R26). -/

namespace Sys2Proof.Machine

theorem rowOf_loadRoll {f : Frame} (h : f.kind = 0x10) : rowOf f = .loadRoll := by
  simp [rowOf, h]

theorem completes_load {s : State} {f : Frame} {bs : List Byte} {q : Part} (h : s.part.MayTake f) (hk : f.kind = 0x10)
    (e : loadRoll f.payload s.part = (bs, q)) : Completes .loadRoll s f q bs := by
  have taken : exec .loadRoll s = .next (s.withPart
      ((loadRoll f.payload s.part).2.replied f (loadRoll f.payload s.part).1)) := takeRequest_answer h (rowOf_loadRoll hk)
  rw [Completes, taken, e]

/-- The base of a legal roll lies in the range of Q, and its build-up begins with nothing (R22, R24). -/
theorem load_increment {pitch tempo : Nat} (low : 100 ≤ pitch) (high : pitch ≤ 600) (slow : 10 ≤ tempo) (fast : tempo ≤ 200)
    (buildUp : Nat) :
    increment (baseIncrement pitch tempo 1000) buildUp 0 = baseIncrement pitch tempo 1000 := by
  have least : 100 * 10 ≤ pitch * tempo := Nat.mul_le_mul low slow
  have most : pitch * tempo ≤ 600 * 200 := Nat.mul_le_mul high fast
  have more : 1 ≤ baseIncrement pitch tempo 1000 := by
    rw [baseIncrement, Nat.le_div_iff_mul_le (by decide)]
    omega
  have less : baseIncrement pitch tempo 1000 ≤ 65535 := by
    rw [baseIncrement, Nat.div_le_iff_le_mul_add_pred (by decide)]
    omega
  rw [increment, Nat.zero_div, Nat.mul_zero, Nat.zero_div, Nat.add_zero, min_eq_right less, max_eq_right more]

theorem load_legal_iff (payload : List Byte) :
    (LoadRequest.read payload).legal = true ↔
      fieldAt payload 0 4 ≤ 2147483647
        ∧ (fieldAt payload 4 4 = 0 ∨ (fieldAt payload 0 4 < fieldAt payload 4 4 ∧ fieldAt payload 4 4 ≤ 2147483647))
        ∧ (fieldAt payload 8 2 = 0 ∨ (100 ≤ fieldAt payload 8 2 ∧ fieldAt payload 8 2 ≤ 600))
        ∧ (10 ≤ fieldAt payload 10 2 ∧ fieldAt payload 10 2 ≤ 200) ∧ fieldAt payload 12 2 ≤ 2000 := by
  rw [LoadRequest.legal]
  simp only [Bool.and_eq_true, Bool.or_eq_true, decide_eq_true_eq, beq_iff_eq, and_assoc]
  rfl

/-- The part that a load has prepared for the lines to be let go (R25, R26). -/
def loadPrepared (start : Nat) (c : FeedClock) (p : Part) : Part :=
  levelRefresh (resetShades (clearDemands (clearCueRuns (resetLead (closeTracks (clearRing start (p.setFeed c)))))))

theorem loadTransport_eq (start final pitch tempo buildUp : Nat) (p : Part) :
    loadTransport start final pitch tempo buildUp p
      = cancelPlayer (dropPedal .damper (releaseKeyLines false
          (loadPrepared start (p.feed.load start final pitch tempo buildUp) p))) := rfl

section
variable {p : Part} {start : Nat} {c : FeedClock}

theorem loadPrepared_fresh (head : c.headRow = start) : RollFresh start (loadPrepared start c p) where
  ring := rfl
  tracks := levelRefresh_closed allClosed_get
  lead := congrArg LeadDecoder.atRow head
  cues := freshCueRuns_get
  demands half := by cases half <;> rfl

/-- What a load prepares outside the lines. -/
structure Prepared (c : FeedClock) (p q : Part) : Prop where
  feed : q.feed = c
  settings : q.settings = p.settings
  store : q.store = p.store
  now : q.now = p.now
  arbiter : q.arbiter = p.arbiter
  drives : q.drives = p.drives
  pedals : ∀ d, q.pedal d = p.pedal d
  specks : q.tracks.specks = p.tracks.specks
  patches : q.tracks.patches = p.tracks.patches
  valid : q.cues.valid = p.cues.valid
  shades : ∀ h, (q.expression.halves.get h).shade = p.settings.stepTable[0]
    ∧ (q.expression.halves.get h).swelled = false

theorem loadPrepared_left : Prepared c p (loadPrepared start c p) := by
  unfold loadPrepared levelRefresh resetShades clearDemands clearCueRuns resetLead closeTracks clearRing Part.setLead
    Part.setFeed
  dsimp only
  refine ⟨rfl, rfl, rfl, rfl, rfl, rfl, fun d => ?_, rfl, rfl, rfl, fun h => ?_⟩
  · cases d <;> rfl
  · cases h <;> exact ⟨rfl, rfl⟩

theorem Prepared.key {q : Part} (h : Prepared c p q) (k : KeyNo) : q.key k = p.key k := by
  rw [Part.key, h.drives, Part.key]

theorem Prepared.dropped {q r : Part} {d : Pedal} (h : Prepared c p q) (g : PedalDropped d q r) : PedalDropped d p r := by
  rw [PedalDropped, h.pedals d, h.now, h.settings] at g
  exact g

theorem Prepared.kept {q r : Part} {d : Pedal} (h : Prepared c p q) (g : PedalKept d q r) : PedalKept d p r := by
  rw [PedalKept, h.pedals d] at g
  exact g

theorem Prepared.budget {q : Part} (h : Prepared c p q) (sound : BudgetSound p) : BudgetSound q := by
  have same : SameUnits p q := .of_eq (by rw [h.settings]) (by rw [h.arbiter]) (by rw [h.arbiter])
    (fun k => by rw [h.key k]) fun d => by rw [h.pedals d]
  exact (same.good sound.good).budget

end

/-- The Feed Clock of a legal roll (R22, R25). -/
theorem load_eq (c : FeedClock) {start final pitch tempo buildUp : Nat} (scan : pitch = 0 ∨ (100 ≤ pitch ∧ pitch ≤ 600))
    (speed : 10 ≤ tempo ∧ tempo ≤ 200) :
    c.load start final pitch tempo buildUp =
      { c with
        transport := .loaded
        row := start
        fraction := 0
        taken := false
        tempo := tempo
        trim := 1000
        pitch := if pitch = 0 then 300 else pitch
        buildUp := buildUp
        endRow := final
        rowsTaken := 0
        qBase := baseIncrement (if pitch = 0 then 300 else pitch) tempo 1000
        q := baseIncrement (if pitch = 0 then 300 else pitch) tempo 1000
        starve := none } := by
  have q : increment (baseIncrement (if pitch = 0 then 300 else pitch) tempo 1000) buildUp 0
      = baseIncrement (if pitch = 0 then 300 else pitch) tempo 1000 :=
    load_increment (by split <;> omega) (by split <;> omega) speed.1 speed.2 buildUp
  unfold FeedClock.load FeedClock.recompute FeedClock.recomputeQ
  dsimp only
  rw [q]

/-- Settles O31: the Feed Clock is loaded, the roll's own state prepared, and the lines let go. -/
theorem rollLoaded : Obligations.RollLoaded := by
  intro s f hf hk p start final pitch tempo buildUp legal
  refine ⟨fun hl => ?_, fun hl play => ?_, fun hl play out => ?_, fun hl play ok h => ?_⟩
  · exact completes_load hf hk (if_pos hl)
  · refine completes_load hf hk ?_
    rw [loadRoll, if_neg (not_not.2 hl), if_pos play]
    rfl
  · refine completes_load hf hk ?_
    rw [loadRoll, if_neg (not_not.2 hl), play, if_neg Bool.false_ne_true,
      Bool.eq_false_iff.2 (mt (load_legal_iff f.payload).1 out)]
    rfl
  · intro scan base
    have ⟨_, _, pitches, tempos, _⟩ := ok
    have feed : p.feed.load start final pitch tempo buildUp = _ := load_eq p.feed pitches tempos
    have loaded : loadRoll f.payload p = (loadReply .ok (loadTransport start final pitch tempo buildUp p),
        loadTransport start final pitch tempo buildUp p) := by
      rw [loadRoll, if_neg (not_not.2 hl), play, if_neg Bool.false_ne_true, (load_legal_iff f.payload).2 ok]
      rfl
    rw [loadTransport_eq] at loaded
    have fresh : RollFresh start (loadPrepared start (p.feed.load start final pitch tempo buildUp) p) :=
      loadPrepared_fresh (by rw [feed]; rfl)
    have left := loadPrepared_left (p := p) (start := start) (c := p.feed.load start final pitch tempo buildUp)
    rw [feed] at loaded fresh left
    generalize loadPrepared start _ p = q at *
    obtain ⟨rest, kept⟩ := releaseKeyLines_rest (left.budget h) false
    have gone := LetGo.drop (d := .damper) (ds := fun _ => False)
      ⟨rest, releaseKeyLines_frame false q, fun _ => False.elim, fun d _ => kept d⟩ id
    generalize dropPedal .damper (releaseKeyLines false q) = r at *
    have frame := gone.frame
    have fresh := fresh.lines frame
    have damper : DamperDropped p r := left.dropped (gone.dropped .damper (.inr rfl))
    have rails : ∀ half, RailKept half p r := fun half => left.kept (gone.kept _ (by cases half <;> simp [railOf]))
    have reply : loadReply .ok (cancelPlayer r) = [0] ++ littleEndian 2 base := by
      change [0] ++ littleEndian 2 r.feed.q = _
      rw [frame.feed, left.feed]
      rfl
    rw [reply] at loaded
    refine ⟨cancelPlayer r, completes_load hf hk loaded, frame.feed.trans left.feed, fresh.ring, fresh.tracks, ?_, ?_,
      fresh.lead, fresh.cues, ?_, fun half => ⟨?_, ?_, fresh.demands half⟩, fun k => ?_, gone.rest.places, gone.rest.entries,
      damper, rails, rfl, frame.settings.trans left.settings, frame.store.trans left.store⟩
    · exact (congrArg TrackDecoder.specks frame.tracks).trans left.specks
    · exact (congrArg TrackDecoder.patches frame.tracks).trans left.patches
    · exact (congrArg CueMatcher.valid frame.cues).trans left.valid
    · exact (congrArg (fun e : ExpressionUnit => (e.halves.get half).shade) frame.expression).trans (left.shades half).1
    · exact (congrArg (fun e : ExpressionUnit => (e.halves.get half).swelled) frame.expression).trans (left.shades half).2
    · refine (gone.rest.keys k).trans ?_
      rw [left.key, left.settings, left.now]

end Sys2Proof.Machine
end

section
/-! PROOFS. RESET PART (R140, R155, R176). -/

namespace Sys2Proof.Machine

/-! ### No flag goes down -/

theorem FlagsKept.trans {p q r : Part} (h : FlagsKept p q) (g : FlagsKept q r) : FlagsKept p r :=
  fun src hs => g src (h src hs)

theorem FlagsKept.endPlan (plan : Plan) (o : StrikeOutcome) (n : Nat) (p : Part) : FlagsKept p (endPlan plan o n p) := by
  rw [endPlan_eq_filed, Part.filed]
  dsimp only
  split
  · exact .of_eq rfl
  · exact FlagsKept.trans (.of_eq rfl) (.raise _ rfl)

/-- No flag has been taken down, and no hold cut counted. -/
structure NoCut (p q : Part) : Prop where
  flags : FlagsKept p q
  cuts : q.drives.holdCuts = p.drives.holdCuts

theorem NoCut.of_eq {p q : Part} (notices : q.notices = p.notices) (cuts : q.drives.holdCuts = p.drives.holdCuts) :
    NoCut p q := ⟨.of_eq notices, cuts⟩

theorem NoCut.trans {p q r : Part} (h : NoCut p q) (g : NoCut q r) : NoCut p r :=
  ⟨h.flags.trans g.flags, g.cuts.trans h.cuts⟩

theorem endPlan_cuts (plan : Plan) (o : StrikeOutcome) (n : Nat) (p : Part) :
    (endPlan plan o n p).drives.holdCuts = p.drives.holdCuts := by
  rw [endPlan_eq_filed, Part.filed]
  dsimp only
  split <;> rfl

/-- The operations on the lines take no flag down, and none but the end of a hold counts a cut. -/
theorem noCut_warming : KeptByWarming NoCut where
  refl _ := .of_eq rfl rfl
  trans := .trans
  elsewhere same := ⟨same.flags, same.cuts⟩
  key _ _ _ _ _ := .of_eq rfl rfl
  pedal _ _ _ _ _ := .of_eq (Part.setPedal_notices _ _ _) (by rw [Part.setPedal_drives])
  place _ _ _ := .of_eq rfl rfl
  wait _ _ := .of_eq rfl rfl
  ended plan o n p := ⟨.endPlan plan o n p, endPlan_cuts plan o n p⟩
  withdrawal _ := .of_eq rfl rfl
  late _ := .of_eq rfl rfl
  mark _ _ _ := .of_eq (Part.setPedal_notices _ _ _) (by rw [Part.setPedal_drives])
  warm k n p := by
    rw [gainHeat_eq]
    split
    · exact NoCut.trans (.of_eq rfl rfl) ⟨.raiseLineResting k _, rfl⟩
    · exact .of_eq rfl rfl
  forget _ := .of_eq rfl rfl
  rebase _ := .of_eq rfl rfl

/-! ### The pedals restored -/

section
variable {p q : Part} {key : KeyNo → KeyLine}

theorem KeysAtRest.clearFault (h : KeysAtRest key q) (d : Pedal) : KeysAtRest key (clearPedalFault d q) where
  budget := by
    have same : SameUnits q (clearPedalFault d q) := SameUnits.setPedal rfl
    exact (same.good h.budget.good).budget
  keys k := (Part.setPedal_key _ _ _ k).trans (h.keys k)
  places := by
    rw [clearPedalFault, Part.setPedal_arbiter]
    exact h.places
  entries := by
    rw [clearPedalFault, Part.setPedal_arbiter]
    exact h.entries

theorem clearPedalFault_noCut (d : Pedal) (p : Part) : NoCut p (clearPedalFault d p) := noCut_warming.mark _ _ _

/-- Every pedal's fault is cleared, and nothing moves (R155). -/
theorem restoreAllPedals_rest (h : KeysAtRest key q) :
    KeysAtRest key (restoreAllPedals q) ∧ LinesOnly q (restoreAllPedals q) ∧ NoCut q (restoreAllPedals q)
      ∧ ∀ d, ((restoreAllPedals q).pedal d).faulted = false ∧ ((restoreAllPedals q).pedal d).fault = .none := by
  refine ⟨((h.clearFault .damper).clearFault .bassRail).clearFault .trebleRail, ?_, ?_, fun d => ?_⟩
  · exact ((clearPedalFault_frame _ _).trans (clearPedalFault_frame _ _)).trans (clearPedalFault_frame _ _)
  · exact ((clearPedalFault_noCut _ _).trans (clearPedalFault_noCut _ _)).trans (clearPedalFault_noCut _ _)
  · cases d <;> exact ⟨rfl, rfl⟩

/-- The lines and the pedals that a soft reset lets go (R140, R155, R156). -/
def softLetGo (p : Part) : Part := dropAllPedals (restoreAllPedals (releaseKeyLines true p))

theorem softLetGo_spec (h : BudgetSound p) :
    KeysAtRest (fun k => (p.key k).released true p.settings p.now) (softLetGo p) ∧ LinesOnly p (softLetGo p)
      ∧ NoCut p (softLetGo p)
      ∧ ∀ d, ((softLetGo p).pedal d).Down ∧ ((softLetGo p).pedal d).faulted = false
        ∧ ((softLetGo p).pedal d).fault = .none := by
  obtain ⟨rest, -⟩ := releaseKeyLines_rest h true
  obtain ⟨restored, frame, flags, marks⟩ := restoreAllPedals_rest rest
  have gone : LetGo (fun k => (p.key k).released true p.settings p.now) (fun _ => True)
      (restoreAllPedals (releaseKeyLines true p)) (softLetGo p) :=
    LetGo.dropAll ⟨restored, .refl _, fun _ => False.elim, fun d _ _ => rfl⟩
  have drops : ∀ {R : Part → Part → Prop}, KeptByMoves R → ∀ q, R q (dropAllPedals q) := fun kept q =>
    kept.trans (kept.trans (kept.dropPedal _ q) (kept.dropPedal _ _)) (kept.dropPedal _ _)
  refine ⟨gone.rest, ((releaseKeyLines_frame true p).trans frame).trans gone.frame,
    ((noCut_warming.releaseKeyLines true p).trans flags).trans (drops noCut_warming.toKeptByMoves _), fun d => ?_⟩
  obtain ⟨fault, faulted⟩ := drops sameMarks_moves (restoreAllPedals (releaseKeyLines true p)) d
  exact ⟨(gone.dropped d trivial).1, faulted.trans (marks d).1, fault.trans (marks d).2⟩

end

/-! ### The request -/

theorem rowOf_resetPart {f : Frame} (h : f.kind = 0x3F) : rowOf f = .resetPart := by
  simp [rowOf, h]

/-- The part with cue-valid clear. -/
def Part.cuesInvalid (p : Part) : Part := { p with cues := { p.cues with valid := false } }

theorem softReset_eq (p : Part) :
    softReset p = raise .started
      (cancelPlayer (rollCleared 0 ((softLetGo p).setFeed (softLetGo p).feed.unload))).cuesInvalid := rfl

/-- Settles O30: the lines and the pedals are let go, and then the roll and the cues are cleared. -/
theorem partSoftReset : Obligations.PartSoftReset := by
  intro s f hf hk p
  have taken : exec .resetPart s = .next (s.withPart (resetPart f p)) := takeRequest_of_mayTake hf (rowOf_resetPart hk)
  refine ⟨fun long => ?_, fun short h => ?_⟩
  · rw [Refuses, taken, resetPart, if_pos (mt List.length_eq_zero_iff.1 long)]
    rfl
  · have reset : resetPart f p = softReset (p.replied f [0]) := by
      rw [resetPart, if_neg (by simp [short])]
      rfl
    rw [reset, softReset_eq] at taken
    have sound : BudgetSound (p.replied f [0]) := by
      have same : SameUnits p (p.replied f [0]) := .of_eq rfl rfl rfl (fun _ => rfl) fun d => by cases d <;> rfl
      exact (same.good h.good).budget
    obtain ⟨rest, frame, quiet, pedals⟩ := softLetGo_spec sound
    generalize softLetGo (p.replied f [0]) = q at *
    have left := rollCleared_left (q.setFeed q.feed.unload) 0
    have fresh : RollFresh 0 (cancelPlayer (rollCleared 0 (q.setFeed q.feed.unload))) := rollCleared_fresh rfl
    have shades : ShadesHeld p (cancelPlayer (rollCleared 0 (q.setFeed q.feed.unload))) := fun half => by
      have kept := rollCleared_shades (q.setFeed q.feed.unload) 0 half
      have same : (q.setFeed q.feed.unload).expression = p.expression := frame.expression
      rw [same] at kept
      exact kept
    generalize cancelPlayer (rollCleared 0 (q.setFeed q.feed.unload)) = r at *
    have flags : FlagsKept p (raise .started r.cuesInvalid) := by
      refine quiet.flags.trans (FlagsKept.trans (.of_eq ?_) (.raise r.cuesInvalid rfl))
      exact left.notices
    refine ⟨_, taken, rfl, left.settings.trans frame.settings, left.store.trans frame.store, fun k => ?_, ?_, ?_, fun d => ?_,
      ?_, fresh.ring, fresh.tracks, ?_, ?_, fresh.lead, fresh.cues, rfl, left.player, shades, fresh.demands,
      raise_own_flag _ rfl, flags, ?_, ?_, ?_, ?_, ?_, ?_⟩
    · exact (left.key k).trans (rest.keys k)
    · change ∀ k, r.arbiter.grants[keyLineNo k] = none
      rw [left.arbiter]
      exact rest.places
    · change ∀ e ∈ r.arbiter.wait, e.isKey = false
      rw [left.arbiter]
      exact rest.entries
    · change (r.pedal d).Down ∧ (r.pedal d).faulted = false ∧ (r.pedal d).fault = .none
      rw [left.pedals d, Part.setFeed_pedal]
      exact pedals d
    · refine left.feed.trans ?_
      rw [Part.setFeed_feed, frame.feed]
      rfl
    · exact left.specks.trans (congrArg TrackDecoder.specks frame.tracks)
    · exact left.patches.trans (congrArg TrackDecoder.patches frame.tracks)
    · exact (congrArg Notices.mask left.notices).trans frame.mask
    · exact (congrArg Notices.faultMask left.notices).trans frame.faultMask
    · exact (congrArg Notices.restingMask left.notices).trans frame.restingMask
    · exact (congrArg DriveSequencer.holdCuts left.keys).trans quiet.cuts
    · exact (congrArg DriveSequencer.reported left.keys).trans frame.reported
    · have link := (raise_frame .started r.cuesInvalid).link
      have kept : r.cuesInvalid.link = { (p.replied f [0]).link with noticeAsked := q.link.noticeAsked } :=
        left.link.trans frame.link
      refine link.trans ?_
      rw [kept]
      rfl

end Sys2Proof.Machine
end

section
/-! PROOFS. The lead decoder (R159, R160): it examines one row, and the rows held up to PedalLead beyond the head row. -/

namespace Sys2Proof.Machine

section
variable {p q : Part}

/-! ### One row -/

/-- The move of the lead track of a role that no half divides (R159). -/
theorem moveLead_spec {t : Settings} (legal : mapLegal t.trackMap) {f : TrackFunction} (target : f ≠ .none)
    (noKey : f ≠ .key) (whole : f.isExpression = false) (row : StoredRow) (d : Debounce) :
    (∀ u : TrackNo, t.trackMap[u].function = f →
        moveLead t f row d = moveTrack t.onRows t.offRows row.number (row.holes.getLsbD t.trackMap[u].source.val) d)
      ∧ ((∀ u : TrackNo, t.trackMap[u].function ≠ f) →
        (moveLead t f row d).state = .closed ∧ (moveLead t f row d).event = .none) := by
  refine ⟨fun u hu => ?_, fun none => ?_⟩
  · have found : t.trackOf f .bass = some u := trackOf_eq legal hu (fun c => by rw [whole] at c; cases c) target noKey
    rw [moveLead, found]
    rfl
  · have missing : t.trackOf f .bass = Option.none := by
      cases hu : t.trackOf f .bass with
      | none => rfl
      | some u => exact absurd (trackOf_some hu).1 (none u)
    rw [moveLead, missing]
    exact ⟨rfl, rfl⟩

theorem isOnset_iff (e : TrackEvent) : e.isOnset = true ↔ ∃ row, e = .onset row := by
  cases e <;> simp [TrackEvent.isOnset]

theorem leadOnset_eq (p : Part) :
    leadOnset p = if p.pedals.damper.faulted = false
        ∧ (p.pedals.damper.state = .lowered ∨ p.pedals.damper.state = .dropping)
      then liftPedal .damper (if p.pedals.lead.lift.level then .full else .part) p else p := by
  rw [leadOnset]
  simp only [and_comm]

/-- The lead decoder examines a row (R159, R160). -/
theorem examineRow_examined (legal : mapLegal p.settings.trackMap) (row : StoredRow) :
    LeadExamined row p (examineRow row p) := by
  refine ⟨moveLead p.settings .damperLift row p.pedals.lead.lift,
    moveLead p.settings .damperFeather row p.pedals.lead.feather,
    moveLead_spec legal (by decide) (by decide) rfl row _, moveLead_spec legal (by decide) (by decide) rfl row _, ?_⟩
  unfold examineRow
  dsimp only
  generalize moveLead p.settings .damperLift row p.pedals.lead.lift = lift
  generalize moveLead p.settings .damperFeather row p.pedals.lead.feather = feather
  have onset : (lift.event.isOnset || feather.event.isOnset) = true
      ↔ (∃ r, lift.event = .onset r) ∨ ∃ r, feather.event = .onset r := by
    rw [Bool.or_eq_true, isOnset_iff, isOnset_iff]
  rw [leadOnset_eq]
  refine ⟨fun ⟨begins, rest⟩ => ?_, fun out => ?_⟩
  · rw [if_pos (onset.2 begins)]
    exact if_pos rest
  · split
    · next begins => exact if_neg fun rest => out ⟨onset.1 begins, rest⟩
    · rfl

/-! ### The rows ahead -/

theorem examineRow_next (row : StoredRow) (p : Part) :
    (examineRow row p).settings = p.settings ∧ (examineRow row p).pedals.lead.next = row.number + 1 := by
  obtain ⟨l, after, same⟩ := examineRow_same row p
  exact ⟨same.settings, same.lead.trans after⟩

/-- The rows of a list that the lead decoder has not examined, up to a last row. -/
def rowsAhead (next last : Nat) (rows : List StoredRow) : List StoredRow :=
  rows.filter fun row => decide (next ≤ row.number ∧ row.number ≤ last)

/-- Of rows numbered from `n` on, the lead decoder examines those from its next row on, up to the last row (R159). -/
theorem examineFrom_chain {n last : Nat} {rows : List StoredRow} (legal : mapLegal p.settings.trackMap)
    (numbers : rows.map StoredRow.number = List.range' n rows.length) (reached : n ≤ p.pedals.lead.next) :
    LeadChain (rowsAhead p.pedals.lead.next last rows) p (examineFrom last rows p) := by
  induction rows generalizing n p with
  | nil => exact .done
  | cons row rest ih =>
    rw [List.map_cons, List.length_cons, List.range'_succ] at numbers
    obtain ⟨first, more⟩ := List.cons.inj numbers
    have later : ∀ x ∈ rest, n + 1 ≤ x.number := fun x hx => by
      have inRange := List.mem_map_of_mem (f := StoredRow.number) hx
      rw [more, List.mem_range'_1] at inRange
      exact inRange.1
    unfold rowsAhead
    rw [examineFrom, List.filter_cons]
    by_cases below : row.number < p.pedals.lead.next
    · rw [if_pos below, if_neg (by rw [decide_eq_true_eq]; omega)]
      exact ih legal more (by omega)
    · have here : row.number = p.pedals.lead.next := by omega
      rw [if_neg below]
      by_cases within : row.number ≤ last
      · obtain ⟨settings, next⟩ := examineRow_next row p
        rw [if_pos (by rw [decide_eq_true_eq]; omega), if_pos ⟨here, within⟩]
        refine .next (examineRow_examined legal row) ?_
        have chain := ih (p := examineRow row p) (by rwa [settings]) more (by omega)
        have same : rowsAhead (examineRow row p).pedals.lead.next last rest
            = rowsAhead p.pedals.lead.next last rest := by
          refine List.filter_congr fun x hx => ?_
          have := later x hx
          rw [decide_eq_decide, next]
          omega
        rwa [same] at chain
      · rw [if_neg (by rw [decide_eq_true_eq]; omega), if_neg fun c => within c.2, List.filter_eq_nil_iff.2]
        · exact .done
        · intro x hx
          have := later x hx
          rw [decide_eq_true_eq]
          omega

theorem settings_map_legal (legal : p.settings.legal) : mapLegal p.settings.trackMap := by
  obtain ⟨⟨-, -, -, -, -, -, -, map, -⟩, -⟩ := legal
  exact map

theorem PaperAt.mono {shaded followed followed' : Prop} {head lowest : Nat} (h : PaperAt shaded head lowest followed p)
    (le : followed' → followed) : PaperAt shaded head lowest followed' p :=
  ⟨h.legal, h.ring, h.shades, h.place, h.fraction, h.q, fun f => h.lead (le f)⟩

/-- The lead decoder looks ahead (R159). -/
theorem examineAhead_ahead {shaded : Prop} {head lowest : Nat} (paper : PaperAt shaded head lowest (p.settings.pedalLead ≠ 0) p)
    (le : head ≤ lowest) : LeadAhead p (examineAhead p) := by
  unfold LeadAhead examineAhead
  split
  · rfl
  · next some =>
    exact examineFrom_chain (settings_map_legal paper.legal) paper.numbers (le.trans (paper.lead some).1)

end

end Sys2Proof.Machine
end

section
/-! PROOFS. Cue actions (R35): each moves the Feed Clock, and PAUSE and the end of the roll let the lines and the played
pedals go, once. -/

namespace Sys2Proof.Machine

section
variable {p q r : Part} {key : KeyNo → KeyLine} {d e : Pedal}

/-! ### What has been let go stays so -/

theorem KeyLine.released_again {l : KeyLine} (hold : l.state = .hold → l.pending = none) (t : Settings) (now : Time) :
    (l.released false t now).released false t now = l.released false t now := by
  cases hs : l.state with
  | idle | queued => simp [KeyLine.released, hs]
  | kick => cases hp : l.plan <;> simp [KeyLine.released, KeyLine.letGo, hs, hp]
  | hold => simp [KeyLine.released, KeyLine.letGo, hs, hold hs]
  | release =>
    by_cases none : l.pending = Option.none
    · simp [KeyLine.released, hs, none]
    · by_cases done : l.guardDone = true <;> simp [KeyLine.released, hs, none, done]
  | faulted => simp [KeyLine.released, hs]

/-- A drop leaves a pedal that is down (R152). -/
theorem KeysAtRest.drop_down (h : KeysAtRest key q) (down : (q.pedal e).Down) (d : Pedal) :
    (dropPedal d q).pedal e = q.pedal e := by
  by_cases he : e = d
  · subst he
    have waiting := down.not_waiting
    rw [dropPedal_eq waiting, Part.pedal_setPedal_same]
    rcases down with hs | hs | ⟨hs, mark⟩
    · rw [PedalRecord.dropped, hs]
    · rw [PedalRecord.dropped, hs]
    · rw [PedalRecord.dropped, hs]
      cases hr : q.pedal e
      simp_all
  · exact (h.drop d).2.2 e he down.not_waiting

theorem KeysAtRest.dropPlayedRail_down (h : KeysAtRest key q) (down : (q.pedal e).Down) (half : Half) :
    KeysAtRest key (dropPlayedRail half q) ∧ (dropPlayedRail half q).pedal e = q.pedal e := by
  unfold dropPlayedRail
  split
  · exact ⟨(h.drop _).1, h.drop_down down _⟩
  · exact ⟨(h.drop _).1, h.drop_down down _⟩
  · exact ⟨h, rfl⟩
  · exact ⟨h, rfl⟩

/-- PAUSE and the end of the roll leave a pedal that is down. -/
theorem releasePlay_down (h : BudgetSound p) (down : (p.pedal e).Down) : (releasePlay p).pedal e = p.pedal e := by
  obtain ⟨rest, kept⟩ := releaseKeyLines_rest h false
  have released := kept e down.not_waiting
  rw [← released] at down
  have damper := rest.drop_down down .damper
  rw [← damper] at down
  have bass := (rest.drop .damper).1.dropPlayedRail_down down .bass
  rw [← bass.2] at down
  have treble := bass.1.dropPlayedRail_down down .treble
  exact treble.2.trans (bass.2.trans (damper.trans released))

theorem PlayReleased.pedal (h : PlayReleased p q) :
    PedalDropped .damper p q ∧ ∀ half, (p.settings.playsRail half → PedalDropped (railOf half) p q)
      ∧ (¬ p.settings.playsRail half → PedalKept (railOf half) p q) := by
  obtain ⟨-, -, -, damper, rails⟩ := h
  refine ⟨damper, fun half => ?_⟩
  have rail := rails half
  refine ⟨fun plays => ?_, fun plays => ?_⟩
  · obtain ⟨down, fallen⟩ : RailDropped half p q := (if_pos plays).mp rail
    refine ⟨down, ?_⟩
    rw [ofPedal_railOf]
    exact fallen
  · exact (if_neg plays).mp rail

/-- The play that has been let go once, let go again, is as it was (R31). -/
theorem PlayReleased.again (h : PlayReleased p q) (sound : BudgetSound p) (after : BudgetSound q) (frame : LinesOnly p q) :
    PlayReleased p (releasePlay q) := by
  have gone := releasePlay_released after
  obtain ⟨damper, rails⟩ := h.pedal
  obtain ⟨-, laterRails⟩ := gone.pedal
  obtain ⟨keys, -⟩ := h
  obtain ⟨later, places, entries, -⟩ := gone
  have down := fun d => releasePlay_down (e := d) after
  generalize releasePlay q = r at *
  have stays : ∀ d, PedalDropped d p q → PedalDropped d p r := fun d dropped =>
    dropped.kept fun _ => down d dropped.1
  refine ⟨fun k => ?_, places, entries, stays _ damper, fun half => ?_⟩
  · obtain ⟨-, -, -, pending, -⟩ := sound.key k
    rw [later, keys, frame.settings, frame.now, KeyLine.released_again]
    intro hold
    refine not_not.1 fun some => ?_
    have := pending some
    simp_all
  · unfold RailPaused
    split
    · next plays => exact (stays _ ((rails half).1 plays)).rail
    · next plays =>
      refine PedalKept.trans ((rails half).2 plays) ((laterRails half).2 ?_)
      rwa [frame.settings]

/-- A raise leaves the lines that were let go. -/
theorem PlayReleased.raise (h : PlayReleased p q) (src : NoticeSource) : PlayReleased p (raise src q) := h

end

/-! ### The Feed Clock -/

/-- The Feed Clock after a cue action (R35). -/
def FeedClock.acted (t : Settings) (a : FiredAction) (f : FeedClock) : FeedClock :=
  match a.action with
  | .notice => f
  | .pause => if f.transport = .running then { f with transport := .paused, starve := none } else f
  | .endRoll =>
    match f.transport with
    | .running | .paused => { f with transport := .ended }
    | .unloaded | .loaded | .starved | .ended => f
  | .tempo => { f with tempo := a.parameter }.recompute
  | .trim => { f with trim := t.clampTrim a.parameter }.recompute

/-- The part whose roll has ended, its play let go (R31). -/
theorem ended_feed (p : Part) (f : FeedClock) : (raise .rollEnded (releasePlay (p.setFeed f))).feed = f := by
  have released := (releasePlay_frame (p.setFeed f)).feed
  generalize releasePlay (p.setFeed f) = q at *
  exact (raise_frame _ q).feed.trans released

theorem endRoll_feed (p : Part) :
    (endRoll p).feed = (match p.feed.transport with
      | .running | .paused => { p.feed with transport := .ended }
      | .unloaded | .loaded | .starved | .ended => p.feed) := by
  unfold endRoll
  cases p.feed.transport with
  | running | paused => exact ended_feed p _
  | unloaded | loaded | starved | ended => rfl

theorem takeCueAction_feed (a : FiredAction) (p : Part) : (takeCueAction a p).feed = p.feed.acted p.settings a := by
  unfold takeCueAction FeedClock.acted
  cases a.action with
  | notice => rfl
  | tempo => rfl
  | trim => rfl
  | pause =>
    dsimp only
    split
    · exact (releasePlay_frame _).feed
    · rfl
  | endRoll => exact endRoll_feed p

end Sys2Proof.Machine
end

section
/-! PROOFS. The cue actions of a row, in whatever order they come (R35): the last TEMPO and the last TRIM stand, and END
outdoes PAUSE. -/

namespace Sys2Proof.Machine

/-- Is there an action of this kind among them? -/
def Acts (as : List FiredAction) (x : CueAction) : Prop := ∃ a ∈ as, a.action = x

section
variable {t : Settings} {as : List FiredAction} {a : FiredAction} {f g : FeedClock}

theorem not_acts_nil {x : CueAction} : ¬ Acts [] x := fun ⟨_, h, _⟩ => nomatch h

theorem acts_append (x : CueAction) : Acts (as ++ [a]) x ↔ Acts as x ∨ a.action = x := by
  simp [Acts, or_and_right, exists_or]

theorem Acts.congr {bs : List FiredAction} (same : ∀ a, a ∈ bs ↔ a ∈ as) (x : CueAction) : Acts bs x ↔ Acts as x :=
  exists_congr fun a => and_congr_left fun _ => same a

/-! ### The Feed Clock -/

/-- What one parameter has become: the last one asked for, or what it was. -/
def LastAsked (as : List FiredAction) (x : CueAction) (took : Nat → Nat) (before after : Nat) : Prop :=
  (¬ Acts as x → after = before) ∧ (Acts as x → ∃ a ∈ as, a.action = x ∧ after = took a.parameter)

theorem LastAsked.append {x : CueAction} {took : Nat → Nat} {before after : Nat} (h : LastAsked as x took before after)
    (other : a.action ≠ x) : LastAsked (as ++ [a]) x took before after := by
  have same : Acts (as ++ [a]) x ↔ Acts as x := (acts_append x).trans (or_iff_left other)
  refine ⟨fun none => h.1 (mt same.2 none), fun some => ?_⟩
  obtain ⟨b, hb, hx, hp⟩ := h.2 (same.1 some)
  exact ⟨b, List.mem_append_left _ hb, hx, hp⟩

theorem LastAsked.asked {x : CueAction} (took : Nat → Nat) (before : Nat) (own : a.action = x) :
    LastAsked (as ++ [a]) x took before (took a.parameter) :=
  ⟨fun none => absurd ((acts_append x).2 (.inr own)) none, fun _ => ⟨a, List.mem_append_right _ (.head _), own, rfl⟩⟩

/-- What the increment has become: R22's, where the tempo or the trim was asked for. -/
def Regrown (as : List FiredAction) (f g : FeedClock) : Prop :=
  (¬ Acts as .tempo → ¬ Acts as .trim → g.qBase = f.qBase ∧ g.q = f.q)
    ∧ (Acts as .tempo ∨ Acts as .trim →
      g.qBase = baseIncrement g.pitch g.tempo g.trim ∧ g.q = increment g.qBase g.buildUp g.rowsTaken)

theorem Regrown.append {g' : FeedClock} (h : Regrown as f g) (tempo : a.action ≠ .tempo) (trim : a.action ≠ .trim)
    (same : g' = { g with transport := g'.transport, starve := g'.starve }) : Regrown (as ++ [a]) f g' := by
  have qBase : g'.qBase = g.qBase := by rw [same]
  have q : g'.q = g.q := by rw [same]
  have pitch : g'.pitch = g.pitch := by rw [same]
  have tempoSame : g'.tempo = g.tempo := by rw [same]
  have trimSame : g'.trim = g.trim := by rw [same]
  have buildUp : g'.buildUp = g.buildUp := by rw [same]
  have rowsTaken : g'.rowsTaken = g.rowsTaken := by rw [same]
  unfold Regrown at *
  rwa [acts_append, acts_append, or_iff_left tempo, or_iff_left trim, qBase, q, pitch, tempoSame, trimSame, buildUp,
    rowsTaken]

theorem recompute_fields (f : FeedClock) :
    f.recompute = { f with
      qBase := baseIncrement f.pitch f.tempo f.trim
      q := increment (baseIncrement f.pitch f.tempo f.trim) f.buildUp f.rowsTaken } := by
  unfold FeedClock.recompute FeedClock.recomputeQ
  rfl

theorem Regrown.recomputed {g' : FeedClock} (asked : a.action = .tempo ∨ a.action = .trim) :
    Regrown (as ++ [a]) f g'.recompute := by
  have some : Acts (as ++ [a]) .tempo ∨ Acts (as ++ [a]) .trim :=
    asked.imp (fun c => (acts_append _).2 (.inr c)) fun c => (acts_append _).2 (.inr c)
  exact ⟨fun tempo trim => absurd some (not_or.2 ⟨tempo, trim⟩), fun _ => by
    rw [recompute_fields]
    exact ⟨by dsimp only, by dsimp only⟩⟩

/-- What the transport has become: END outdoes PAUSE. -/
def Halted (as : List FiredAction) (after : Transport) : Prop :=
  (Acts as .endRoll → after = .ended) ∧ (¬ Acts as .endRoll → Acts as .pause → after = .paused)
    ∧ (¬ Acts as .endRoll → ¬ Acts as .pause → after = .running)

theorem Halted.append {x : Transport} (h : Halted as x) (ends : a.action ≠ .endRoll) (pauses : a.action ≠ .pause) :
    Halted (as ++ [a]) x := by
  unfold Halted at *
  rwa [acts_append, acts_append, or_iff_left ends, or_iff_left pauses]

theorem Halted.ended {x : Transport} (own : a.action = .endRoll) (hx : x = .ended) : Halted (as ++ [a]) x := by
  have some : Acts (as ++ [a]) .endRoll := (acts_append _).2 (.inr own)
  exact ⟨fun _ => hx, fun none => absurd some none, fun none => absurd some none⟩

theorem Halted.paused {x y : Transport} (h : Halted as x) (own : a.action = .pause)
    (hy : y = if x = .running then .paused else x) : Halted (as ++ [a]) y := by
  have some : Acts (as ++ [a]) .pause := (acts_append _).2 (.inr own)
  have same : Acts (as ++ [a]) .endRoll ↔ Acts as .endRoll := (acts_append _).trans (or_iff_left (by rw [own]; nofun))
  unfold Halted at *
  rw [same]
  obtain ⟨ended, paused, running⟩ := h
  refine ⟨fun c => by rw [hy, ended c]; rfl, fun c _ => ?_, fun _ none => absurd some none⟩
  by_cases before : Acts as .pause
  · rw [hy, paused c before]
    rfl
  · rw [hy, running c before]
    rfl

/-- A transport that plays, has paused or has ended is in one of these states. -/
theorem Halted.cases {x : Transport} (h : Halted as x) : x = .running ∨ x = .paused ∨ x = .ended := by
  obtain ⟨ended, paused, running⟩ := h
  by_cases ends : Acts as .endRoll
  · exact .inr (.inr (ended ends))
  · by_cases pauses : Acts as .pause
    · exact .inr (.inl (paused ends pauses))
    · exact .inl (running ends pauses)

/-- A Feed Clock that differs in nothing but what cue actions move. -/
def ClockFrame (f g : FeedClock) : Prop :=
  ∃ transport tempo trim qBase q starve, g = { f with
    transport := transport, tempo := tempo, trim := trim, qBase := qBase, q := q, starve := starve }

theorem ClockFrame.eq (h : ClockFrame f g) : g = { f with
    transport := g.transport, tempo := g.tempo, trim := g.trim, qBase := g.qBase, q := g.q, starve := g.starve } := by
  obtain ⟨transport, tempo, trim, qBase, q, starve, rfl⟩ := h
  rfl

theorem ClockFrame.trans {e : FeedClock} (h : ClockFrame e f) (g' : ClockFrame f g) : ClockFrame e g := by
  obtain ⟨transport, tempo, trim, qBase, q, starve, rfl⟩ := h
  obtain ⟨transport, tempo, trim, qBase, q, starve, rfl⟩ := g'
  exact ⟨_, _, _, _, _, _, rfl⟩

theorem recompute_frame (f : FeedClock) : ClockFrame f f.recompute := by
  obtain ⟨qBase, q, same⟩ := recompute_eq f
  exact ⟨f.transport, f.tempo, f.trim, qBase, q, f.starve, same⟩

/-- What the actions of a row do to a running Feed Clock, one after the other (R35). -/
structure ClockActed (t : Settings) (as : List FiredAction) (f g : FeedClock) : Prop where
  frame : ClockFrame f g
  tempo : LastAsked as .tempo id f.tempo g.tempo
  trim : LastAsked as .trim t.clampTrim f.trim g.trim
  grown : Regrown as f g
  transport : Halted as g.transport

theorem ClockActed.begun (running : f.transport = .running) : ClockActed t [] f f where
  frame := ⟨_, _, _, _, _, _, rfl⟩
  tempo := ⟨fun _ => rfl, fun c => absurd c not_acts_nil⟩
  trim := ⟨fun _ => rfl, fun c => absurd c not_acts_nil⟩
  grown := ⟨fun _ _ => ⟨rfl, rfl⟩, fun c => absurd c (not_or.2 ⟨not_acts_nil, not_acts_nil⟩)⟩
  transport := ⟨fun c => absurd c not_acts_nil, fun _ c => absurd c not_acts_nil, fun _ _ => running⟩

/-- An action that moves the transport alone. -/
theorem ClockActed.moved {g' : FeedClock} (h : ClockActed t as f g) (tempo : a.action ≠ .tempo) (trim : a.action ≠ .trim)
    (same : g' = { g with transport := g'.transport, starve := g'.starve })
    (transport : Halted (as ++ [a]) g'.transport) : ClockActed t (as ++ [a]) f g' where
  frame := h.frame.trans ⟨_, _, _, _, _, _, same⟩
  tempo := by
    rw [same]
    exact h.tempo.append tempo
  trim := by
    rw [same]
    exact h.trim.append trim
  grown := h.grown.append tempo trim same
  transport := transport

theorem ClockActed.next (h : ClockActed t as f g) (a : FiredAction) : ClockActed t (as ++ [a]) f (g.acted t a) := by
  have halted := h.transport
  unfold FeedClock.acted
  cases own : a.action with
  | notice => exact h.moved (by simp [own]) (by simp [own]) rfl (halted.append (by simp [own]) (by simp [own]))
  | pause =>
    refine h.moved (by simp [own]) (by simp [own]) ?_ (halted.paused own ?_)
    · dsimp only
      split <;> rfl
    · dsimp only
      split <;> rfl
  | endRoll =>
    dsimp only
    refine h.moved (by simp [own]) (by simp [own]) ?_ (.ended own ?_)
    · split <;> rfl
    · rcases halted.cases with c | c | c <;> simp [c]
  | tempo =>
    refine ⟨h.frame.trans (.trans ⟨_, _, _, _, _, _, rfl⟩ (recompute_frame _)), .asked id _ own, h.trim.append (by simp [own]), .recomputed (.inl own),
      halted.append (by simp [own]) (by simp [own])⟩
  | trim =>
    refine ⟨h.frame.trans (.trans ⟨_, _, _, _, _, _, rfl⟩ (recompute_frame _)), h.tempo.append (by simp [own]), .asked t.clampTrim _ own, .recomputed (.inr own),
      halted.append (by simp [own]) (by simp [own])⟩

end

end Sys2Proof.Machine
end

section
/-! PROOFS. The Cue Matcher (R64 to R67): the slots that fire on a row, and what their actions do to the part. -/

namespace Sys2Proof.Machine

section
variable {p q : Part} {as : List FiredAction} {a : FiredAction}

/-! ### The actions -/

/-- The set of the slots that have fired is the same. -/
def SameCueSet (p q : Part) : Prop := q.notices.cueSet = p.notices.cueSet

/-- The operations on the lines fire no cue slot. -/
theorem sameCueSet_warming : KeptByWarming SameCueSet where
  refl _ := rfl
  trans h g := Eq.trans g h
  elsewhere same := same.cueSet
  key _ _ _ _ _ := rfl
  pedal _ _ _ _ _ := by rw [SameCueSet, Part.setPedal_notices]
  place _ _ _ := rfl
  wait _ _ := rfl
  ended plan o n p := by
    rw [endPlan_eq_filed, Part.filed, SameCueSet]
    dsimp only
    split <;> rfl
  withdrawal _ := rfl
  late _ := rfl
  mark _ _ _ := by rw [SameCueSet, Part.setPedal_notices]
  warm k n p := by
    rw [gainHeat_eq, SameCueSet]
    split <;> rfl
  forget _ := rfl
  rebase _ := rfl

theorem releasePlay_cueSet (p : Part) : SameCueSet p (releasePlay p) := by
  have warming := sameCueSet_warming
  have rail : ∀ half q, SameCueSet q (dropPlayedRail half q) := fun half q => by
    unfold dropPlayedRail
    split
    · exact warming.dropPedal _ _
    · exact warming.dropPedal _ _
    · exact warming.refl _
    · exact warming.refl _
  refine warming.trans (warming.releaseKeyLines false p) ?_
  exact warming.trans (warming.trans (warming.dropPedal .damper _) (rail .bass _)) (rail .treble _)

/-- What the actions of a row make of a running part (R35). -/
structure CuesActed (p : Part) (as : List FiredAction) (q : Part) : Prop where
  frame : LinesOnly (p.setFeed q.feed) q
  clock : ClockActed p.settings as p.feed q.feed
  cueSet : SameCueSet p q
  still : ¬ Acts as .endRoll → ¬ Acts as .pause → q = p.setFeed q.feed
  sound : BudgetSound p → BudgetSound q
  released : BudgetSound p → Acts as .endRoll ∨ Acts as .pause → PlayReleased p q
  flagged : Acts as .endRoll → q.notices.flag .rollEnded = true

theorem CuesActed.begun (running : p.feed.transport = .running) : CuesActed p [] p where
  frame := .refl p
  clock := .begun running
  cueSet := rfl
  still _ _ := rfl
  sound h := h
  released _ c := absurd c (not_or.2 ⟨not_acts_nil, not_acts_nil⟩)
  flagged c := absurd c not_acts_nil

theorem CuesActed.settings (h : CuesActed p as q) : q.settings = p.settings := h.frame.settings

theorem LinesOnly.setFeed (h : LinesOnly p q) (f : FeedClock) : LinesOnly (p.setFeed f) (q.setFeed f) := by
  obtain ⟨power, now, settings, store, saving, ring, -, tracks, cues, expression, player, reported, tick, lead, lift,
    feather, soft, mask, faultMask, restingMask, link⟩ := h
  exact ⟨power, now, settings, store, saving, ring, rfl, tracks, cues, expression, player, reported, tick, lead, lift,
    feather, soft, mask, faultMask, restingMask, link⟩

/-- The play let go with the transport at rest (R28, R31), after the actions before. -/
structure PlayHalted (q r : Part) : Prop where
  frame : LinesOnly (q.setFeed r.feed) r
  cueSet : SameCueSet q r
  sound : BudgetSound q → BudgetSound r
  released : BudgetSound q → PlayReleased q r
  again : ∀ p, PlayReleased p q → BudgetSound p → BudgetSound q → LinesOnly (p.setFeed q.feed) q → PlayReleased p r

theorem releasePlay_sound (h : BudgetSound p) : BudgetSound (releasePlay p) := (releasePlay_letGo h).rest.budget

theorem releasePlay_halted (q : Part) (f : FeedClock) : PlayHalted q (releasePlay (q.setFeed f)) := by
  have frame := releasePlay_frame (q.setFeed f)
  have cueSet := releasePlay_cueSet (q.setFeed f)
  have sound := fun h => releasePlay_sound (setFeed_budget (p := q) h f)
  have released := fun h => releasePlay_released (setFeed_budget (p := q) h f)
  have again := fun (p : Part) (h : PlayReleased (p.setFeed f) (q.setFeed f)) (before : BudgetSound p)
    (after : BudgetSound q) frame => PlayReleased.again h (setFeed_budget before f) (setFeed_budget after f) frame
  generalize releasePlay (q.setFeed f) = r at *
  have feed : r.feed = f := frame.feed
  subst feed
  exact ⟨frame, cueSet, sound, released, fun p h before after frame => again p h before after (frame.setFeed _)⟩

theorem PlayHalted.raise {r : Part} (h : PlayHalted q r) (src : NoticeSource) : PlayHalted q (raise src r) where
  frame := by
    have frame := h.frame.trans (raise_frame src r)
    rwa [(raise_frame src r).feed]
  cueSet := h.cueSet
  sound c := by
    have same : SameUnits r (Machine.raise src r) := .of_eq rfl rfl rfl (fun _ => rfl) fun _ => rfl
    exact (same.good (h.sound c).good).budget
  released c := (h.released c).raise src
  again p c sound after frame := (h.again p c sound after frame).raise src

/-- An action that lets the play go, after the actions before. -/
theorem CuesActed.halted (h : CuesActed p as q) {r : Part} (halted : PlayHalted q r)
    (feed : r.feed = q.feed.acted p.settings a) (asked : Acts (as ++ [a]) .endRoll ∨ Acts (as ++ [a]) .pause)
    (flagged : Acts (as ++ [a]) .endRoll → r.notices.flag .rollEnded = true) : CuesActed p (as ++ [a]) r where
  frame := (h.frame.setFeed r.feed).trans halted.frame
  clock := feed ▸ h.clock.next a
  cueSet := Eq.trans halted.cueSet h.cueSet
  still ends pauses := absurd asked (not_or.2 ⟨ends, pauses⟩)
  sound c := halted.sound (h.sound c)
  released c _ := by
    by_cases before : Acts as .endRoll ∨ Acts as .pause
    · exact halted.again p (h.released c before) c (h.sound c) h.frame
    · obtain ⟨ends, pauses⟩ := not_or.1 before
      have still := h.still ends pauses
      have gone := halted.released (h.sound c)
      rw [still] at gone
      exact gone
  flagged := flagged

/-- An action that moves the Feed Clock alone. -/
theorem CuesActed.clocked (h : CuesActed p as q) {f : FeedClock} (acted : f = q.feed.acted p.settings a)
    (ends : a.action = .endRoll → Acts as .endRoll)
    (pauses : a.action = .pause → Acts as .endRoll ∨ Acts as .pause) : CuesActed p (as ++ [a]) (q.setFeed f) := by
  have endSame : Acts (as ++ [a]) .endRoll ↔ Acts as .endRoll :=
    (acts_append _).trans ⟨fun c => c.elim id ends, .inl⟩
  have haltSame : Acts (as ++ [a]) .endRoll ∨ Acts (as ++ [a]) .pause ↔ Acts as .endRoll ∨ Acts as .pause := by
    rw [endSame, acts_append]
    exact ⟨fun c => c.elim .inl fun c => c.elim .inr pauses, fun c => c.imp id .inl⟩
  refine ⟨h.frame.setFeed f, acted ▸ h.clock.next a, h.cueSet, fun noEnd noPause => ?_, fun c => setFeed_budget (h.sound c) f,
    fun c some => h.released c (haltSame.1 some), fun some => h.flagged (endSame.1 some)⟩
  obtain ⟨ends, pauses⟩ := not_or.1 (mt haltSame.2 (not_or.2 ⟨noEnd, noPause⟩))
  rw [h.still ends pauses]
  rfl

theorem CuesActed.next (h : CuesActed p as q) (a : FiredAction) : CuesActed p (as ++ [a]) (takeCueAction a q) := by
  have acted := takeCueAction_feed a q
  rw [h.settings] at acted
  obtain ⟨ended, paused, running⟩ := h.clock.transport
  unfold takeCueAction at acted ⊢
  cases own : a.action with
  | notice =>
    rw [own] at acted
    exact h.clocked acted (by rw [own]; nofun) (by rw [own]; nofun)
  | tempo =>
    rw [own] at acted
    exact h.clocked acted (by rw [own]; nofun) (by rw [own]; nofun)
  | trim =>
    rw [own] at acted
    exact h.clocked acted (by rw [own]; nofun) (by rw [own]; nofun)
  | pause =>
    rw [own] at acted
    dsimp only at acted ⊢
    split
    · next runs =>
      rw [if_pos runs] at acted
      refine h.halted (releasePlay_halted q _) acted (.inr ((acts_append _).2 (.inr own))) fun some => ?_
      rcases (acts_append _).1 some with c | c
      · rw [ended c] at runs
        cases runs
      · rw [own] at c
        cases c
    · next runs =>
      rw [if_neg runs] at acted
      refine h.clocked acted (by rw [own]; nofun) fun _ => ?_
      by_contra none
      obtain ⟨ends, pauses⟩ := not_or.1 none
      exact runs (running ends pauses)
  | endRoll =>
    rw [own] at acted
    dsimp only at acted ⊢
    have asked : Acts (as ++ [a]) .endRoll := (acts_append _).2 (.inr own)
    unfold endRoll at acted ⊢
    rcases h.clock.transport.cases with c | c | c
    · rw [c] at acted ⊢
      exact h.halted ((releasePlay_halted q _).raise _) acted (.inl asked) fun _ => raise_own_flag _ rfl
    · rw [c] at acted ⊢
      exact h.halted ((releasePlay_halted q _).raise _) acted (.inl asked) fun _ => raise_own_flag _ rfl
    · rw [c] at acted ⊢
      refine h.clocked acted (fun _ => ?_) (by rw [own]; nofun)
      by_contra ends
      by_cases pauses : Acts as .pause
      · rw [paused ends pauses] at c
        cases c
      · rw [running ends pauses] at c
        cases c

theorem CuesActed.all (running : p.feed.transport = .running) (as : List FiredAction) :
    CuesActed p as (as.foldl (fun q a => takeCueAction a q) p) := by
  induction as using List.reverseRecOn with
  | nil => exact .begun running
  | append_singleton as a ih =>
    rw [List.foldl_append]
    exact ih.next a

/-- The part with its choices of order counted. -/
def Part.chosen (p : Part) (n : Nat) : Part := { p with choices := n }

/-- The actions of a row, in whatever order they come (R35, log entry 1). -/
theorem actions_acted (running : p.feed.transport = .running) (as : List FiredAction) :
    ∃ bs n, (∀ a, a ∈ bs ↔ a ∈ as) ∧ CuesActed (p.chosen n) bs (inAnyOrder as takeCueAction p) :=
  ⟨_, p.choices + (as.length - 1), fun _ => mem_freeOrder,
    CuesActed.all (p := p.chosen (p.choices + (as.length - 1))) running _⟩

end

end Sys2Proof.Machine
end

section
/-! PROOFS. The match of a row's levels with the cue slots (R64 to R67). -/

namespace Sys2Proof.Machine

/-! ### The levels of a row -/

/-- The set of the open tracks, track by track (R55). -/
theorem openTracks_getLsbD (states : Vector Debounce 112) (u : TrackNo) :
    (openTracks states).getLsbD u.val = states[u].level := by
  have long : u.val < states.toList.length := by rw [Vector.length_toList]; exact u.isLt
  rw [openTracks, BitVec.getLsbD_setWidth, BitVec.getLsbD_ofBoolListLE, decide_eq_true u.isLt, Bool.true_and,
    List.getD_eq_getElem?_getD, List.getElem?_map, List.getElem?_eq_getElem long]
  rfl

/-- The levels match a slot where each masked track is as the pattern has it (R64). -/
theorem matchesLevels_iff (c : CueSlot) (states : Vector Debounce 112) :
    c.matchesLevels (openTracks states) = true
      ↔ ∀ u : TrackNo, c.mask.getLsbD u.val = true → states[u].level = c.pattern.getLsbD u.val := by
  rw [CueSlot.matchesLevels, beq_iff_eq]
  constructor
  · intro same u masked
    have bit := congrArg (fun x : TrackSet => x.getLsbD u.val) same
    rwa [BitVec.getLsbD_and, BitVec.getLsbD_and, openTracks_getLsbD, masked, Bool.and_true, Bool.and_true] at bit
  · intro each
    refine BitVec.eq_of_getLsbD_eq fun i hi => ?_
    rw [BitVec.getLsbD_and, BitVec.getLsbD_and]
    cases masked : c.mask.getLsbD i with
    | false => rw [Bool.and_false, Bool.and_false]
    | true =>
      have bit := each ⟨i, hi⟩ masked
      rw [← openTracks_getLsbD] at bit
      rw [Bool.and_true, Bool.and_true]
      exact bit

section
variable {p q : Part} {levels : TrackSet} {i : Fin 4}

/-! ### The slots that fire -/

theorem compares_iff (c : CueSlot) (r : CueRun) : c.compares r = true ↔ c.mask ≠ 0 ∧ r.spent = false := by
  rw [CueSlot.compares, CueSlot.inUse, Bool.and_eq_true, bne_iff_ne, Bool.not_eq_true']

theorem fires_iff (c : CueSlot) (r : CueRun) :
    c.fires r levels = true ↔ c.compares r = true ∧ c.matchesLevels levels = true ∧ r.count + 1 = c.holdRows := by
  rw [CueSlot.fires, Bool.and_eq_true, Bool.and_eq_true, beq_iff_eq, and_assoc]

theorem mem_firingSlots : i ∈ firingSlots levels p ↔ p.settings.cueSlots[i].fires p.cues.runs[i] levels = true := by
  simp [firingSlots, allSlots]

/-- A slot's count and spent flag after a row (R64, R65). -/
theorem nextRun_spec (c : CueSlot) (r : CueRun) (levels : TrackSet) :
    (c.compares r = false → c.nextRun r levels = r)
      ∧ (c.compares r = true → c.matchesLevels levels = false → c.nextRun r levels = { count := 0, spent := false })
      ∧ (c.compares r = true → c.matchesLevels levels = true →
        (c.nextRun r levels).count = (if r.count < c.holdRows then r.count + 1 else r.count)
          ∧ (c.nextRun r levels).spent = (c.once && c.fires r levels)) := by
  unfold CueSlot.nextRun
  refine ⟨fun h => by simp [h], fun h g => ?_, fun h g => ?_⟩
  · have none : c.fires r levels = false := by rw [CueSlot.fires, g, Bool.and_false, Bool.false_and]
    rw [if_pos h, none, Bool.and_false, CueSlot.nextCount, g]
    rfl
  · rw [if_pos h, CueSlot.nextCount, if_pos g]
    exact ⟨rfl, rfl⟩

/-- The actions that a row hands over. -/
def handedActions (levels : TrackSet) (p : Part) : List FiredAction :=
  ((firingSlots levels p).map p.settings.slotAction).filter FiredAction.handed

/-- An action handed over is that of a slot that fires. -/
theorem mem_handedActions {a : FiredAction} (asked : a.action ≠ .notice) :
    a ∈ handedActions levels p ↔ ∃ i ∈ firingSlots levels p, p.settings.slotAction i = a := by
  rw [handedActions, List.mem_filter, List.mem_map, FiredAction.handed, bne_iff_ne]
  exact and_iff_left asked

theorem acts_handed {x : CueAction} (asked : x ≠ .notice) :
    Acts (handedActions levels p) x ↔ ∃ i ∈ firingSlots levels p, p.settings.cueSlots[i].action = x := by
  constructor
  · rintro ⟨a, mem, own⟩
    obtain ⟨i, hi, same⟩ := (mem_handedActions (by rw [own]; exact asked)).1 mem
    exact ⟨i, hi, by rw [← own, ← same]; rfl⟩
  · rintro ⟨i, hi, own⟩
    exact ⟨p.settings.slotAction i, (mem_handedActions (by change p.settings.cueSlots[i].action ≠ _; rw [own]; exact asked)).2
      ⟨i, hi, rfl⟩, own⟩

/-! ### CUE_FIRED -/

/-- The part whose fired slots have joined the slot set, and which may have asked for a notice frame. -/
def Part.fired (p : Part) (set : BitVec 4) (asked : Bool) : Part :=
  { p with
    notices := { p.notices with cueSet := set }
    link := { p.link with noticeAsked := asked } }

/-- Each slot that fires joins the set (R65, R168). -/
theorem raised_fired (is : List (Fin 4)) (p : Part) :
    ∃ set asked, is.foldl (fun q i => raiseCueFired i q) p = p.fired set asked
      ∧ ∀ j : Fin 4, set.getLsbD j.val = true ↔ p.notices.cueSet.getLsbD j.val = true ∨ j ∈ is := by
  induction is generalizing p with
  | nil => exact ⟨p.notices.cueSet, p.link.noticeAsked, rfl, fun j => by simp⟩
  | cons i rest ih =>
    obtain ⟨set, asked, same, members⟩ := ih (raiseCueFired i p)
    refine ⟨set, asked, ?_, fun j => ?_⟩
    · rw [List.foldl_cons, same, raiseCueFired, updateNotices_eq]
      rfl
    · rw [members j, show (raiseCueFired i p).notices.cueSet = p.notices.cueSet ||| 1#4 <<< i.val from rfl,
        mem_or_one_shift, Bool.or_eq_true, beq_iff_eq, List.mem_cons, or_assoc]

/-- A row's levels are matched (R64 to R67). -/
theorem matchCues_acted (levels : TrackSet) (running : p.feed.transport = .running) (valid : p.cues.valid = true) :
    ∃ as n set asked, (∀ a, a ∈ as ↔ a ∈ handedActions levels p)
      ∧ (∀ j : Fin 4, set.getLsbD j.val = true ↔ p.notices.cueSet.getLsbD j.val = true ∨ j ∈ firingSlots levels p)
      ∧ CuesActed (((moveCues levels p).fired set asked).chosen n) as (matchCues levels p) := by
  obtain ⟨set, asked, raised, members⟩ := raised_fired (firingSlots levels p) (moveCues levels p)
  obtain ⟨as, n, same, acted⟩ := actions_acted (p := (moveCues levels p).fired set asked) running (handedActions levels p)
  refine ⟨as, n, set, asked, same, members, ?_⟩
  rw [matchCues, if_pos valid]
  dsimp only
  rw [raised]
  exact acted

end

end Sys2Proof.Machine
end

section
/-! PROOFS. What the Cue Matcher does with the levels of a row (R35, R64 to R67). -/

namespace Sys2Proof.Machine

section
variable {p q : Part} {i : Fin 4}

/-! ### The part in which the slots have fired -/

/-- The levels of the row match a slot (R64). -/
def Part.slotMatched (p : Part) (i : Fin 4) : Prop :=
  ∀ u : TrackNo, p.settings.cueSlots[i].mask.getLsbD u.val = true →
    p.tracks.states[u].level = p.settings.cueSlots[i].pattern.getLsbD u.val

/-- A slot compares rows: it is in use and not spent (R64). -/
def Part.slotCompares (p : Part) (i : Fin 4) : Prop :=
  p.settings.cueSlots[i].mask ≠ 0 ∧ p.cues.runs[i].spent = false

/-- A slot fires on the row (R64, R65). -/
def Part.slotFires (p : Part) (i : Fin 4) : Prop :=
  p.slotCompares i ∧ p.slotMatched i ∧ p.cues.runs[i].count + 1 = p.settings.cueSlots[i].holdRows

/-- An action is asked for by a slot that fires. -/
def Part.slotActs (p : Part) (a : CueAction) : Prop := ∃ i, p.slotFires i ∧ p.settings.cueSlots[i].action = a

/-- The levels of the row, as the Cue Matcher is handed them. -/
def Part.rowLevels (p : Part) : TrackSet := openTracks p.tracks.states

theorem slotFires_iff : p.settings.cueSlots[i].fires p.cues.runs[i] p.rowLevels = true ↔ p.slotFires i := by
  rw [fires_iff, compares_iff, Part.rowLevels, matchesLevels_iff]
  exact Iff.rfl

theorem mem_firing : i ∈ firingSlots p.rowLevels p ↔ p.slotFires i := mem_firingSlots.trans slotFires_iff

theorem slotActs_iff {a : CueAction} (asked : a ≠ .notice) : Acts (handedActions p.rowLevels p) a ↔ p.slotActs a :=
  (acts_handed asked).trans (exists_congr fun _ => and_congr_left fun _ => mem_firing)

theorem moved_run (i : Fin 4) :
    (moveCues p.rowLevels p).cues.runs[i] = p.settings.cueSlots[i].nextRun p.cues.runs[i] p.rowLevels := by
  simp [moveCues]

/-- The counts and spent flags after the row (R64, R65). -/
theorem moved_runs (i : Fin 4) :
    (¬ p.slotCompares i → (moveCues p.rowLevels p).cues.runs[i] = p.cues.runs[i])
      ∧ (p.slotCompares i → ¬ p.slotMatched i →
        (moveCues p.rowLevels p).cues.runs[i] = { count := 0, spent := false })
      ∧ (p.slotCompares i → p.slotMatched i →
        (moveCues p.rowLevels p).cues.runs[i].count
          = (if p.cues.runs[i].count < p.settings.cueSlots[i].holdRows then p.cues.runs[i].count + 1
            else p.cues.runs[i].count)
          ∧ ((moveCues p.rowLevels p).cues.runs[i].spent = true
            ↔ p.settings.cueSlots[i].once = true ∧ p.slotFires i)) := by
  have compares : p.settings.cueSlots[i].compares p.cues.runs[i] = true ↔ p.slotCompares i := compares_iff _ _
  have matched : p.settings.cueSlots[i].matchesLevels p.rowLevels = true ↔ p.slotMatched i := matchesLevels_iff _ _
  obtain ⟨rests, returns, counts⟩ := nextRun_spec p.settings.cueSlots[i] p.cues.runs[i] p.rowLevels
  rw [moved_run]
  refine ⟨fun c => rests (Bool.eq_false_iff.2 (mt compares.1 c)),
    fun c m => returns (compares.2 c) (Bool.eq_false_iff.2 (mt matched.1 m)), fun c m => ?_⟩
  obtain ⟨count, spent⟩ := counts (compares.2 c) (matched.2 m)
  refine ⟨count, ?_⟩
  rw [spent, Bool.and_eq_true, slotFires_iff]

/-- END disarms the cues (R67). -/
theorem moved_valid : (moveCues p.rowLevels p).cues.valid = true ↔ ¬ p.slotActs .endRoll := by
  have any : ((firingSlots p.rowLevels p).any fun i => p.settings.cueSlots[i].action == .endRoll) = true
      ↔ p.slotActs .endRoll := by
    rw [List.any_eq_true]
    exact exists_congr fun i => and_congr mem_firing beq_iff_eq
  rw [← any, Bool.not_eq_true]
  exact iff_of_eq (Bool.not_eq_true' _)

/-- The row's levels are matched, the transport running (R35, R64 to R67). -/
theorem matchCues_matched (running : p.feed.transport = .running) (legal : p.settings.legal) (h : BudgetSound p) :
    CuesMatched p (matchCues p.rowLevels p) := by
  refine ⟨fun invalid => by rw [matchCues, if_neg (by rw [invalid]; nofun)], fun valid => ?_⟩
  obtain ⟨as, n, set, asked, same, members, acted⟩ := matchCues_acted p.rowLevels running valid
  have acts : ∀ {x}, x ≠ .notice → (Acts as x ↔ p.slotActs x) := fun hx =>
    (Acts.congr same _).trans (slotActs_iff hx)
  have before : BudgetSound (((moveCues p.rowLevels p).fired set asked).chosen n) := by
    have alike : SameUnits p (((moveCues p.rowLevels p).fired set asked).chosen n) :=
      .of_eq rfl rfl rfl (fun _ => rfl) fun d => by cases d <;> rfl
    exact (alike.good h.good).budget
  have limits : p.settings.trimLow ≤ p.settings.trimHigh := by
    obtain ⟨⟨-, ⟨-, low⟩, ⟨high, -⟩, -⟩, -⟩ := legal
    exact low.trans high
  have runs := moved_runs (p := p)
  have valid := moved_valid (p := p)
  generalize matchCues p.rowLevels p = q at *
  obtain ⟨frame, ⟨clock, ⟨tempoKept, tempo⟩, ⟨trimKept, trim⟩, ⟨qKept, grown⟩, ⟨ended, paused, halted⟩⟩, cueSet, still,
    -, released, flagged⟩ := acted
  have cues : q.cues = (moveCues p.rowLevels p).cues := frame.cues
  have asks : ∀ {x} {v : Nat} {took : Nat → Nat}, x ≠ CueAction.notice →
      (∃ a ∈ as, a.action = x ∧ v = took a.parameter) →
        ∃ i, p.slotFires i ∧ p.settings.cueSlots[i].action = x ∧ v = took p.settings.cueSlots[i].parameter := by
    rintro x v took hx ⟨a, mem, own, value⟩
    obtain ⟨i, hi, rfl⟩ := (mem_handedActions (by rw [own]; exact hx)).1 ((same a).1 mem)
    exact ⟨i, mem_firing.1 hi, own, value⟩
  have atTempo : Acts as .tempo ↔ p.slotActs .tempo := acts (by decide)
  have atTrim : Acts as .trim ↔ p.slotActs .trim := acts (by decide)
  have atEnd : Acts as .endRoll ↔ p.slotActs .endRoll := acts (by decide)
  have atPause : Acts as .pause ↔ p.slotActs .pause := acts (by decide)
  rw [atTempo] at tempoKept tempo
  rw [atTrim] at trimKept trim
  rw [atTempo, atTrim] at qKept grown
  rw [atEnd] at ended flagged
  rw [atEnd, atPause] at paused halted still released
  refine ⟨fun i => ⟨fun c => ?_, fun c m => ?_, fun c m => ?_, ?_⟩, ?_, fun ends pauses => ?_, clock.eq, tempoKept,
    fun c => asks (by decide) (tempo c), trimKept, fun c => ?_, qKept, fun c => ?_, fun c => ⟨ended c, flagged c⟩, paused,
    halted, fun c => released before c, frame.settings, frame.store, frame.ring, frame.tracks, frame.expression,
    frame.player, frame.lead⟩
  · rw [cues]
    exact (runs i).1 c
  · rw [cues]
    exact (runs i).2.1 c m
  · rw [cues]
    exact (runs i).2.2 c m
  · rw [show q.notices.cueSet = set from cueSet, members]
    exact or_congr_right mem_firing
  · rw [cues]
    exact valid
  · rw [still ends pauses]
    rfl
  · obtain ⟨i, fires, own, value⟩ := asks (took := p.settings.clampTrim) (by decide) (trim c)
    rw [clampTrim_eq limits] at value
    exact ⟨i, fires, own, value⟩
  · obtain ⟨qBase, q⟩ := grown c
    rw [baseIncrement] at qBase
    exact ⟨qBase, q⟩

end

end Sys2Proof.Machine
end

section
/-! PROOFS. The stages of a take (R14, R21, R51, R159): the head row leaves the ring, every track moves, the events go out,
and the take is reported. -/

namespace Sys2Proof.Machine

section
variable {p q r : Part}

/-! ### What the lead decoder and the pedals' demands leave -/

/-- The part with its levels, demands and shades, the pedals' recorded levels and the lead decoder replaced. -/
def Part.withInputs (p : Part) (x : ExpressionUnit) (u : PedalUnit) : Part :=
  { p with
    expression := x
    pedals := { p.pedals with
      liftLevel := u.liftLevel, featherLevel := u.featherLevel, softLevel := u.softLevel, lead := u.lead } }

/-- `q` differs from `p` in nothing but these inputs and the lines they move. -/
def InputsOnly (p q : Part) : Prop := ∃ x u, LinesOnly (p.withInputs x u) q

theorem LinesOnly.withInputs (h : LinesOnly p q) (x : ExpressionUnit) (u : PedalUnit) :
    LinesOnly (p.withInputs x u) (q.withInputs x u) := by
  obtain ⟨power, now, settings, store, saving, ring, feed, tracks, cues, -, player, reported, tick, -, -, -, -, mask,
    faultMask, restingMask, link⟩ := h
  exact ⟨power, now, settings, store, saving, ring, feed, tracks, cues, rfl, player, reported, tick, rfl, rfl, rfl, rfl,
    mask, faultMask, restingMask, link⟩

namespace InputsOnly

theorem of_frame (h : LinesOnly p q) : InputsOnly p q := ⟨p.expression, p.pedals, h⟩

theorem refl (p : Part) : InputsOnly p p := of_frame (.refl p)

theorem trans (h : InputsOnly p q) (g : InputsOnly q r) : InputsOnly p r := by
  obtain ⟨x, u, h⟩ := h
  obtain ⟨y, v, g⟩ := g
  exact ⟨y, v, (h.withInputs y v).trans g⟩

theorem settings (h : InputsOnly p q) : q.settings = p.settings := h.choose_spec.choose_spec.settings
theorem now (h : InputsOnly p q) : q.now = p.now := h.choose_spec.choose_spec.now
theorem store (h : InputsOnly p q) : q.store = p.store := h.choose_spec.choose_spec.store
theorem ring (h : InputsOnly p q) : q.ring = p.ring := h.choose_spec.choose_spec.ring
theorem feed (h : InputsOnly p q) : q.feed = p.feed := h.choose_spec.choose_spec.feed
theorem tracks (h : InputsOnly p q) : q.tracks = p.tracks := h.choose_spec.choose_spec.tracks
theorem cues (h : InputsOnly p q) : q.cues = p.cues := h.choose_spec.choose_spec.cues
theorem player (h : InputsOnly p q) : q.player = p.player := h.choose_spec.choose_spec.player

/-- New levels, demands or shades. -/
theorem expression (p : Part) (x : ExpressionUnit) : InputsOnly p { p with expression := x } :=
  ⟨x, p.pedals, .refl _⟩

/-- A new lead decoder. -/
theorem setLead (p : Part) (l : LeadDecoder) : InputsOnly p (p.setLead l) :=
  ⟨p.expression, { p.pedals with lead := l }, .refl _⟩

end InputsOnly

/-! ### The demands on the pedals -/

theorem moveRail_inputs (d : Pedal) (up : Bool) (p : Part) : InputsOnly p (moveRail d up p) := by
  unfold moveRail
  split
  · exact .of_frame (liftPedal_frame _ _ p)
  · exact .of_frame (dropPedal_frame _ p)

theorem demandDamper_inputs (p : Part) : InputsOnly p (demandDamper p) := by
  unfold demandDamper
  split
  · exact .of_frame (liftPedal_frame _ _ p)
  · exact .of_frame (dropPedal_frame _ p)

theorem resyncRail_inputs (half : Half) (p : Part) : InputsOnly p (resyncRail half p) := by
  unfold resyncRail
  split
  · exact (InputsOnly.expression p _).trans (moveRail_inputs _ _ _)
  all_goals exact moveRail_inputs _ _ p

theorem resyncPedal_inputs (d : Pedal) (p : Part) : InputsOnly p (resyncPedal d p) := by
  unfold resyncPedal
  split
  · exact .refl p
  · cases d with
    | damper => exact demandDamper_inputs p
    | bassRail => exact resyncRail_inputs _ p
    | trebleRail => exact resyncRail_inputs _ p

/-- A re-sync moves demands and lines alone (R157). -/
theorem resyncPedals_inputs (p : Part) : InputsOnly p (resyncPedals p) :=
  ((resyncPedal_inputs .damper p).trans (resyncPedal_inputs .bassRail _)).trans (resyncPedal_inputs .trebleRail _)

theorem followSoft_inputs (half : Half) (p : Part) : InputsOnly p (followSoft half p) := by
  unfold followSoft
  split
  · exact moveRail_inputs _ _ p
  · exact .refl p

theorem takeSoftLevel_inputs (level : Bool) (p : Part) : InputsOnly p (takeSoftLevel level p) := by
  have recorded : InputsOnly p { p with pedals := { p.pedals with softLevel := level } } :=
    ⟨p.expression, { p.pedals with softLevel := level }, .refl _⟩
  exact recorded.trans ((followSoft_inputs .bass _).trans (followSoft_inputs .treble _))

theorem takeLiftLevel_inputs (level : Bool) (p : Part) : InputsOnly p (takeLiftLevel level p) := by
  have recorded : InputsOnly p { p with pedals := { p.pedals with liftLevel := level } } :=
    ⟨p.expression, { p.pedals with liftLevel := level }, .refl _⟩
  exact recorded.trans (demandDamper_inputs _)

theorem takeFeatherLevel_inputs (level : Bool) (p : Part) : InputsOnly p (takeFeatherLevel level p) := by
  have recorded : InputsOnly p { p with pedals := { p.pedals with featherLevel := level } } :=
    ⟨p.expression, { p.pedals with featherLevel := level }, .refl _⟩
  exact recorded.trans (demandDamper_inputs _)

/-! ### The events of a row -/

/-- An event moves inputs and lines alone (R52 to R54). -/
theorem handEvent_inputs (u : TrackNo) (event : TrackEvent) (p : Part) : InputsOnly p (handEvent u event p) := by
  unfold handEvent
  dsimp only
  cases event with
  | none => exact .refl p
  | onset row =>
    dsimp only
    cases p.settings.trackMap[u].function with
    | none => exact .refl p
    | key => exact .of_frame (takeOnset_frame _ p)
    | damperLift => exact takeLiftLevel_inputs true p
    | damperFeather => exact takeFeatherLevel_inputs true p
    | soft => exact takeSoftLevel_inputs true p
    | step1 | step2 | step4 | swell | quick | accent => exact .expression p _
  | offset =>
    dsimp only
    cases p.settings.trackMap[u].function with
    | none => exact .refl p
    | key => exact .of_frame (noteOff_frame _ p)
    | damperLift => exact takeLiftLevel_inputs false p
    | damperFeather => exact takeFeatherLevel_inputs false p
    | soft => exact takeSoftLevel_inputs false p
    | step1 | step2 | step4 | swell | quick | accent => exact .expression p _

theorem handOut_inputs (events : Vector TrackEvent 112) (p : Part) : InputsOnly p (handOut events p) := by
  unfold handOut
  generalize allTracks = us
  induction us generalizing p with
  | nil => exact .refl p
  | cons u rest ih => exact (handEvent_inputs u _ p).trans (ih _)

/-! ### The lead decoder -/

theorem examineRow_inputs (row : StoredRow) (p : Part) : InputsOnly p (examineRow row p) := by
  unfold examineRow
  dsimp only
  split
  · exact (InputsOnly.setLead p _).trans (.of_frame (leadOnset_frame _))
  · exact .setLead p _

theorem examineFrom_inputs (last : Nat) (rows : List StoredRow) (p : Part) : InputsOnly p (examineFrom last rows p) := by
  induction rows generalizing p with
  | nil => exact .refl p
  | cons row rest ih =>
    rw [examineFrom]
    split
    · exact ih p
    · split
      · exact (examineRow_inputs row p).trans (ih _)
      · exact .refl p

theorem examineAhead_inputs (p : Part) : InputsOnly p (examineAhead p) := by
  unfold examineAhead
  split
  · exact .refl p
  · exact examineFrom_inputs _ _ p

theorem examineBeforeTake_inputs (row : StoredRow) (p : Part) : InputsOnly p (examineBeforeTake row p) := by
  unfold examineBeforeTake
  split
  · exact examineRow_inputs row p
  · exact .refl p

theorem examineAfterTake_inputs (p : Part) : InputsOnly p (examineAfterTake p) := by
  unfold examineAfterTake
  split
  · exact .setLead p _
  · exact examineAhead_inputs p

/-! ### The report of a take (R21) -/

theorem increment_grown (f : FeedClock) : increment f.qBase f.buildUp f.rowsTaken = f.grown := by
  unfold increment FeedClock.grown
  rfl

theorem countTake_grown (f : FeedClock) :
    f.countTake = if (f.rowsTaken + 1) % 1000 = 0
      then { f with taken := true, rowsTaken := f.rowsTaken + 1
                    q := ({ f with taken := true, rowsTaken := f.rowsTaken + 1 } : FeedClock).grown }
      else { f with taken := true, rowsTaken := f.rowsTaken + 1 } := by
  rw [FeedClock.countTake, ← increment_grown]
  rfl

theorem endsAt_iff (f : FeedClock) (row : Nat) :
    f.endsAt row = true ↔ if f.endRow = 0 then row = 2147483647 else row = f.endRow := by
  unfold FeedClock.endsAt
  split <;> exact beq_iff_eq

theorem countTake_endsAt (f : FeedClock) (row : Nat) : f.countTake.endsAt row = f.endsAt row := by
  unfold FeedClock.endsAt FeedClock.countTake
  dsimp only
  split <;> rfl

/-- The roll ends (R31). -/
theorem endRoll_released (h : BudgetSound p) (state : p.feed.transport = .running ∨ p.feed.transport = .paused) :
    (endRoll p).feed = { p.feed with transport := .ended } ∧ PlayReleased p (endRoll p) ∧ RollKept p (endRoll p)
      ∧ (endRoll p).notices.flag .rollEnded = true := by
  have same : endRoll p = raise .rollEnded (releasePlay (p.setFeed { p.feed with transport := .ended })) := by
    unfold endRoll
    rcases state with c | c <;> rw [c]
  rw [same]
  have sound := setFeed_budget h { p.feed with transport := .ended }
  have released := releasePlay_released sound
  have frame := releasePlay_frame (p.setFeed { p.feed with transport := .ended })
  generalize releasePlay (p.setFeed { p.feed with transport := .ended }) = q at *
  exact ⟨frame.feed, released, ⟨frame.settings, frame.store, frame.ring, frame.tracks, frame.cues, frame.expression,
    frame.player⟩, raise_own_flag q rfl⟩

theorem reportTake_reported (row : StoredRow) (h : BudgetSound p) : TakeReported row p (reportTake row.number p) := by
  have counted := countTake_grown p.feed
  have ends := endsAt_iff p.feed row.number
  obtain ⟨-, -, transport, -⟩ := countTake_eq p.feed
  unfold TakeReported reportTake
  dsimp only [Part.setFeed]
  rw [countTake_endsAt, ← counted]
  refine ⟨fun none => ?_, fun last state => ?_⟩
  · split
    · next last =>
      have ended := none.resolve_left (not_not.2 (ends.1 last))
      rw [← transport] at ended
      rw [endRoll]
      dsimp only
      rw [ended]
    · rfl
  · rw [if_pos (ends.2 last)]
    rw [← transport] at state
    exact endRoll_released (p := p.setFeed p.feed.countTake) (setFeed_budget h _) state

end

end Sys2Proof.Machine
end

section
/-! PROOFS. The take of a row, stage by stage (R4, R14, R46 to R55, R64 to R67, R159). -/

namespace Sys2Proof.Machine

section
variable {p q : Part} {row : StoredRow}

/-! ### The head row leaves the ring (R4, R14) -/

/-- The part whose ring has given up its head row. -/
def Part.headTaken (p : Part) : Part :=
  { p with ring := { p.ring with
      rows := p.ring.rows.tail
      above := decide (p.settings.ringLow ≤ p.ring.rows.length - 1) } }

theorem takeHead_eq (p : Part) :
    takeHead p = if p.ring.above = true ∧ decide (p.settings.ringLow ≤ p.ring.rows.length - 1) = false
        ∧ p.feed.transport = .running
      then raise .ringLow p.headTaken else p.headTaken := by
  have taken : ({ p with ring := ({ p.ring with rows := p.ring.rows.tail } : RowRing).marked p.settings.ringLow } : Part)
      = p.headTaken := by
    rw [RowRing.marked, RowRing.occupancy, List.length_tail]
    rfl
  rw [takeHead]
  dsimp only
  rw [taken]
  refine if_congr ?_ rfl rfl
  rw [Bool.and_eq_true, Bool.and_eq_true, Bool.not_eq_true', beq_iff_eq, and_assoc]
  rw [RowRing.marked, RowRing.occupancy, List.length_tail]

/-! ### Every track moves (R46, R47, R49, R51) -/

/-- The Track Decoder after a row: every track by the table, with specks and patches counted (R46, R47, R49). -/
def TrackDecoder.afterRow (d : TrackDecoder) (t : Settings) (row : StoredRow) : TrackDecoder :=
  let hole := fun u : TrackNo => row.holes.getLsbD t.trackMap[u].source.val
  { states := Vector.ofFn fun u => (moveTrack t.onRows t.offRows row.number (hole u) d.states[u]).state
    specks := min (d.specks + ((List.finRange 112).filter fun u =>
      !hole u && (match d.states[u] with | .opening _ _ => true | _ => false)).length) 4294967295
    patches := min (d.patches + ((List.finRange 112).filter fun u =>
      hole u && (match d.states[u] with | .closing _ => true | _ => false)).length) 4294967295 }

theorem moveTrack_speck (onRows offRows n : Nat) (hole : Bool) (d : Debounce) :
    (moveTrack onRows offRows n hole d).speck = (!hole && match d with | .opening _ _ => true | _ => false) := by
  obtain ⟨-, -, speck, -⟩ := moveTrack_table onRows offRows n hole d
  rw [Bool.eq_iff_iff, speck]
  cases hole <;> cases d <;> simp

theorem moveTrack_patch (onRows offRows n : Nat) (hole : Bool) (d : Debounce) :
    (moveTrack onRows offRows n hole d).patch = (hole && match d with | .closing _ => true | _ => false) := by
  obtain ⟨-, -, -, patch⟩ := moveTrack_table onRows offRows n hole d
  rw [Bool.eq_iff_iff, patch]
  cases hole <;> cases d <;> simp

theorem updateTracks_eq (row : StoredRow) (p : Part) :
    updateTracks row p = { p with tracks := p.tracks.afterRow p.settings row } := by
  unfold updateTracks TrackDecoder.afterRow countTracks rowMove
  simp only [moveTrack_speck, moveTrack_patch]
  rfl

/-! ### The events go out (R51) -/

theorem handOut_rowEvents (row : StoredRow) (p q : Part) :
    handOut (rowEvents row p) q = allTracks.foldl (fun r u => handEvent u (rowMove row p u).event r) q := by
  rw [handOut]
  generalize allTracks = us
  refine List.foldl_ext _ _ _ fun r u _ => ?_
  rw [rowEvents, Fin.getElem_fin, Vector.getElem_ofFn]

/-- The row is decoded: its tracks have moved, its events have gone out, and its levels are handed to the Cue Matcher
(R51). -/
def handedRow (row : StoredRow) (p : Part) : Part := handOut (rowEvents row p) (updateTracks row p)

theorem decodeRow_eq (row : StoredRow) (p : Part) :
    decodeRow row p = reportTake row.number (matchCues (handedRow row p).rowLevels (handedRow row p)) := by
  unfold decodeRow Part.rowLevels handedRow
  dsimp only

theorem handedRow_roll (row : StoredRow) (p : Part) : SameRoll p (handedRow row p) :=
  sameRoll_play.trans (sameRoll_play.setTracks _ p) (sameRoll_play.handOut _ _)

theorem handedRow_good {dr : Bool} (row : StoredRow) (h : Good dr p) : Good dr (handedRow row p) := by
  have ops := (goodKept_ops dr).roll
  exact ops.handOut _ _ (ops.setTracks _ p h)

theorem takeHead_good {dr : Bool} (h : Good dr p) : Good dr (takeHead p) := by
  have ops := (goodKept_ops dr).roll
  rw [takeHead_eq]
  split
  · exact ops.raise _ _ (ops.setRing _ p h)
  · exact ops.setRing _ p h

theorem examineBeforeTake_good {dr : Bool} (row : StoredRow) (h : Good dr p) : Good dr (examineBeforeTake row p) := by
  unfold examineBeforeTake
  split
  · exact (goodKept_ops dr).roll.examineRow row p h
  · exact h

end

end Sys2Proof.Machine
end

section
/-! PROOFS. The take of a row whole (R51, R159): `RowTaken`, and what it does to the ring and the Feed Clock. -/

namespace Sys2Proof.Machine

section
variable {p q : Part} {row : StoredRow}

theorem handedRow_eq (row : StoredRow) (settings : q.settings = p.settings) (tracks : q.tracks = p.tracks) :
    handedRow row q = allTracks.foldl (fun r u => handEvent u (moveTrack p.settings.onRows p.settings.offRows row.number
        (row.holes.getLsbD p.settings.trackMap[u].source.val) p.tracks.states[u]).event r)
      { q with tracks := p.tracks.afterRow p.settings row } := by
  rw [handedRow, handOut_rowEvents, updateTracks_eq]
  unfold rowMove holeAt
  rw [settings, tracks]

theorem examineBeforeTake_examined (legal : mapLegal p.settings.trackMap) (row : StoredRow) :
    (p.settings.pedalLead ≠ 0 → p.pedals.lead.next ≤ row.number → LeadExamined row p (examineBeforeTake row p))
      ∧ (p.settings.pedalLead = 0 ∨ row.number < p.pedals.lead.next → examineBeforeTake row p = p) := by
  unfold examineBeforeTake
  refine ⟨fun some next => ?_, fun none => if_neg fun c => ?_⟩
  · rw [if_pos ⟨some, next⟩]
    exact examineRow_examined legal row
  · rcases none with none | past
    · exact c.1 none
    · exact absurd c.2 (Nat.not_le.2 past)

/-- The lead decoder after the take (R159). -/
theorem examineAfterTake_ahead (h : RollSound False (p.settings.pedalLead ≠ 0) p) :
    (p.settings.pedalLead = 0 → examineAfterTake p = { p with pedals := { p.pedals with
        lead := { p.pedals.lead with next := p.feed.headRow } } })
      ∧ (p.settings.pedalLead ≠ 0 → LeadAhead p (examineAfterTake p)) := by
  unfold examineAfterTake
  refine ⟨fun none => if_pos none, fun some => ?_⟩
  rw [if_neg some]
  exact examineAhead_ahead h.paper (le_refl _)

/-- The take of a row keeps the settings up to its report. -/
theorem takeHead_paper (p : Part) : (takeHead p).settings = p.settings ∧ (takeHead p).tracks = p.tracks
    ∧ (takeHead p).feed = p.feed := by
  rw [takeHead_eq]
  split <;> exact ⟨rfl, rfl, rfl⟩

theorem takeHead_of {ring : RowRing} {low : Nat} {transport : Transport} (hr : p.ring = ring)
    (hl : p.settings.ringLow = low) (ht : p.feed.transport = transport) :
    let given : Part := { p with ring := { ring with rows := ring.rows.tail, above := decide (low ≤ ring.rows.length - 1) } }
    takeHead p = if ring.above = true ∧ decide (low ≤ ring.rows.length - 1) = false ∧ transport = .running
      then raise .ringLow given else given := by
  subst hr hl ht
  exact takeHead_eq p

/-- A row that is due is taken whole. -/
theorem takeRow_taken {rest : List StoredRow} (due : RowIsDue False True p) (rows : p.ring.rows = row :: rest)
    (h : BudgetSound p) : RowTaken row p (takeRow row p) := by
  have legal := due.paper.legal
  have number := due.number rows
  have ops := (goodKept_ops false).roll
  have held : row.number < p.ring.nextExpected := due.paper.number_lt (by rw [rows]; exact .head _)
  have led := examineBeforeTake_inputs row p
  obtain ⟨examined, skipped⟩ := examineBeforeTake_examined (settings_map_legal legal) row
  obtain ⟨moved, past⟩ := examineBeforeTake_moved (p := p) row held
  have ledGood := examineBeforeTake_good row h.good
  have mid : MidTake False (p.settings.pedalLead ≠ 0) (takeHead (examineBeforeTake row p)) := by
    refine takeHead_mid (due.moved moved) (by rw [moved.ring, rows]; exact List.cons_ne_nil _ _) fun some => ⟨trivial, ?_⟩
    rw [moved.feed, ← number]
    exact past some
  have givenGood := takeHead_good ledGood
  obtain ⟨settings, tracks, feed⟩ := takeHead_paper (examineBeforeTake row p)
  have headed := takeHead_of led.ring (congrArg Settings.ringLow led.settings) (congrArg FeedClock.transport led.feed)
  unfold takeRow
  generalize examineBeforeTake row p = led' at *
  have handedSame := handedRow_eq row (settings.trans led.settings) (tracks.trans led.tracks)
  have handedGood := handedRow_good row givenGood
  have handedRoll := handedRow_roll row (takeHead led')
  have sound := decodeRow_sound row mid
  rw [decodeRow_eq] at sound ⊢
  generalize handedRow row (takeHead led') = handed at *
  have running : handed.feed.transport = .running := by
    rw [handedRoll.feed, feed, led.feed]
    exact due.running
  have handedSettings : handed.settings = p.settings := handedRoll.settings.trans (settings.trans led.settings)
  have matched := matchCues_matched running (by rwa [handedSettings]) handedGood.budget
  have cuedGood := ops.matchCues handed.rowLevels handed handedGood
  have cuedSettings := (sameSettings_roll.matchCues handed.rowLevels handed).settings.trans handedSettings
  generalize matchCues handed.rowLevels handed = cued at *
  have reported := reportTake_reported row cuedGood.budget
  have reportedSettings := (sameSettings_roll.reportTake row.number cued).settings.trans cuedSettings
  generalize reportTake row.number cued = after at *
  obtain ⟨without, ahead⟩ := examineAfterTake_ahead (p := after) (by rwa [reportedSettings])
  refine ⟨led', cued, after, examined, skipped, ?_, reported,
    fun c => without (by rwa [reportedSettings]), fun c => ahead (by rwa [reportedSettings])⟩
  rw [handedSame, headed] at matched
  exact matched

end

end Sys2Proof.Machine
end

section
/-! PROOFS. What the take of a row does to the ring and the Feed Clock, and the feed tick (R14, R20, R21). -/

namespace Sys2Proof.Machine

section
variable {p q : Part} {row : StoredRow}

/-! ### The Feed Clock through the cues and the report -/

theorem acted_starve (t : Settings) (a : FiredAction) {f : FeedClock} (h : f.starve = none) :
    (f.acted t a).starve = none := by
  unfold FeedClock.acted
  cases a.action with
  | notice => exact h
  | tempo => rw [recompute_fields]; exact h
  | trim => rw [recompute_fields]; exact h
  | pause =>
    dsimp only
    split
    · rfl
    · exact h
  | endRoll =>
    dsimp only
    split
    all_goals exact h

/-- The Cue Matcher leaves the ring, the player and the feed position. -/
theorem matchCues_clock (levels : TrackSet) (running : p.feed.transport = .running) :
    (matchCues levels p).ring = p.ring ∧ (matchCues levels p).player = p.player ∧ ClockFrame p.feed (matchCues levels p).feed
      ∧ ((matchCues levels p).feed.transport = .running ∨ (matchCues levels p).feed.transport = .paused
        ∨ (matchCues levels p).feed.transport = .ended) := by
  cases valid : p.cues.valid with
  | false =>
    rw [matchCues, if_neg (by rw [valid]; nofun)]
    exact ⟨rfl, rfl, ⟨_, _, _, _, _, _, rfl⟩, .inl running⟩
  | true =>
    obtain ⟨_, _, _, _, -, -, acted⟩ := matchCues_acted levels running valid
    exact ⟨acted.frame.ring, acted.frame.player, acted.clock.frame, acted.clock.transport.cases⟩

theorem matchCues_starve (levels : TrackSet) (h : p.feed.starve = none) : (matchCues levels p).feed.starve = none := by
  unfold matchCues
  split
  · refine inAnyOrder_keeps (P := fun q => q.feed.starve = none) ?_ fun a _ q hq => ?_
    · obtain ⟨set, asked, raised, -⟩ := raised_fired (firingSlots levels p) (moveCues levels p)
      dsimp only
      rw [raised]
      exact h
    · rw [takeCueAction_feed]
      exact acted_starve _ a hq
  · exact h

theorem endRoll_ring (p : Part) : (endRoll p).ring = p.ring ∧ (endRoll p).player = p.player := by
  have frame := releasePlay_frame (p.setFeed { p.feed with transport := .ended })
  have released := And.intro frame.ring frame.player
  unfold endRoll
  generalize releasePlay (p.setFeed { p.feed with transport := .ended }) = q at *
  cases p.feed.transport with
  | running | paused => exact released
  | unloaded | loaded | starved | ended => exact ⟨rfl, rfl⟩

/-- The report of a take leaves the ring and the player, counts the take, and may end the roll (R21). -/
theorem reportTake_clock (n : Nat) (p : Part) :
    (reportTake n p).ring = p.ring ∧ (reportTake n p).player = p.player
      ∧ ((reportTake n p).feed = p.feed.countTake ∨ (reportTake n p).feed = { p.feed.countTake with transport := .ended }) := by
  have ended := endRoll_feed (p.setFeed p.feed.countTake)
  obtain ⟨ring, player⟩ := endRoll_ring (p.setFeed p.feed.countTake)
  unfold reportTake
  dsimp only
  generalize endRoll (p.setFeed p.feed.countTake) = q at *
  split
  · refine ⟨ring, player, ?_⟩
    rw [ended]
    split
    · exact .inr rfl
    · exact .inr rfl
    all_goals exact .inl rfl
  · exact ⟨rfl, rfl, .inl rfl⟩

/-! ### The take -/

/-- A row has been taken: the ring has given up its head row, and the take is counted (R14, R21). -/
structure RowGone (p q : Part) : Prop where
  settings : q.settings = p.settings
  store : q.store = p.store
  rows : q.ring.rows = p.ring.rows.tail
  next : q.ring.nextExpected = p.ring.nextExpected
  reference : q.ring.reference = p.ring.reference
  row : q.feed.row = p.feed.row
  fraction : q.feed.fraction = p.feed.fraction
  taken : q.feed.taken = true
  counted : q.feed.rowsTaken = p.feed.rowsTaken + 1
  transport : q.feed.transport = .running ∨ q.feed.transport = .paused ∨ q.feed.transport = .ended
  starve : p.feed.starve = none → q.feed.starve = none
  player : q.player = p.player

theorem countTake_counted (f : FeedClock) : f.countTake.rowsTaken = f.rowsTaken + 1 ∧ f.countTake.starve = f.starve := by
  unfold FeedClock.countTake
  dsimp only
  split <;> exact ⟨rfl, rfl⟩

theorem handedRow_player (row : StoredRow) (p : Part) : (handedRow row p).player = p.player := by
  rw [handedRow, (handOut_inputs _ _).player, updateTracks_eq]

theorem takeRow_gone (row : StoredRow) (running : p.feed.transport = .running) : RowGone p (takeRow row p) := by
  have same := sameSettings_roll.takeRow row p
  have led := examineBeforeTake_inputs row p
  have given := takeHead_of led.ring (congrArg Settings.ringLow led.settings) (congrArg FeedClock.transport led.feed)
  obtain ⟨-, -, givenFeed⟩ := takeHead_paper (examineBeforeTake row p)
  have givenRing : (takeHead (examineBeforeTake row p)).ring = { p.ring with
      rows := p.ring.rows.tail, above := decide (p.settings.ringLow ≤ p.ring.rows.length - 1) } := by
    rw [given]
    split <;> rfl
  have givenPlayer : (takeHead (examineBeforeTake row p)).player = (examineBeforeTake row p).player := by
    rw [given]
    split <;> rfl
  have after := examineAfterTake_inputs (decodeRow row (takeHead (examineBeforeTake row p)))
  rw [← takeRow] at after
  rw [decodeRow_eq] at after
  have handedPlayer := handedRow_player row (takeHead (examineBeforeTake row p))
  have handed := handedRow_roll row (takeHead (examineBeforeTake row p))
  rw [led.feed] at givenFeed
  generalize takeHead (examineBeforeTake row p) = head at *
  generalize handedRow row head = hand at *
  have handFeed : hand.feed = p.feed := handed.feed.trans givenFeed
  obtain ⟨cuedRing, cuedPlayer, frame, transport⟩ := matchCues_clock (p := hand) hand.rowLevels (by rw [handFeed]; exact running)
  have starve := matchCues_starve (p := hand) hand.rowLevels
  generalize matchCues hand.rowLevels hand = cued at *
  obtain ⟨ring, player, feed⟩ := reportTake_clock row.number cued
  rw [← after.player, cuedPlayer, handedPlayer, givenPlayer, led.player] at player
  rw [← after.ring, cuedRing, handed.ring, givenRing] at ring
  rw [← after.feed] at feed
  rw [handFeed] at frame starve
  generalize takeRow row p = q at *
  obtain ⟨taken, countRow, countTransport, countFraction, -⟩ := countTake_eq cued.feed
  obtain ⟨counted, countStarve⟩ := countTake_counted cued.feed
  have at' := frame.eq
  have report : q.feed = { cued.feed.countTake with transport := q.feed.transport } := by
    rcases feed with feed | feed <;> rw [feed]
  have halted : q.feed.transport = .running ∨ q.feed.transport = .paused ∨ q.feed.transport = .ended := by
    rcases feed with feed | feed <;> rw [feed]
    · rwa [countTransport]
    · exact .inr (.inr rfl)
  refine ⟨same.settings, same.store, by rw [ring], by rw [ring], by rw [ring], ?_, ?_, ?_, ?_, halted, fun none => ?_,
    player⟩
  · rw [report]
    exact countRow.trans (by rw [at'])
  · rw [report]
    exact countFraction.trans (by rw [at'])
  · rw [report]
    exact taken
  · rw [report]
    exact counted.trans (by rw [at'])
  · rw [report]
    exact countStarve.trans (starve none)

end

end Sys2Proof.Machine
end

section
/-! PROOFS. The feed tick (R20, R32). -/

namespace Sys2Proof.Machine

theorem exec_feedTick {s : State} (on : s.part.power = .on) : exec .feedTick s = .next (s.withPart (feedTick s.part)) :=
  whileOn_on on

section
variable {p : Part}

/-- The Feed Clock after a tick that carries, its next row due (R20). -/
def FeedClock.carried (f : FeedClock) (now : Time) : FeedClock :=
  { f with row := f.row + 1, fraction := f.fraction + f.q - 65536, taken := false, nextTick := now + 2 }

theorem feedTick_carries (running : p.feed.transport = .running) (carry : 65536 ≤ p.feed.fraction + p.feed.q) :
    feedTick p = rowDue (p.setFeed (p.feed.carried p.now)) := by
  rw [feedTick]
  dsimp only
  rw [if_pos running, advanceFeed]
  exact if_neg (Nat.not_lt.2 carry)

/-- The Feed Clock of a roll that starves (R32). -/
def FeedClock.starving (f : FeedClock) (t : Settings) (now : Time) : FeedClock :=
  { f with transport := .starved, fraction := 0, starve := some { started := now, hold := t.starveHold } }

theorem enterStarve_eq (p : Part) :
    enterStarve p = if p.settings.starveHold = 0
      then expireStarve (raise .starved (p.setFeed (p.feed.starving p.settings p.now)))
      else raise .starved (p.setFeed (p.feed.starving p.settings p.now)) := rfl

theorem rowDue_absent (none : p.ring.rows = []) : rowDue p = enterStarve p := by
  rw [rowDue, none]

theorem rowDue_held {row : StoredRow} {rest : List StoredRow} (rows : p.ring.rows = row :: rest) :
    rowDue p = takeRow row p := by
  rw [rowDue, rows]

/-- An expiry that comes for a roll that starves (R33). -/
theorem exec_starves {s : State} {q : Part} (on : q.power = .on) (starved : q.feed.transport = .starved)
    (timed : q.feed.starve.isSome = true) :
    exec .starveHoldExpiry (s.withPart q) = .next (s.withPart (expireStarve q)) := by
  rw [exec_starveHoldExpiry (s := s.withPart q) on, starveExpires]
  exact congrArg (fun r => Host.Outcome.next (s.withPart r)) (if_pos ⟨starved, timed⟩)

/-- The part at which a tick's row falls due. -/
theorem carried_due (settings : SettingsSound p) (ring : RingSound p) (feed : FeedSound p) (lead : LeadSound p)
    (running : p.feed.transport = .running) (carry : 65536 ≤ p.feed.fraction + p.feed.q) :
    RowIsDue False True (p.setFeed (p.feed.carried p.now)) := by
  have sound : RollSound False True p := .of settings.1 ring feed nofun fun _ => lead
  have fraction := sound.paper.fraction
  have q := sound.paper.q
  have moved := sound.paper.setFeed (f := p.feed.carried p.now) (by dsimp only [FeedClock.carried]; omega) q
  unfold FeedClock.headRow at moved
  rw [sound.transport.running running] at moved
  exact ⟨moved, running, rfl⟩

end

/-- Settles O38. -/
theorem feedTickMoves : Obligations.FeedTickMoves := by
  intro s on p sum
  rw [exec_feedTick on]
  refine ⟨fun stands => ?_, fun running short => ?_, fun running carry none hold => ?_, fun running carry none hold => ?_,
    fun row rest running carry rows => ?_⟩
  · rw [feedTick]
    dsimp only
    rw [if_neg stands]
    rfl
  · rw [feedTick]
    dsimp only
    rw [if_pos running, advanceFeed]
    exact congrArg (fun q => Host.Outcome.next (s.withPart q)) (if_pos short)
  · rw [feedTick_carries running carry, rowDue_absent (p := p.setFeed (p.feed.carried p.now)) none, enterStarve_eq,
      if_neg (show (p.setFeed (p.feed.carried p.now)).settings.starveHold ≠ 0 from hold)]
    rfl
  · have starves := rowDue_absent (p := p.setFeed (p.feed.carried p.now)) none
    rw [enterStarve_eq, if_pos (show (p.setFeed (p.feed.carried p.now)).settings.starveHold = 0 from hold)] at starves
    have feed : (p.feed.carried p.now).starving p.settings p.now = { p.feed with
        transport := .starved, row := p.feed.row + 1, fraction := 0, taken := false
        starve := some { started := p.now, hold := 0 }, nextTick := p.now + 2 } := by
      rw [FeedClock.starving, hold]
      rfl
    rw [feedTick_carries running carry, starves]
    refine Eq.trans ?_ (exec_starves (by exact on) rfl rfl).symm
    change Host.Outcome.next (s.withPart (expireStarve (raise .starved
      (p.setFeed ((p.feed.carried p.now).starving p.settings p.now))))) = _
    rw [feed]
    rfl
  · have taken := rowDue_held (p := p.setFeed (p.feed.carried p.now)) rows
    rw [feedTick_carries running carry, taken]
    have gone := takeRow_gone (p := p.setFeed (p.feed.carried p.now)) row running
    have whole := fun settings ring feed lead (h : BudgetSound p) =>
      takeRow_taken (carried_due settings ring feed lead running carry) rows (setFeed_budget h _)
    generalize takeRow row (p.setFeed (p.feed.carried p.now)) = q at *
    refine ⟨_, rfl, rfl, gone.row, gone.fraction, gone.taken, gone.counted, ?_, gone.next, gone.reference,
      gone.transport, gone.settings, gone.store, whole⟩
    exact gone.rows.trans (congrArg List.tail rows)

end Sys2Proof.Machine
end

section
/-! PROOFS. RUN (R27, R88, R103, R157, R159). -/

namespace Sys2Proof.Machine

section
variable {p q : Part}

/-! ### A roll that starves (R32, R33) -/

/-- The Feed Clock of a roll that starves, its starve hold at once at its end where it is 0 (R32, R33). -/
def FeedClock.starved (f : FeedClock) (t : Settings) (now : Time) : FeedClock :=
  if t.starveHold = 0 then { f.starving t now with starve := none, starveReleases := bump f.starveReleases }
  else f.starving t now

/-- The starved clock stands at its row, and its starve hold runs unless it is 0. -/
theorem FeedClock.starved_spec (f : FeedClock) (t : Settings) (now : Time) :
    (f.starved t now).transport = .starved ∧ (f.starved t now).row = f.row ∧ (f.starved t now).fraction = 0
      ∧ (f.starved t now).taken = f.taken ∧ (f.starved t now).rowsTaken = f.rowsTaken
      ∧ (t.starveHold ≠ 0 → (f.starved t now).starve = some { started := now, hold := t.starveHold })
      ∧ (t.starveHold = 0 → (f.starved t now).starve = none
        ∧ (f.starved t now).starveReleases = min (f.starveReleases + 1) 4294967295) := by
  unfold FeedClock.starved
  split
  · next zero => exact ⟨rfl, rfl, rfl, rfl, rfl, fun some => absurd zero some, fun _ => ⟨rfl, rfl⟩⟩
  · next some => exact ⟨rfl, rfl, rfl, rfl, rfl, fun _ => rfl, fun zero => absurd zero some⟩

theorem expireStarve_frame (p : Part) :
    LinesOnly (p.setFeed { p.feed with starve := none, starveReleases := bump p.feed.starveReleases }) (expireStarve p)
      ∧ NoCut p (expireStarve p) := by
  have frame := (releaseHolds_frame
    (p.setFeed { p.feed with starve := none, starveReleases := bump p.feed.starveReleases })).trans (dropPedal_frame .damper _)
  have quiet := noCut_warming.trans (noCut_warming.releaseHolds
    (p.setFeed { p.feed with starve := none, starveReleases := bump p.feed.starveReleases })) (noCut_warming.dropPedal .damper _)
  rw [← expireStarve] at frame quiet
  exact ⟨frame, quiet.flags, quiet.cuts⟩

theorem enterStarve_frame (p : Part) :
    LinesOnly (p.setFeed (p.feed.starved p.settings p.now)) (enterStarve p)
      ∧ (enterStarve p).notices.flag .starved = true := by
  have raised := raise_frame .starved (p.setFeed (p.feed.starving p.settings p.now))
  have flagged := raise_own_flag (p.setFeed (p.feed.starving p.settings p.now)) (src := .starved) rfl
  rw [enterStarve_eq, FeedClock.starved]
  have feed := raised.feed
  generalize raise .starved (p.setFeed (p.feed.starving p.settings p.now)) = q at *
  obtain ⟨frame, quiet⟩ := expireStarve_frame q
  split
  · rw [feed] at frame
    exact ⟨(raised.setFeed _).trans frame, quiet.flags _ flagged⟩
  · exact ⟨raised, flagged⟩

/-! ### RUN from LOADED and PAUSED -/

/-- The part in which RUN has cancelled the player and the transport runs (R27, R103). -/
def Part.begun (p : Part) : Part := { p with feed := { p.feed with transport := .running }, player := none }

/-- The part in which the pedals have been re-synced and the lead decoder has looked ahead (R157, R159). -/
def Part.lookedAhead (p : Part) : Part := examineAhead p.begun.resynced

theorem startRunning_eq (p : Part) :
    startRunning p = if p.lookedAhead.feed.taken then p.lookedAhead else rowDue p.lookedAhead := by
  rw [startRunning, resyncPedals_eq]
  rfl

theorem lookedAhead_inputs (p : Part) : InputsOnly p.begun p.lookedAhead := by
  have resynced := resyncPedals_inputs p.begun
  rw [resyncPedals_eq] at resynced
  exact resynced.trans (examineAhead_inputs _)

theorem lookedAhead_budget (h : BudgetSound p) : BudgetSound p.lookedAhead := by
  have ops := (goodKept_ops false).roll
  have begun : Good false p.begun :=
    ops.setPlayer none _ (ops.setFeed { p.feed with transport := .running } p h.good)
  have resynced := ops.resyncPedals _ begun
  rw [resyncPedals_eq] at resynced
  exact (ops.examineAhead _ resynced).budget

theorem resynced_paper (h : RollSound False True p) :
    PaperAt False p.feed.headRow p.feed.headRow True p.begun.resynced ∧ SameRoll p.begun p.begun.resynced := by
  have same := sameRoll_play.resyncPedals p.begun
  rw [resyncPedals_eq] at same
  have begun : SameRoll (p.setFeed { p.feed with transport := .running }) p.begun := sameRoll_play.setPlayer _ _
  have paper := h.paper.setFeed (f := { p.feed with transport := .running }) h.paper.fraction h.paper.q
  exact ⟨(paper.same begun).same same, same⟩

/-- The lead decoder has looked ahead of the head row (R159). -/
theorem lookedAhead_ahead (h : RollSound False True p) : LeadAhead p.begun.resynced p.lookedAhead :=
  examineAhead_ahead ((resynced_paper h).1.mono fun _ => trivial) (le_refl _)

/-- A row not yet taken falls due as play begins. -/
theorem lookedAhead_due (h : RollSound False True p) (untaken : p.feed.taken = false) :
    RowIsDue False True p.lookedAhead := by
  obtain ⟨paper, same⟩ := resynced_paper h
  have begun : SameRoll (p.setFeed { p.feed with transport := .running }) p.begun := sameRoll_play.setPlayer _ _
  have due := h.due (f := { p.feed with transport := .running }) rfl rfl rfl h.paper.fraction h.paper.q untaken
  exact ((due.same begun).same same).moved (examineAhead_moved paper)

end

theorem rowOf_run {f : Frame} (h : f.kind = 0x12) : rowOf f = .run := by
  simp [rowOf, h]

/-- Settles O34. -/
theorem runStarts : Obligations.RunStarts := by
  intro s f hf hk p
  obtain ⟨long, taken⟩ := takeRequest_empty (c := .run) (act := runRequest) hf (rowOf_run hk)
  have run : ∀ {q bs}, f.payload = [] → runRequest p = (bs, q) → Completes .run s f q bs := fun empty same =>
    (taken empty).trans (by rw [same])
  refine ⟨long, fun empty play => run empty ?_, fun empty state => run empty ?_, fun empty state => ?_⟩
  · rw [runRequest]
    rcases (inPlay_iff p).1 play with state | state <;> rw [state] <;> rfl
  · rw [runRequest]
    rcases state with state | state <;> rw [state] <;> rfl
  · have started : runRequest p = ([0], startRunning p) := by
      rw [runRequest]
      rcases state with state | state <;> rw [state] <;> rfl
    have kept := lookedAhead_inputs p
    have sound : SettingsSound p → RingSound p → FeedSound p → LeadSound p → RollSound False True p :=
      fun settings ring feed lead => .of settings.1 ring feed nofun fun _ => lead
    have looks := fun settings ring feed lead => lookedAhead_ahead (sound settings ring feed lead)
    have due := fun settings ring feed lead => lookedAhead_due (sound settings ring feed lead)
    have budget := lookedAhead_budget (p := p)
    have feed : p.lookedAhead.feed = p.begun.feed := kept.feed
    rw [startRunning_eq, feed] at started
    generalize p.lookedAhead = q at *
    cases before : p.feed.taken with
    | true =>
      rw [if_pos (show p.begun.feed.taken = true from before)] at started
      refine ⟨q, run empty started, kept.player, kept.settings, kept.store, fun _ => ⟨feed, kept.ring, kept.tracks, kept.cues⟩,
        nofun, nofun, fun settings ring feed lead _ => ⟨q, looks settings ring feed lead, fun _ => rfl, nofun⟩⟩
    | false =>
      rw [if_neg (show ¬ p.begun.feed.taken = true by rw [show p.begun.feed.taken = false from before]; nofun)] at started
      have ring : q.ring = p.ring := kept.ring
      cases rows : p.ring.rows with
      | nil =>
        rw [rowDue_absent (by rw [ring, rows])] at started
        obtain ⟨frame, flagged⟩ := enterStarve_frame q
        generalize enterStarve q = r at *
        have clock : r.feed = q.feed.starved q.settings q.now := frame.feed
        have settings : q.settings = p.settings := kept.settings
        rw [feed, settings, kept.now] at clock
        refine ⟨r, run empty started, frame.player.trans kept.player, frame.settings.trans settings,
          frame.store.trans kept.store, nofun, fun _ _ => ?_, nofun, fun settings ring feed lead _ =>
            ⟨q, looks settings ring feed lead, nofun, nofun⟩⟩
        obtain ⟨transport, row, fraction, untaken, counted, timed, expired⟩ :=
          p.begun.feed.starved_spec p.settings p.begun.now
        rw [← clock] at transport row fraction untaken counted timed expired
        exact ⟨transport, row, fraction, untaken.trans before, counted, frame.ring.trans ring,
          frame.tracks.trans kept.tracks, timed, expired, flagged⟩
      | cons row rest =>
        rw [rowDue_held (by rw [ring, rows])] at started
        have gone := takeRow_gone row (p := q) (by rw [feed]; rfl)
        have whole := fun (h : RowIsDue False True q) (b : BudgetSound q) => takeRow_taken h (by rw [ring, rows]) b
        generalize takeRow row q = r at *
        refine ⟨r, run empty started, gone.player.trans kept.player, gone.settings.trans kept.settings,
          gone.store.trans kept.store, nofun, nofun, fun row' rest' _ same => ?_, fun settings ring feed lead b =>
            ⟨q, looks settings ring feed lead, nofun, fun row' rest' _ same => ?_⟩⟩
        · obtain ⟨rfl, rfl⟩ := List.cons.inj same
          refine ⟨?_, gone.taken, ?_, ?_, gone.transport⟩
          · rw [gone.rows, ring, rows, List.tail_cons]
          · rw [gone.row, feed]
            rfl
          · rw [gone.counted, feed]
            rfl
        · obtain ⟨rfl, rfl⟩ := List.cons.inj same
          exact whole (due settings ring feed lead before) (budget b)

end Sys2Proof.Machine
end

section
/-! PROOFS. The stages of FEED ROWS after expansion (R8 to R13): what is skipped, kept and stored of a batch. -/

namespace Sys2Proof.Machine

/-- How many rows of a batch lie below next-expected (R8). -/
def RowRing.skips (r : RowRing) (first count : Nat) : Nat := min count (r.nextExpected - first)

/-- How many of the others lie within the roll (R10). -/
def RowRing.keeps (r : RowRing) (endRow first count : Nat) : Nat :=
  if endRow = 0 then count - r.skips first count
  else min (count - r.skips first count) (endRow + 1 - (first + r.skips first count))

/-- How many of these have room (R11). -/
def RowRing.accepts (r : RowRing) (endRow first count : Nat) : Nat :=
  min (r.keeps endRow first count) (2048 - r.rows.length)

/-- The hole sets that are stored. -/
def RowRing.storing (r : RowRing) (endRow first count : Nat) (holes : List TrackSet) : List TrackSet :=
  (holes.drop (r.skips first count)).take (r.accepts endRow first count)

/-- The ring with these rows stored (R4, R11). -/
def RowRing.fed (r : RowRing) (low : Nat) (stored : List TrackSet) : RowRing :=
  { rows := r.rows ++ numberRows r.nextExpected stored
    nextExpected := r.nextExpected + stored.length
    reference := stored.getLastD r.reference
    above := if stored.length = 0 then r.above else decide (low ≤ r.rows.length + stored.length) }

section
variable {p : Part} {r : RowRing} {endRow first count low : Nat} {holes : List TrackSet}

/-- The hole sets that the model keeps of a batch. -/
def RowRing.kept (r : RowRing) (endRow first : Nat) (holes : List TrackSet) : List TrackSet :=
  if endRow = 0 then holes.drop (r.nextExpected - first)
  else (holes.drop (r.nextExpected - first)).take (endRow + 1 - r.nextExpected)

theorem kept_length (length : holes.length = count) (begins : first ≤ r.nextExpected) :
    (r.kept endRow first holes).length = r.keeps endRow first count := by
  unfold RowRing.kept RowRing.keeps RowRing.skips
  split
  · rw [List.length_drop, length]
    omega
  · rw [List.length_take, List.length_drop, length]
    omega

theorem kept_storing (length : holes.length = count) (begins : first ≤ r.nextExpected) :
    (r.kept endRow first holes).take r.free = r.storing endRow first count holes := by
  have drops : holes.drop (r.skips first count) = holes.drop (r.nextExpected - first) := by
    rw [List.drop_eq_drop_iff, RowRing.skips, length]
    omega
  have keeps := kept_length (r := r) (endRow := endRow) length begins
  have room : r.free = 2048 - r.rows.length := rfl
  rw [RowRing.storing, drops, RowRing.accepts, ← keeps, room]
  unfold RowRing.kept
  split
  · rw [List.take_eq_take_iff]
    omega
  · rw [List.take_take, List.take_eq_take_iff, List.length_take]
    omega

theorem storing_length (length : holes.length = count) :
    (r.storing endRow first count holes).length = r.accepts endRow first count := by
  rw [RowRing.storing, List.length_take, List.length_drop, length]
  unfold RowRing.accepts RowRing.keeps
  split <;> omega

theorem fed_nothing (r : RowRing) (low : Nat) : r.fed low [] = r := by
  simp [RowRing.fed, numberRows]

/-- Rows stored at the end of the ring (R4, R11). -/
theorem store_fed (stored : holes.take r.free ≠ []) :
    (r.store (numberRows r.nextExpected holes)).marked low = r.fed low (holes.take r.free) := by
  rw [RowRing.store_numberRows r holes stored]
  generalize holes.take r.free = xs at *
  have some : xs.length ≠ 0 := fun none => stored (List.length_eq_zero_iff.1 none)
  unfold RowRing.fed RowRing.marked RowRing.occupancy
  rw [if_neg some, List.length_append, numberRows_length, List.getLastD_eq_getLast?, List.getLast?_eq_getLast_of_ne_nil stored]
  rfl

/-- A batch that begins above next-expected, with a row to store, is refused (R9). -/
theorem storeBatch_gap (some : holes ≠ []) (above : p.ring.nextExpected < first) :
    storeBatch (numberRows first holes) p = (feedReply .gap 0 0 0 p.ring, p) := by
  have next : max p.ring.nextExpected first = first := max_eq_right above.le
  have skip : p.ring.nextExpected - first = 0 := Nat.sub_eq_zero_of_le above.le
  unfold storeBatch
  dsimp only
  rw [RowRing.unskipped_numberRows, next, skip, List.drop_zero, RowRing.gap_numberRows, if_pos]
  rw [List.isEmpty_eq_false_iff.2 some, decide_eq_true above]
  rfl

/-- The rows of a batch are skipped, dropped beyond the end, and stored; and the arrival of those stored follows (R8 to
R13). -/
theorem storeBatch_stored (length : holes.length = count) (begins : first ≤ p.ring.nextExpected) :
    storeBatch (numberRows first holes) p
      = (feedReply (if p.ring.accepts p.feed.endRow first count < p.ring.keeps p.feed.endRow first count
            then .partially else .ok)
          (p.ring.accepts p.feed.endRow first count) (p.ring.skips first count)
          (count - p.ring.skips first count - p.ring.keeps p.feed.endRow first count)
          (p.ring.fed p.settings.ringLow (p.ring.storing p.feed.endRow first count holes)),
        if p.ring.accepts p.feed.endRow first count = 0 then p
        else rowsArrive { p with
          ring := p.ring.fed p.settings.ringLow (p.ring.storing p.feed.endRow first count holes) }) := by
  have next : max p.ring.nextExpected first = p.ring.nextExpected := max_eq_left begins
  have keeps := kept_length (r := p.ring) (endRow := p.feed.endRow) length begins
  have stores := kept_storing (r := p.ring) (endRow := p.feed.endRow) length begins
  have accepts := storing_length (r := p.ring) (endRow := p.feed.endRow) (first := first) length
  have skips : count - (count - (p.ring.nextExpected - first)) = p.ring.skips first count := by
    unfold RowRing.skips
    omega
  have rest : count - (p.ring.nextExpected - first) = count - p.ring.skips first count := by
    unfold RowRing.skips
    omega
  have room : min (p.ring.keeps p.feed.endRow first count) p.ring.free = p.ring.accepts p.feed.endRow first count := rfl
  unfold storeBatch
  dsimp only
  rw [RowRing.unskipped_numberRows, next, RowRing.gap_numberRows, decide_eq_false (Nat.lt_irrefl _), Bool.and_false,
    if_neg Bool.false_ne_true, withinRoll_numberRows, ← RowRing.kept]
  simp only [numberRows_length, List.length_drop, length, keeps, room, skips]
  rw [rest]
  split
  · next none =>
    rw [none] at accepts
    rw [List.length_eq_zero_iff.1 accepts, fed_nothing, none]
  · next some =>
    rw [store_fed (fun empty => some (by rw [← accepts, ← stores, empty]; rfl)), stores]

end

end Sys2Proof.Machine
end

section
/-! PROOFS. FEED ROWS (R5 to R13, R34). -/

namespace Sys2Proof.Machine

theorem rowOf_feedRows {f : Frame} (h : f.kind = 0x11) : rowOf f = .feedRows := by
  simp [rowOf, h]

theorem completes_feed {s : State} {f : Frame} {bs : List Byte} {q : Part} (h : s.part.MayTake f) (hk : f.kind = 0x11)
    (e : feedRows f.payload s.part = (bs, q)) : Completes .feedRows s f q bs := by
  have taken : exec .feedRows s = .next (s.withPart
      ((feedRows f.payload s.part).2.replied f (feedRows f.payload s.part).1)) := takeRequest_answer h (rowOf_feedRows hk)
  rw [Completes, taken, e]

theorem feed_legal_iff (payload : List Byte) :
    (FeedRequest.read payload).legal = true ↔
      fieldAt payload 0 4 ≤ 2147483647 ∧ (1 ≤ fieldAt payload 4 2 ∧ fieldAt payload 4 2 ≤ 512)
        ∧ fieldAt payload 0 4 + fieldAt payload 4 2 ≤ 2147483648 := by
  rw [FeedRequest.legal]
  simp only [Bool.and_eq_true, decide_eq_true_eq, and_assoc]
  rfl

section
variable {p q : Part} {payload : List Byte}

/-! ### The checks before the batch (R5 to R7) -/

theorem feedRows_short (short : payload.length < 8) : feedRows payload p = (feedReply .length 0 0 0 p.ring, p) :=
  if_pos short

theorem feedRows_state (long : 8 ≤ payload.length) (state : p.feed.transport = .unloaded ∨ p.feed.transport = .ended) :
    feedRows payload p = (feedReply .state 0 0 0 p.ring, p) :=
  (if_neg (Nat.not_lt.2 long)).trans (if_pos state)

theorem feedRows_range (long : 8 ≤ payload.length) (state : ¬ (p.feed.transport = .unloaded ∨ p.feed.transport = .ended))
    (illegal : (FeedRequest.read payload).legal = false) :
    feedRows payload p = (feedReply .range 0 0 0 p.ring, p) :=
  (if_neg (Nat.not_lt.2 long)).trans ((if_neg state).trans (if_pos (by rw [illegal]; rfl)))

/-- A legal batch goes by the expansion of its records (R6, R7). -/
theorem feedRows_legal (long : 8 ≤ payload.length) (state : ¬ (p.feed.transport = .unloaded ∨ p.feed.transport = .ended))
    (legal : (FeedRequest.read payload).legal = true) :
    (expandRecords (payload.drop 6).length p.ring.reference (fieldAt payload 4 2) (payload.drop 6) = none →
        feedRows payload p = (feedReply .length 0 0 0 p.ring, p))
      ∧ ∀ holes, expandRecords (payload.drop 6).length p.ring.reference (fieldAt payload 4 2) (payload.drop 6) = some holes →
        feedRows payload p = storeBatch (numberRows (fieldAt payload 0 4) holes) p := by
  have begun : feedRows payload p
      = match expandRecords (payload.drop 6).length p.ring.reference (fieldAt payload 4 2) (payload.drop 6) with
        | none => (feedReply .length 0 0 0 p.ring, p)
        | some holes => storeBatch (numberRows (fieldAt payload 0 4) holes) p :=
    (if_neg (Nat.not_lt.2 long)).trans ((if_neg state).trans (if_neg (by rw [legal]; nofun)))
  refine ⟨fun none => ?_, fun holes some => ?_⟩
  · rw [begun, none]
  · rw [begun, some]

/-! ### The arrival (R13, R34, R159) -/

/-- The part in which the row that a starved roll waits for is due (R34). -/
def Part.resumed (p : Part) : Part := p.setFeed { p.feed with transport := .running, starve := none }

theorem rowsArrive_starved {row : StoredRow} {rest : List StoredRow} (starved : p.feed.transport = .starved)
    (rows : p.ring.rows = row :: rest) :
    rowsArrive p = examineAhead (if (takeRow row p.resumed).feed.transport = .running then (takeRow row p.resumed).resynced
      else takeRow row p.resumed) := by
  have due : rowDue p.resumed = takeRow row p.resumed := rowDue_held rows
  rw [rowsArrive, if_pos starved, resumeStarved]
  dsimp only
  rw [← Part.resumed, due, resyncPedals_eq]

/-- A batch that has been stored where the roll was sound (R2, R4, R11). -/
theorem fed_paper {first count : Nat} {holes : List TrackSet} (h : RollSound False True p) (length : holes.length = count)
    (begins : first ≤ p.ring.nextExpected) (most : first + count ≤ 2147483648)
    (some : p.ring.accepts p.feed.endRow first count ≠ 0) :
    PaperAt False p.feed.headRow p.feed.headRow True { p with
      ring := p.ring.fed p.settings.ringLow (p.ring.storing p.feed.endRow first count holes) } := by
  have keeps := kept_length (r := p.ring) (endRow := p.feed.endRow) length begins
  have stores := kept_storing (r := p.ring) (endRow := p.feed.endRow) length begins
  have accepts := storing_length (r := p.ring) (endRow := p.feed.endRow) (first := first) length
  have stored : (p.ring.kept p.feed.endRow first holes).take p.ring.free ≠ [] := fun empty => some (by
    rw [← accepts, ← stores, empty]
    rfl)
  have bound : p.ring.nextExpected + (p.ring.kept p.feed.endRow first holes).length ≤ 2147483648 := by
    have pos : p.ring.keeps p.feed.endRow first count ≠ 0 := fun none => some (by rw [RowRing.accepts, none, Nat.zero_min])
    have within : p.ring.keeps p.feed.endRow first count ≤ count - min count (p.ring.nextExpected - first) := by
      unfold RowRing.keeps RowRing.skips
      split
      · exact le_refl _
      · exact min_le_left _ _
    rw [keeps]
    omega
  have paper := stored_paper h stored bound
  rwa [store_fed stored, stores] at paper

/-- An arrival that plays (R13, R159). -/
theorem rowsArrive_running (running : p.feed.transport = .running) : rowsArrive p = examineAhead p := by
  rw [rowsArrive, if_neg (by rw [running]; nofun), if_pos running]

/-- An arrival outside play (R13). -/
theorem rowsArrive_still (state : p.feed.transport = .loaded ∨ p.feed.transport = .paused) : rowsArrive p = p := by
  rw [rowsArrive]
  rcases state with c | c <;> rw [c] <;> rfl

/-- The row that a starved roll waits for has arrived (R34). -/
theorem resumed_due (paper : PaperAt False p.feed.headRow p.feed.headRow True p) (untaken : p.feed.taken = false) :
    RowIsDue False True p.resumed := by
  have moved := paper.setFeed (f := { p.feed with transport := .running, starve := none }) paper.fraction paper.q
  rw [head_of_untaken untaken] at moved
  exact ⟨moved, rfl, untaken⟩

theorem resynced_or (p : Part) :
    SameRoll p (if p.feed.transport = .running then p.resynced else p)
      ∧ InputsOnly p (if p.feed.transport = .running then p.resynced else p) := by
  split
  · rw [← resyncPedals_eq]
    exact ⟨sameRoll_play.resyncPedals p, resyncPedals_inputs p⟩
  · exact ⟨sameRoll_play.refl p, .refl p⟩

/-- The arrival in STARVED: the row that was waited for is taken, the pedals are re-synced if it plays on, and the lead
decoder looks ahead (R34, log entry 19). -/
theorem rowsArrive_resumes {row : StoredRow} {rest : List StoredRow} (starved : p.feed.transport = .starved)
    (rows : p.ring.rows = row :: rest) :
    RowGone p.resumed (takeRow row p.resumed) ∧ InputsOnly (takeRow row p.resumed) (rowsArrive p)
      ∧ (PaperAt False p.feed.headRow p.feed.headRow True p → p.feed.taken = false → BudgetSound p →
        RowTaken row p.resumed (takeRow row p.resumed)
          ∧ LeadAhead (if (takeRow row p.resumed).feed.transport = .running then (takeRow row p.resumed).resynced
              else takeRow row p.resumed) (rowsArrive p)) := by
  rw [rowsArrive_starved starved rows]
  have gone := takeRow_gone row (p := p.resumed) rfl
  have taken := fun (due : RowIsDue False True p.resumed) (h : BudgetSound p.resumed) => takeRow_taken due rows h
  have sound := fun (due : RowIsDue False True p.resumed) => takeRow_sound due rows
  have budget := fun h : BudgetSound p => setFeed_budget h { p.feed with transport := .running, starve := none }
  rw [← Part.resumed] at budget
  generalize takeRow row p.resumed = q at *
  obtain ⟨same, inputs⟩ := resynced_or q
  generalize (if q.feed.transport = .running then q.resynced else q) = r at *
  refine ⟨gone, inputs.trans (examineAhead_inputs r), fun paper untaken h => ?_⟩
  have due := resumed_due paper untaken
  refine ⟨taken due (budget h), ?_⟩
  exact examineAhead_ahead ((((sound due).paper.same same)).mono fun _ => trivial) (le_refl _)

end

end Sys2Proof.Machine
end

section
/-! PROOFS. FEED ROWS settled (R5 to R13, R34). -/

namespace Sys2Proof.Machine

/-- The reply to FEED ROWS, byte by byte (section 10.6). -/
theorem feedReply_eq (r : Result) (accepted skipped beyond : Nat) (ring : RowRing) :
    feedReply r accepted skipped beyond ring
      = r.bytes ++ littleEndian 2 accepted ++ littleEndian 2 skipped ++ littleEndian 2 beyond
        ++ littleEndian 2 (2048 - ring.rows.length) ++ littleEndian 4 ring.nextExpected := rfl

theorem partial_bytes (short : Prop) [Decidable short] :
    (if short then Result.partially else Result.ok).bytes = [if short then 2 else 0] := by
  split <;> rfl

/-- The ring of a batch by the number of rows stored. -/
theorem fed_eq (r : RowRing) (low : Nat) {stored : List TrackSet} {accepted : Nat} (length : stored.length = accepted) :
    r.fed low stored =
      { rows := r.rows ++ numberRows r.nextExpected stored
        nextExpected := r.nextExpected + accepted
        reference := stored.getLastD r.reference
        above := if accepted = 0 then r.above else decide (low ≤ r.rows.length + accepted) } := by
  rw [← length]
  rfl

theorem numberRows_cons {n : Nat} {xs : List TrackSet} (some : xs ≠ []) :
    ∃ row rest, numberRows n xs = row :: rest := by
  cases xs with
  | nil => exact absurd rfl some
  | cons x xs => exact ⟨_, _, rfl⟩

/-- Settles O33. -/
theorem rowsFed : Obligations.RowsFed := by
  intro s f hf hk p first count records legal reply
  have legally := feed_legal_iff f.payload
  have stands : p.feed.transport ≠ .unloaded → p.feed.transport ≠ .ended →
      ¬ (p.feed.transport = .unloaded ∨ p.feed.transport = .ended) := fun a b => not_or.2 ⟨a, b⟩
  refine ⟨fun short => completes_feed hf hk (feedRows_short short),
    fun long state => completes_feed hf hk (feedRows_state long state),
    fun long unloaded ended illegal => completes_feed hf hk (feedRows_range long (stands unloaded ended)
      (Bool.eq_false_iff.2 (mt legally.1 illegal))),
    fun long unloaded ended legal none => completes_feed hf hk
      ((feedRows_legal long (stands unloaded ended) (legally.2 legal)).1 none),
    fun holes long unloaded ended legal some above => completes_feed hf hk ?_, fun holes long legal some begins => ?_⟩
  · rw [(feedRows_legal long (stands unloaded ended) (legally.2 legal)).2 holes some]
    refine storeBatch_gap (fun empty => ?_) above
    have length := expandRecords_length some
    rw [empty] at length
    obtain ⟨-, ⟨least, -⟩, -⟩ := legal
    exact absurd length (Nat.ne_of_lt least)
  · have length := expandRecords_length some
    have stored := storeBatch_stored (p := p) length begins
    have accepts := storing_length (r := p.ring) (endRow := p.feed.endRow) (first := first) length
    have paper := fun sound => fed_paper (p := p) (first := first) sound length begins legal.2.2
    rw [feedReply_eq, partial_bytes] at stored
    have answered : ∀ {q bs}, p.feed.transport ≠ .unloaded → p.feed.transport ≠ .ended →
        storeBatch (numberRows first holes) p = (bs, q) → Completes .feedRows s f q bs := fun unloaded ended same =>
      completes_feed hf hk (((feedRows_legal long (stands unloaded ended) (legally.2 legal)).2 holes some).trans same)
    rw [fed_eq p.ring p.settings.ringLow accepts] at stored paper
    intro skipped kept accepted storing ring answer
    have batch : storeBatch (numberRows first holes) p
        = (answer, if accepted = 0 then p else rowsArrive { p with ring := ring }) := stored
    have arrived : RollSound False True p → accepted ≠ 0 →
        PaperAt False p.feed.headRow p.feed.headRow True { p with ring := ring } := paper
    have nothing : accepted = 0 → ring = p.ring := fun none => by
      have empty : storing = [] := List.length_eq_zero_iff.1 (accepts.trans none)
      have same : p.ring.fed p.settings.ringLow storing = ring := fed_eq p.ring p.settings.ringLow accepts
      rw [← same, empty, fed_nothing]
    refine ⟨fun state => answered ?_ ?_ ?_, fun running => ?_, fun starved empty some => ?_⟩
    · rcases state with c | c <;> rw [c] <;> nofun
    · rcases state with c | c <;> rw [c] <;> nofun
    · rw [batch]
      by_cases none : accepted = 0
      · rw [if_pos none, nothing none]
      · rw [if_neg none, rowsArrive_still (p := { p with ring := ring }) state]
    · refine ⟨_, answered (by rw [running]; nofun) (by rw [running]; nofun) batch, ?_⟩
      by_cases none : accepted = 0
      · rw [if_pos none]
        exact ⟨(nothing none).symm, rfl, rfl, rfl, fun _ => rfl, fun some => absurd none (Nat.pos_iff_ne_zero.1 some)⟩
      · rw [if_neg none, rowsArrive_running (p := { p with ring := ring }) running]
        have inputs := examineAhead_inputs { p with ring := ring }
        refine ⟨inputs.ring, inputs.feed, inputs.tracks, inputs.settings, fun c => absurd c none,
          fun _ settings consecutive feed lead => ?_⟩
        have sound : RollSound False True p := .of settings.1 consecutive feed nofun fun _ => lead
        exact examineAhead_ahead ((arrived sound none).mono fun _ => trivial) (le_refl _)
    · have none : accepted ≠ 0 := Nat.pos_iff_ne_zero.1 some
      rw [if_neg none] at batch
      have length : storing.length ≠ 0 := fun zero => none (accepts.symm.trans zero)
      obtain ⟨row, rest, rows⟩ := numberRows_cons (n := p.ring.nextExpected) (mt List.length_eq_zero_iff.2 length)
      have held : ring.rows = row :: rest := by
        change p.ring.rows ++ numberRows p.ring.nextExpected storing = _
        rw [empty, List.nil_append, rows]
      refine ⟨_, answered (by rw [starved]; nofun) (by rw [starved]; nofun) batch, ?_⟩
      obtain ⟨gone, inputs, whole⟩ := rowsArrive_resumes (p := { p with ring := ring }) starved held
      generalize rowsArrive { p with ring := ring } = q at *
      generalize taken : takeRow row ({ p with ring := ring } : Part).resumed = r at *
      refine ⟨?_, ?_, ?_, ?_, ?_, ?_, ?_, fun settings consecutive feed lead h => ⟨row, r, by rw [held]; rfl, ?_⟩⟩
      · rw [inputs.ring]
        exact gone.rows
      · rw [inputs.ring]
        exact gone.next
      · rw [inputs.feed]
        exact gone.taken
      · rw [inputs.feed]
        exact gone.starve rfl
      · rw [inputs.feed]
        rcases gone.transport with c | c | c <;> rw [c] <;> nofun
      · rw [inputs.feed]
        exact gone.row
      · rw [inputs.feed]
        exact gone.counted
      · have sound : RollSound False True p := .of settings.1 consecutive feed nofun fun _ => lead
        obtain ⟨untaken, -⟩ := sound.transport.starved starved
        have same : SameUnits p { p with ring := ring } := .of_eq rfl rfl rfl (fun _ => rfl) fun _ => rfl
        exact whole (arrived sound none) untaken (same.good h.good).budget

end Sys2Proof.Machine
end

section
/-! PROOFS. A pedal with no entry in the wait list is spared: no grant, no removal and no withdrawal of another line moves
it, whatever the budget holds (R114). -/

namespace Sys2Proof.Machine

/-- The pedal has this record, and no entry of the wait list is its own. -/
structure Spared (d : Pedal) (r : PedalRecord) (p : Part) : Prop where
  record : p.pedal d = r
  entries : ∀ e ∈ p.arbiter.wait, e.line ≠ pedalLineNo d

namespace Spared

variable {d e : Pedal} {r : PedalRecord} {p q : Part}

theorem of_eq (h : Spared d r p) (pedal : q.pedal d = p.pedal d) (wait : q.arbiter.wait = p.arbiter.wait) : Spared d r q :=
  ⟨pedal.trans h.record, by rw [wait]; exact h.entries⟩

theorem setKey (h : Spared d r p) (k : KeyNo) (l : KeyLine) : Spared d r (p.setKey k l) :=
  h.of_eq (Part.setKey_pedal _ _ _ _) rfl

theorem setPedal (h : Spared d r p) (ne : d ≠ e) (x : PedalRecord) : Spared d r (p.setPedal e x) :=
  h.of_eq (Part.pedal_setPedal_ne _ _ ne) (by rw [Part.setPedal_arbiter])

theorem setPlace (h : Spared d r p) (m : LineNo) (n : Option Nat) : Spared d r (p.setPlace m n) :=
  h.of_eq (Part.setPlace_pedal _ _ _ _) rfl

theorem setWait (h : Spared d r p) {w : List WaitEntry} (hw : ∀ e ∈ w, e.line ≠ pedalLineNo d) : Spared d r (p.setWait w) :=
  ⟨(Part.setWait_pedal _ _ _).trans h.record, hw⟩

theorem endPlan (h : Spared d r p) (plan : Plan) (o : StrikeOutcome) (n : Nat) : Spared d r (endPlan plan o n p) := by
  rw [endPlan_eq_filed]
  obtain ⟨-, pedals, -, -, -, wait⟩ := filed_keeps plan o n p
  exact h.of_eq (by cases d <;> simp only [Part.pedal, pedals]) wait

/-! ### The arbiter -/

theorem grant (h : Spared d r p) {line : LineNo} (other : line ≠ pedalLineNo d) (cost : Nat) (request : KickRequest)
    (short : Bool) (waited : Nat) : Spared d r (grant line cost request short waited p) := by
  unfold Machine.grant
  dsimp only
  split
  · exact ((h.setPlace _ _).endPlan _ _ _).setKey _ _
  · rcases line_cases line with ⟨k, rfl⟩ | ⟨e, rfl⟩
    · rw [lineKey_keyLineNo]
      exact h.setPlace _ _
    · rw [lineKey_pedalLineNo]
      exact (h.setPlace _ _).setPedal (fun c => other (by rw [c])) _

theorem grantFrom {es : List WaitEntry} (h : Spared d r p) (others : ∀ e ∈ es, e.line ≠ pedalLineNo d) :
    Spared d r (grantFrom es p) := by
  induction es generalizing p with
  | nil => exact h.setWait fun _ he => nomatch he
  | cons e rest ih =>
    have later : ∀ x ∈ rest, x.line ≠ pedalLineNo d := fun x hx => others x (.tail e hx)
    unfold Machine.grantFrom
    split
    · exact ih ((h.setWait later).grant (others e (.head rest)) _ _ _ _) later
    · exact h.setWait others

theorem grantingPass (h : Spared d r p) : Spared d r (grantingPass p) := h.grantFrom h.entries

theorem returnPedal (h : Spared d r p) (ne : d ≠ e) : Spared d r (returnPedal e p) := by
  rw [returnPedal_eq]
  exact h.setPedal ne _

theorem returnLine (h : Spared d r p) {x : WaitEntry} (other : x.line ≠ pedalLineNo d) : Spared d r (returnLine x p) := by
  unfold Machine.returnLine
  rcases line_cases x.line with ⟨k, hl⟩ | ⟨e, hl⟩
  · rw [hl, lineKey_keyLineNo]
    split
    · exact h.setKey _ _
    · next c => cases c
    · exact h
  · rw [hl, lineKey_pedalLineNo]
    split
    · exact h.setKey _ _
    · next c =>
      cases c
      exact h.returnPedal fun c => other (by rw [hl, c])
    · next c => cases c

theorem joinList (h : Spared d r p) {x : WaitEntry} (other : x.line ≠ pedalLineNo d) : Spared d r (joinList x p) := by
  have joined : Spared d r (p.setWait (insertAt (placeOf x.priority p.arbiter.wait) x p.arbiter.wait)) := by
    refine h.setWait fun e he => ?_
    rw [insertAt, List.mem_append, List.mem_cons] at he
    rcases he with he | rfl | he
    · exact h.entries e (List.mem_of_mem_take he)
    · exact other
    · exact h.entries e (List.mem_of_mem_drop he)
  unfold Machine.joinList
  dsimp only
  refine Spared.grantingPass ?_
  split
  · exact joined.setKey _ _
  · exact joined

theorem evict (h : Spared d r p) {x : WaitEntry} (other : x.line ≠ pedalLineNo d) : Spared d r (evict x p) := by
  have removed := (h.setWait fun e he => h.entries e (List.mem_of_mem_dropLast he)).returnLine other
  unfold Machine.evict
  dsimp only
  split
  · exact removed.endPlan _ _ _
  · exact removed

theorem turnAway (h : Spared d r p) {x : WaitEntry} (other : x.line ≠ pedalLineNo d) : Spared d r (turnAway x p) := by
  unfold Machine.turnAway
  split
  · exact (h.returnLine other).endPlan _ _ _
  · exact h.returnLine other

theorem arrive (h : Spared d r p) {line : LineNo} (other : line ≠ pedalLineNo d) (priority cost : Nat)
    (request : KickRequest) (short : Bool) : Spared d r (arrive line priority cost request short p) := by
  unfold Machine.arrive
  dsimp only
  split
  · exact h.grant other _ _ _ _
  · split
    · exact h.joinList other
    · split
      · exact h.turnAway other
      · next last hlast =>
        split
        · exact (h.evict (h.entries last (List.mem_of_getLast? hlast))).joinList other
        · exact h.turnAway other

theorem submitPlan (h : Spared d r p) (plan : Plan) : Spared d r (submitPlan plan p) :=
  h.arrive (keyLineNo_ne_pedalLineNo _ _) _ _ _ _

/-! ### The key lines -/

theorem endOfGuard (h : Spared d r p) (k : KeyNo) : Spared d r (endOfGuard k p) := by
  unfold Machine.endOfGuard
  dsimp only
  split
  · exact h.setKey _ _
  · split
    · exact h.setKey _ _
    · exact (h.setKey _ _).submitPlan _

theorem guardEnds (h : Spared d r p) (k : KeyNo) : Spared d r (guardEnds k p) := by
  unfold Machine.guardEnds
  split
  · exact h.endOfGuard k
  · exact h

theorem inAnyOrder {α : Type} {act : α → Part → Part} (h : Spared d r p) (step : ∀ a q, Spared d r q → Spared d r (act a q))
    (as : List α) : Spared d r (inAnyOrder as act p) :=
  inAnyOrder_keeps (P := Spared d r) (h.of_eq (by cases d <;> rfl) rfl) fun a _ q hq => step a q hq

theorem resumeLines (h : Spared d r p) : Spared d r (resumeLines p) := h.inAnyOrder (fun k _ hq => hq.endOfGuard k) _

theorem endElapsedGuards (h : Spared d r p) : Spared d r (endElapsedGuards p) :=
  h.inAnyOrder (fun k _ hq => hq.guardEnds k) _

theorem removeRestingEntry (h : Spared d r p) (x : WaitEntry) : Spared d r (removeRestingEntry x p) := by
  unfold Machine.removeRestingEntry
  split
  · split
    · exact ((h.setWait fun e he => h.entries e (List.mem_of_mem_eraseP he)).setKey _ _).endPlan _ _ _
    · exact h
  · exact h

/-- A threshold write spares the pedal. -/
theorem updateAllResting (h : Spared d r p) : Spared d r (updateAllResting p) := by
  have rested : Spared d r (restedLines p) := h.of_eq ((restedLines_own p).pedals d) (restedLines_own p).wait
  have fold : ∀ (es : List WaitEntry) (q : Part), Spared d r q →
      Spared d r (es.foldl (fun q e => Machine.removeRestingEntry e q) q) := by
    intro es
    induction es with
    | nil => exact fun _ => id
    | cons e rest ih => exact fun q hq => ih _ (hq.removeRestingEntry e)
  rw [updateAllResting_eq]
  exact (fold _ _ rested).grantingPass.resumeLines

/-! ### The other pedals -/

theorem beginWait (h : Spared d r p) (ne : d ≠ e) (origin : WaitOrigin) (depth : Depth) :
    Spared d r (beginWait e origin depth p) :=
  (h.setPedal ne _).arrive (fun c => ne (pedalLineNo_inj.1 c).symm) _ _ _ _

theorem withdrawLift (h : Spared d r p) (e : Pedal) : Spared d r (withdrawLift e p) := by
  have dropped := h.setWait fun x hx => h.entries x (List.mem_of_mem_eraseP (p := fun x => x.line == pedalLineNo e) hx)
  exact (dropped.of_eq (q := countWithdrawal (p.dropEntry (pedalLineNo e))) (by cases d <;> rfl) rfl).grantingPass

theorem beginDrop (h : Spared d r p) (ne : d ≠ e) : Spared d r (beginDrop e p) := h.setPedal ne _

theorem dropPedal (h : Spared d r p) (ne : d ≠ e) : Spared d r (dropPedal e p) := by
  unfold Machine.dropPedal
  dsimp only
  split
  · exact h
  · exact h
  · split
    · exact ((h.withdrawLift e).returnPedal ne).beginDrop ne
    · exact (h.withdrawLift e).returnPedal ne
  · exact h.setPedal ne _
  · exact h.beginDrop ne

theorem liftRail (h : Spared d r p) {half : Half} (ne : d ≠ railOf half) (depth : Depth) :
    Spared d r (liftPedal (railOf half) depth p) := by
  unfold liftPedal
  simp only [liftDepth_railOf, bne_self_eq_false, Bool.false_eq_true, if_false]
  split
  · split
    · exact h.of_eq (by cases d <;> rfl) rfl
    · exact h.beginWait ne _ _
  · exact h.beginWait ne _ _
  · exact h
  · exact h.setPedal ne _
  · exact h

/-- A pedal that begins to drop is down. -/
theorem begunDrop (h : Spared d r p) : ∃ x, x.Down ∧ Spared d x (Machine.beginDrop d p) := by
  rw [beginDrop_eq]
  exact ⟨_, .inr (.inl rfl), Part.pedal_setPedal_same _ _ _, by rw [Part.setPedal_arbiter]; exact h.entries⟩

/-- A dropped pedal is down, and goes on being spared (R152). -/
theorem dropped (h : Spared d r p) : ∃ x, x.Down ∧ Spared d x (Machine.dropPedal d p) := by
  by_cases waiting : (p.pedal d).state = .waiting
  · have back : Spared d (((Machine.withdrawLift d p).pedal d).returned (Machine.withdrawLift d p).settings d
          (Machine.withdrawLift d p).now)
        (Machine.returnPedal d (Machine.withdrawLift d p)) := by
      rw [returnPedal_eq]
      exact ⟨Part.pedal_setPedal_same _ _ _, by rw [Part.setPedal_arbiter]; exact (h.withdrawLift d).entries⟩
    rw [(h.withdrawLift d).record, ← h.record] at back
    unfold Machine.dropPedal
    simp only [waiting]
    split
    · exact back.begunDrop
    · next deepen =>
      refine ⟨_, ?_, back⟩
      unfold PedalRecord.returned PedalRecord.Down
      split
      · exact .inr (.inl rfl)
      · next origin => exact absurd origin deepen
      · exact .inl rfl
      · exact .inl rfl
  · rw [dropPedal_eq waiting]
    exact ⟨_, dropped_down waiting _ _, Part.pedal_setPedal_same _ _ _, by rw [Part.setPedal_arbiter]; exact h.entries⟩

end Spared

end Sys2Proof.Machine
end

section
/-! PROOFS. The stages of a recall (R174): the rails handed their modes outside play (R89, R158), the flags that a threshold
write leaves up, and the hold duties taken (R161). -/

namespace Sys2Proof.Machine

section
variable {p q : Part} {d : Pedal} {r : PedalRecord} {half : Half}

/-! ### A rail handed its mode outside play (R84, R158) -/

/-- The part with the auto demand of an AUTO half DOWN. -/
def Part.autoDown (p : Part) (half : Half) : Part :=
  if p.settings.railMode.get half = .auto then p.setAutoUp half false else p

theorem handRailMode_idle (idle : p.inPlay = false) (half : Half) :
    handRailMode half p = if p.settings.railMode.get half = .up then liftPedal (railOf half) .full p
      else dropPedal (railOf half) (p.autoDown half) := by
  unfold handRailMode Part.autoDown
  cases p.settings.railMode.get half <;> simp [idle, moveRail]

theorem autoDown_frame (h : LinesOnly p q) (half : Half) : LinesOnly (p.autoDown half) (q.autoDown half) := by
  unfold Part.autoDown
  rw [h.settings]
  split
  · have expression : (p.setAutoUp half false).expression = (q.setAutoUp half false).expression := by
      unfold Part.setAutoUp Part.setHalf
      rw [h.expression]
    obtain ⟨power, now, settings, store, saving, ring, feed, tracks, cues, -, player, reported, tick, lead, lift, feather,
      soft, mask, faultMask, restingMask, link⟩ := h
    exact ⟨power, now, settings, store, saving, ring, feed, tracks, cues, expression.symm, player, reported, tick, lead, lift,
      feather, soft, mask, faultMask, restingMask, link⟩
  · exact h

theorem handRailMode_frame (idle : p.inPlay = false) (half : Half) :
    LinesOnly (p.autoDown half) (handRailMode half p) := by
  rw [handRailMode_idle idle]
  split
  · next up =>
    have same : p.autoDown half = p := if_neg (by rw [up]; nofun)
    rw [same]
    exact liftPedal_frame _ _ p
  · exact dropPedal_frame _ _

theorem handRailMode_idle_kept {R : Part → Part → Prop} (kept : KeptByMoves R) (idle : p.inPlay = false) (half : Half)
    (demand : R p (p.autoDown half)) : R p (handRailMode half p) := by
  rw [handRailMode_idle idle]
  split
  · exact kept.liftPedal _ _ p
  · exact kept.trans demand (kept.dropPedal _ _)

theorem Spared.autoDown (h : Spared d r p) (half : Half) : Spared d r (p.autoDown half) := by
  unfold Part.autoDown
  split
  · exact h.of_eq (by cases d <;> rfl) rfl
  · exact h

/-- Another pedal is spared. -/
theorem Spared.handRailMode (h : Spared d r p) (idle : p.inPlay = false) (ne : d ≠ railOf half) :
    Spared d r (handRailMode half p) := by
  rw [handRailMode_idle idle]
  split
  · exact h.liftRail ne _
  · exact (h.autoDown half).dropPedal ne

/-- A rail that had this record has been handed its mode: it is down, or it stays up. -/
structure RailHanded (half : Half) (r : PedalRecord) (p : Part) : Prop where
  down : p.settings.railMode.get half ≠ .up → ∃ x, x.Down ∧ Spared (railOf half) x p
  up : p.settings.railMode.get half = .up → r.state = .raised → Spared (railOf half) r p

theorem RailHanded.step (h : RailHanded half r p) (settings : q.settings = p.settings)
    (spared : ∀ x, Spared (railOf half) x p → Spared (railOf half) x q) : RailHanded half r q where
  down mode := by
    obtain ⟨x, down, was⟩ := h.down (settings ▸ mode)
    exact ⟨x, down, spared x was⟩
  up mode raised := spared r (h.up (settings ▸ mode) raised)

theorem autoDown_settings (p : Part) (half : Half) : (p.autoDown half).settings = p.settings := by
  unfold Part.autoDown
  split <;> rfl

/-- The rail itself takes its mode (R84). -/
theorem Spared.handed (h : Spared (railOf half) r p) (idle : p.inPlay = false) :
    RailHanded half r (Machine.handRailMode half p) := by
  have settings : (Machine.handRailMode half p).settings = p.settings :=
    (handRailMode_frame idle half).settings.trans (autoDown_settings p half)
  constructor
  · intro mode
    rw [settings] at mode
    rw [handRailMode_idle idle, if_neg mode]
    exact (h.autoDown half).dropped
  · intro mode raised
    rw [settings] at mode
    rw [handRailMode_idle idle, if_pos mode, liftRail_stays (.inl (h.record ▸ raised))]
    exact h

/-! ### Both rails -/

/-- The bass rail is handed its mode, and then the treble. -/
def handRails (p : Part) : Part := handRailMode .treble (handRailMode .bass p)

/-- The part with the auto demands of the AUTO halves DOWN. -/
def Part.autosDown (p : Part) : Part := (p.autoDown .bass).autoDown .treble

theorem bassHanded_idle (idle : p.inPlay = false) : (handRailMode .bass p).inPlay = false := by
  have feed : (handRailMode .bass p).feed = p.feed := (handRailMode_frame idle .bass).feed.trans (by
    unfold Part.autoDown
    split <;> rfl)
  rw [Part.inPlay, feed]
  exact idle

theorem handRails_frame (idle : p.inPlay = false) : LinesOnly p.autosDown (handRails p) :=
  (autoDown_frame (handRailMode_frame idle .bass) .treble).trans (handRailMode_frame (bassHanded_idle idle) .treble)

theorem handRails_kept {R : Part → Part → Prop} (kept : KeptByMoves R) (demand : ∀ half q, R q (q.autoDown half))
    (idle : p.inPlay = false) : R p (handRails p) :=
  kept.trans (handRailMode_idle_kept kept idle .bass (demand _ p))
    (handRailMode_idle_kept kept (bassHanded_idle idle) .treble (demand _ _))

theorem handRails_damper (h : Spared .damper r p) (idle : p.inPlay = false) : Spared .damper r (handRails p) :=
  (h.handRailMode idle (by decide)).handRailMode (bassHanded_idle idle) (by decide)

theorem handRails_rail (h : Spared (railOf half) r p) (idle : p.inPlay = false) : RailHanded half r (handRails p) := by
  have next := bassHanded_idle idle
  cases half with
  | bass =>
    exact (h.handed idle).step ((handRailMode_frame next .treble).settings.trans (autoDown_settings _ _)) fun x hx =>
      hx.handRailMode next (by decide)
  | treble => exact (h.handRailMode idle (by decide)).handed next

theorem autosDown_half (p : Part) (half : Half) :
    p.autosDown.expression.halves.get half = { p.expression.halves.get half with
      autoUp := if p.settings.railMode.get half = .auto then false else (p.expression.halves.get half).autoUp } := by
  unfold Part.autosDown
  rw [Part.autoDown, autoDown_settings, Part.autoDown]
  cases half <;> split <;> split <;> simp_all [Part.setAutoUp, Part.setHalf, PerHalf.get, PerHalf.set]

/-! ### What a threshold write leaves up -/

theorem updateResting_flags (k : KeyNo) (p : Part) : FlagsKept p (updateResting k p) := by
  unfold updateResting
  dsimp only
  split
  · split
    · exact .of_eq rfl
    · exact FlagsKept.trans (.of_eq rfl) (.raiseLineResting k _)
  · split
    · exact .of_eq rfl
    · exact .of_eq rfl

/-- A threshold write takes no flag down. -/
theorem updateAllResting_flags (p : Part) : FlagsKept p (updateAllResting p) := by
  have kept := noCut_warming.toKeptByMoves
  have rested : ∀ (ks : List KeyNo) (q : Part), FlagsKept q (ks.foldl (fun q k => updateResting k q) q) := by
    intro ks
    induction ks with
    | nil => exact fun _ => .of_eq rfl
    | cons k rest ih => exact fun q => (updateResting_flags k q).trans (ih _)
  have moved : NoCut (restedLines p) (updateAllResting p) := by
    rw [updateAllResting_eq]
    exact kept.trans (kept.trans (kept.restingRemoved _) (kept.grantingPass _)) (kept.resumeLines _)
  exact (rested allKeys p).trans moved.flags

/-! ### The hold duties (R161) -/

/-- Each pedal that holds takes its hold duty. -/
def holdsTaken (p : Part) : Part := applyRailHold (applyHoldPart (applyHoldFull p))

theorem holdsTaken_frame (p : Part) : LinesOnly p (holdsTaken p) :=
  ((applyHold_frame _ _ _ p).trans (applyHold_frame _ _ _ _)).trans (applyRailHold_frame _)

theorem applyHold_other {e : Pedal} (ne : e ≠ d) (holding : PedalRecord → Bool) (duty : Nat) (p : Part) :
    (applyHold d holding duty p).pedal e = p.pedal e := by
  unfold applyHold
  split
  · exact Part.pedal_setPedal_ne _ _ ne
  · rfl

theorem applyHold_own (d : Pedal) (holding : PedalRecord → Bool) (duty : Nat) (p : Part) :
    (applyHold d holding duty p).pedal d
      = if holding (p.pedal d) then (p.pedal d).driven p (some duty) else p.pedal d := by
  unfold applyHold
  split
  · exact Part.pedal_setPedal_same _ _ _
  · rfl

theorem applyHold_state (d e : Pedal) (holding : PedalRecord → Bool) (duty : Nat) (p : Part) :
    ((applyHold d holding duty p).pedal e).state = (p.pedal e).state
      ∧ ((applyHold d holding duty p).pedal e).depth = (p.pedal e).depth := by
  by_cases same : e = d
  · subst same
    rw [applyHold_own]
    split <;> exact ⟨rfl, rfl⟩
  · rw [applyHold_other same]
    exact ⟨rfl, rfl⟩

/-- A damper that is up takes the duty of its depth. -/
theorem holdsTaken_damper (p : Part) :
    ((holdsTaken p).pedal .damper).state = (p.pedal .damper).state
      ∧ ((holdsTaken p).pedal .damper).depth = (p.pedal .damper).depth
      ∧ ((p.pedal .damper).state = .raised → ((holdsTaken p).pedal .damper).drive.duty
          = some (if (p.pedal .damper).depth = .full then p.settings.damperHoldFull else p.settings.damperHoldPart)) := by
  have settings : (applyHoldFull p).settings = p.settings := (applyHold_frame _ _ _ p).settings
  have rails : (holdsTaken p).pedal .damper = (applyHoldPart (applyHoldFull p)).pedal .damper := by
    rw [holdsTaken, applyRailHold, applyHold_other (by decide), applyHold_other (by decide)]
  obtain ⟨fullState, fullDepth⟩ := applyHold_state .damper .damper PedalRecord.holdsFull p.settings.damperHoldFull p
  obtain ⟨partState, partDepth⟩ :=
    applyHold_state .damper .damper PedalRecord.holdsPart (applyHoldFull p).settings.damperHoldPart (applyHoldFull p)
  rw [rails]
  refine ⟨partState.trans fullState, partDepth.trans fullDepth, fun raised => ?_⟩
  change ((applyHoldFull p).pedal .damper).state = _ at fullState
  change ((applyHoldFull p).pedal .damper).depth = _ at fullDepth
  rw [applyHoldPart, applyHold_own, settings]
  cases depth : (p.pedal .damper).depth with
  | full =>
    have part : ((applyHoldFull p).pedal .damper).holdsPart = false := by
      simp [PedalRecord.holdsPart, fullState, fullDepth, raised, depth]
    rw [part, if_neg Bool.false_ne_true, applyHoldFull, applyHold_own, if_pos ((holdsFull_iff _).2 ⟨raised, depth⟩), if_pos rfl]
    exact setDuty_duty _ _ _ _
  | part =>
    rw [if_pos ((holdsPart_iff _).2 (.inl ⟨fullState.trans raised, fullDepth.trans depth⟩)), if_neg (by nofun)]
    exact setDuty_duty _ _ _ _

/-- A rail that is up takes the rails' duty, and one that is not stays as it is. -/
theorem holdsTaken_rail (half : Half) (p : Part) :
    ((p.pedal (railOf half)).state = .raised → ((holdsTaken p).pedal (railOf half)).state = .raised
        ∧ ((holdsTaken p).pedal (railOf half)).drive.duty = some p.settings.railHold)
      ∧ ((p.pedal (railOf half)).state ≠ .raised → (holdsTaken p).pedal (railOf half) = p.pedal (railOf half)) := by
  have dampers : LinesOnly p (applyHoldPart (applyHoldFull p)) := (applyHold_frame _ _ _ p).trans (applyHold_frame _ _ _ _)
  have before : (applyHoldPart (applyHoldFull p)).pedal (railOf half) = p.pedal (railOf half) := by
    rw [applyHoldPart, applyHold_other (by cases half <;> decide), applyHoldFull, applyHold_other (by cases half <;> decide)]
  rw [holdsTaken, ← before, ← dampers.settings]
  generalize applyHoldPart (applyHoldFull p) = q
  have own : ∃ t : Part, (applyRailHold q).pedal (railOf half)
      = if (q.pedal (railOf half)).isRaised then (q.pedal (railOf half)).driven t (some q.settings.railHold)
        else q.pedal (railOf half) := by
    rw [applyRailHold]
    cases half with
    | bass => exact ⟨q, (applyHold_other (by decide) _ _ _).trans (applyHold_own _ _ _ _)⟩
    | treble =>
      refine ⟨applyHold .bassRail PedalRecord.isRaised q.settings.railHold q, (applyHold_own _ _ _ _).trans ?_⟩
      rw [applyHold_other (d := .bassRail) (e := .trebleRail) (by decide)]
      rfl
  obtain ⟨t, own⟩ := own
  refine ⟨fun raised => ?_, fun down => ?_⟩
  · rw [own, if_pos ((isRaised_iff _).2 raised)]
    exact ⟨raised, setDuty_duty _ _ _ _⟩
  · rw [own, if_neg (mt (isRaised_iff _).1 down)]

end

end Sys2Proof.Machine
end

section
/-! PROOFS. RECALL SETTINGS (R174). -/

namespace Sys2Proof.Machine

section
variable {t : Settings} {p q r : Part} {d : Pedal} {half : Half}

theorem rowOf_recallSettings {f : Frame} (h : f.kind = 0x24) : rowOf f = .recallSettings := by
  simp [rowOf, h]

/-! ### The image taken by the blocks without lines -/

/-- The part with the settings of the image, before the cues are disarmed and the lines take theirs. -/
def recallLoaded (t : Settings) (p : Part) : Part :=
  let loaded := rebaseDrives (p.withSettings fun _ => t)
  clearCueRuns (resetLead (levelRefresh (closeTracks { loaded with ring := loaded.ring.marked t.ringLow })))

/-- What the blocks without lines have taken of a recall. -/
structure Loaded (t : Settings) (p q : Part) : Prop where
  settings : q.settings = t
  store : q.store = p.store
  ring : q.ring = { p.ring with above := decide (t.ringLow ≤ p.ring.rows.length) }
  feed : q.feed = p.feed
  player : q.player = p.player
  tracks : TracksClosed q
  specks : q.tracks.specks = p.tracks.specks
  patches : q.tracks.patches = p.tracks.patches
  lead : LeadReset q p.feed.headRow
  cues : CuesFresh q
  valid : q.cues.valid = p.cues.valid
  halves : ∀ half, ∃ levels, q.expression.halves.get half = (p.expression.halves.get half).withLevels levels
  keys : ∀ k, q.key k = (p.key k).rebased p.now
  pedals : ∀ d, q.pedal d = (p.pedal d).rebased p.now
  wait : q.arbiter.wait = p.arbiter.wait

theorem recallLoaded_loaded (t : Settings) (p : Part) : Loaded t p (recallLoaded t p) := by
  have tracks : TracksClosed (recallLoaded t p) := levelRefresh_closed allClosed_get
  have keys := fun k => rebased_key k (p.withSettings fun _ => t)
  have pedals := fun d => rebased_pedal d (p.withSettings fun _ => t)
  refine ⟨rfl, rfl, rfl, rfl, rfl, tracks, rfl, rfl, congrArg LeadDecoder.atRow rfl, freshCueRuns_get, rfl, fun half => ?_,
    keys, fun d => ?_, rfl⟩
  · cases half <;> exact ⟨_, rfl⟩
  · have same : (p.withSettings fun _ => t).pedal d = p.pedal d := by cases d <;> rfl
    rw [← same]
    refine Eq.trans ?_ (pedals d)
    cases d <;> rfl

/-! ### The cues disarmed -/

theorem disarmCues_frame (p : Part) :
    LinesOnly { p with cues := { p.cues with valid := false } } (disarmCues p) := by
  unfold disarmCues
  dsimp only
  split
  · exact raise_frame _ _
  · exact .refl _

theorem disarmCues_lines (p : Part) : (∀ k, (disarmCues p).key k = p.key k) ∧ (∀ d, (disarmCues p).pedal d = p.pedal d)
    ∧ (disarmCues p).arbiter = p.arbiter := by
  unfold disarmCues
  dsimp only
  split <;> exact ⟨fun _ => rfl, fun d => by cases d <;> rfl, rfl⟩

theorem disarmCues_flag (valid : p.cues.valid = true) : (disarmCues p).notices.flag .cuesDisarmed = true := by
  unfold disarmCues
  dsimp only
  rw [if_pos valid]
  exact raise_own_flag _ rfl

/-! ### What the lines' part of a recall leaves -/

/-- The rails take their modes, and the key lines their limits and guards. -/
def linesSettled (p : Part) : Part := endElapsedGuards (updateAllResting (handRails p))

/-- The lines take their settings: what they settle, and then the pedals their hold duties. -/
def linesRecalled (p : Part) : Part := holdsTaken (linesSettled p)

theorem recallAll_eq (t : Settings) (p : Part) :
    recallAll t p = linesRecalled (disarmCues (recallLoaded t p)) := rfl

theorem linesRecalled_frame (idle : p.inPlay = false) : LinesOnly p.autosDown (linesRecalled p) :=
  (((handRails_frame idle).trans (updateAllResting_frame _)).trans (endElapsedGuards_frame _)).trans (holdsTaken_frame _)

theorem holdsTaken_notices (p : Part) : (holdsTaken p).notices = p.notices := by
  have one : ∀ (d : Pedal) (holding : PedalRecord → Bool) (duty : Nat) (q : Part),
      (applyHold d holding duty q).notices = q.notices := fun d holding duty q => by
    unfold applyHold
    split
    · exact Part.setPedal_notices _ _ _
    · rfl
  rw [holdsTaken, applyRailHold, one, one, applyHoldPart, one, applyHoldFull, one]

theorem holdsTaken_key (p : Part) (k : KeyNo) : (holdsTaken p).key k = p.key k := by
  have one : ∀ (d : Pedal) (holding : PedalRecord → Bool) (duty : Nat) (q : Part),
      (applyHold d holding duty q).key k = q.key k := fun d holding duty q => by
    unfold applyHold
    split
    · exact Part.setPedal_key _ _ _ _
    · rfl
  rw [holdsTaken, applyRailHold, one, one, applyHoldPart, one, applyHoldFull, one]

theorem linesRecalled_flags (idle : p.inPlay = false) : FlagsKept p (linesRecalled p) := by
  have kept := noCut_warming.toKeptByMoves
  have railed : NoCut p (handRails p) := handRails_kept kept (fun half q => by
    unfold Part.autoDown
    split <;> exact .of_eq rfl rfl) idle
  exact ((railed.flags.trans (updateAllResting_flags _)).trans (kept.endElapsedGuards _).flags).trans
    (.of_eq (holdsTaken_notices _))

/-- The resting flags come up to date with the limits (R143). -/
theorem linesRecalled_temps (idle : p.inPlay = false) (k : KeyNo) :
    ((linesRecalled p).key k).heat = (p.key k).heat
      ∧ ((linesRecalled p).key k).resting = ((p.key k).rested p.settings).resting := by
  have railed : SameTemps p (handRails p) := handRails_kept sameTemps_moves (fun half q => by
    unfold Part.autoDown
    split <;> exact .of_keys rfl rfl fun _ => rfl) idle
  have ended := sameTemps_moves.endElapsedGuards (updateAllResting (handRails p))
  obtain ⟨heat, resting⟩ := updateAllResting_flag (handRails p) k
  rw [linesRecalled, holdsTaken_key, linesSettled, ended.heat, ended.resting, heat, resting]
  refine ⟨railed.heat k, ?_⟩
  simp only [KeyLine.rested, railed.heat, railed.resting, railed.soft, railed.hard]

theorem linesSettled_settings (idle : p.inPlay = false) : (linesSettled p).settings = p.settings :=
  (((handRails_frame idle).trans (updateAllResting_frame _)).trans (endElapsedGuards_frame _)).settings.trans
    ((autoDown_settings _ _).trans (autoDown_settings _ _))

theorem holdsTaken_damper_of {x : PedalRecord} (record : p.pedal .damper = x) (settings : p.settings = t) :
    ((holdsTaken p).pedal .damper).state = x.state ∧ ((holdsTaken p).pedal .damper).depth = x.depth
      ∧ (x.state = .raised → ((holdsTaken p).pedal .damper).drive.duty
          = some (if x.depth = .full then t.damperHoldFull else t.damperHoldPart)) := by
  subst record settings
  exact holdsTaken_damper p

/-- The damper stays where it is, at the duty of its depth (R161). -/
theorem linesRecalled_damper (idle : p.inPlay = false) (empty : p.arbiter.wait = []) :
    ((linesRecalled p).pedal .damper).state = (p.pedal .damper).state
      ∧ ((linesRecalled p).pedal .damper).depth = (p.pedal .damper).depth
      ∧ ((p.pedal .damper).state = .raised → ((linesRecalled p).pedal .damper).drive.duty
          = some (if (p.pedal .damper).depth = .full then p.settings.damperHoldFull else p.settings.damperHoldPart)) := by
  have spared : Spared .damper (p.pedal .damper) p := ⟨rfl, fun e he => absurd (empty ▸ he) List.not_mem_nil⟩
  have record : (linesSettled p).pedal .damper = p.pedal .damper :=
    (handRails_damper spared idle).updateAllResting.endElapsedGuards.record
  rw [linesRecalled]
  exact holdsTaken_damper_of record (linesSettled_settings idle)

/-- A rail takes its mode, and the rails' duty where it stays up (R84, R161). -/
theorem linesRecalled_rail (idle : p.inPlay = false) (empty : p.arbiter.wait = []) (half : Half) :
    (p.settings.railMode.get half ≠ .up → ((linesRecalled p).pedal (railOf half)).Down)
      ∧ (p.settings.railMode.get half = .up → (p.pedal (railOf half)).state = .raised →
        ((linesRecalled p).pedal (railOf half)).state = .raised
          ∧ ((linesRecalled p).pedal (railOf half)).drive.duty = some p.settings.railHold) := by
  have spared : Spared (railOf half) (p.pedal (railOf half)) p :=
    ⟨rfl, fun e he => absurd (empty ▸ he) List.not_mem_nil⟩
  have settings : (linesSettled p).settings = (handRails p).settings :=
    ((updateAllResting_frame _).trans (endElapsedGuards_frame _)).settings
  have handed : RailHanded half (p.pedal (railOf half)) (linesSettled p) :=
    (handRails_rail spared idle).step settings fun _ h => h.updateAllResting.endElapsedGuards
  obtain ⟨down, up⟩ := handed
  obtain ⟨raised, other⟩ := holdsTaken_rail half (linesSettled p)
  rw [linesSettled_settings idle] at down up raised
  refine ⟨fun mode => ?_, fun mode was => ?_⟩
  · obtain ⟨x, low, is⟩ := down mode
    have apart : ((linesSettled p).pedal (railOf half)).state ≠ .raised := by
      rw [is.record]
      rcases low with low | low | ⟨low, -⟩ <;> rw [low] <;> nofun
    rw [linesRecalled, other apart, is.record]
    exact low
  · exact raised (by rw [(up mode was).record]; exact was)

theorem autosDown_eq (p : Part) : p.autosDown = { p with expression := p.autosDown.expression } := by
  have one : ∀ (half : Half) (q : Part), q.autoDown half = { q with expression := (q.autoDown half).expression } :=
    fun half q => by
      unfold Part.autoDown
      split <;> rfl
  rw [Part.autosDown, one .treble (p.autoDown .bass), one .bass p]

/-- What a recall leaves (R174). -/
structure RecallLeft (t : Settings) (p q : Part) : Prop where
  settings : q.settings = t
  store : q.store = p.store
  ring : q.ring = { p.ring with above := decide (t.ringLow ≤ p.ring.rows.length) }
  tracks : TracksClosed q
  specks : q.tracks.specks = p.tracks.specks
  patches : q.tracks.patches = p.tracks.patches
  lead : LeadReset q p.feed.headRow
  cues : CuesFresh q
  valid : q.cues.valid = false
  disarmed : p.cues.valid = true → q.notices.flag .cuesDisarmed = true
  shades : ShadesHeld p q
  demands : ∀ half, (q.expression.halves.get half).autoUp
    = if t.railMode.get half = .auto then false else (p.expression.halves.get half).autoUp
  temps : ∀ k, (q.key k).heat = (p.key k).heat ∧ (q.key k).resting = ((p.key k).rested t).resting
  rails : ∀ half, (t.railMode.get half ≠ .up → (q.pedal (railOf half)).Down)
    ∧ (t.railMode.get half = .up → (p.pedal (railOf half)).state = .raised →
      (q.pedal (railOf half)).state = .raised ∧ (q.pedal (railOf half)).drive.duty = some t.railHold)
  damper : (q.pedal .damper).state = (p.pedal .damper).state ∧ (q.pedal .damper).depth = (p.pedal .damper).depth
    ∧ ((p.pedal .damper).state = .raised → (q.pedal .damper).drive.duty
      = some (if (p.pedal .damper).depth = .full then t.damperHoldFull else t.damperHoldPart))
  feed : q.feed = p.feed
  player : q.player = p.player

/-- What a recall leaves, where nothing plays and nothing waits. -/
theorem recallAll_left (idle : p.inPlay = false) (empty : p.arbiter.wait = []) : RecallLeft t p (recallAll t p) := by
  have loaded := recallLoaded_loaded t p
  rw [recallAll_eq]
  generalize recallLoaded t p = q at *
  obtain ⟨disarmedKeys, disarmedPedals, disarmedWait⟩ := disarmCues_lines q
  have disarmed := disarmCues_frame q
  have still : (disarmCues q).inPlay = false := by
    rw [Part.inPlay, disarmed.feed]
    rw [← idle, Part.inPlay, ← loaded.feed]
  have none : (disarmCues q).arbiter.wait = [] := by rw [disarmedWait, loaded.wait, empty]
  have frame := (autoDown_frame (autoDown_frame disarmed .bass) .treble).trans (linesRecalled_frame still)
  have flags := linesRecalled_flags still
  have temps := linesRecalled_temps still
  have damper := linesRecalled_damper still none
  have rails := linesRecalled_rail still none
  have limits : (disarmCues q).settings = t := disarmed.settings.trans loaded.settings
  have raised : p.cues.valid = true → (disarmCues q).notices.flag .cuesDisarmed = true := fun valid =>
    disarmCues_flag (loaded.valid.trans valid)
  have records : ∀ d, (disarmCues q).pedal d = (p.pedal d).rebased p.now := fun d =>
    (disarmedPedals d).trans (loaded.pedals d)
  have heats : ∀ k, (disarmCues q).key k = (p.key k).rebased p.now := fun k => (disarmedKeys k).trans (loaded.keys k)
  simp only [limits, records, heats] at damper rails temps
  generalize linesRecalled (disarmCues q) = r at *
  have demands : ∀ half, r.expression.halves.get half = { q.expression.halves.get half with
      autoUp := if t.railMode.get half = .auto then false else (q.expression.halves.get half).autoUp } := fun half => by
    rw [frame.expression, ← loaded.settings]
    exact autosDown_half { q with cues := { q.cues with valid := false } } half
  rw [← Part.autosDown, autosDown_eq] at frame
  obtain ⟨states, levels, lift, feather, soft⟩ := loaded.tracks
  refine ⟨frame.settings.trans loaded.settings, frame.store.trans loaded.store, frame.ring.trans loaded.ring, ?_,
    (congrArg TrackDecoder.specks frame.tracks).trans loaded.specks,
    (congrArg TrackDecoder.patches frame.tracks).trans loaded.patches, frame.lead.trans loaded.lead, fun i => ?_,
    congrArg CueMatcher.valid frame.cues, fun valid => flags _ (raised valid), fun half => ?_, fun half => ?_, temps, rails,
    damper, frame.feed.trans loaded.feed, frame.player.trans loaded.player⟩
  · refine ⟨fun n => ?_, fun half => ?_, frame.liftLevel.trans lift, frame.featherLevel.trans feather,
      frame.softLevel.trans soft⟩
    · rw [frame.tracks]
      exact states n
    · rw [demands]
      exact levels half
  · rw [frame.cues]
    exact loaded.cues i
  · obtain ⟨x, half⟩ := loaded.halves half
    rw [demands, half]
    exact ⟨rfl, rfl⟩
  · obtain ⟨x, half⟩ := loaded.halves half
    rw [demands, half]
    rfl

end

/-! ### The recall -/

/-- Settles O29: the image is loaded, the cues disarmed, and the lines take their settings. -/
theorem settingsRecalled : Obligations.SettingsRecalled := by
  intro s f hf hk p busy
  obtain ⟨long, taken⟩ := takeRequest_empty (c := .recallSettings) (act := recallSettings) hf (rowOf_recallSettings hk)
  have quiet : (p.inPlay || p.kicking) = false ↔ ¬ busy := by
    rw [Bool.or_eq_false_iff, kicking_eq_false]
    simp only [busy, not_or, not_exists, not_not, Bool.not_eq_true]
  refine ⟨long, fun empty busy => ?_, fun empty free fails => ?_, fun empty free good => ?_⟩
  · have acts : recallSettings p = (Result.state.bytes, p) :=
      if_pos (by_contra fun c => quiet.1 (Bool.not_eq_true _ ▸ c) busy)
    exact (taken empty).trans (by rw [acts]; rfl)
  · have acts : recallSettings p = (Result.storeError.bytes, p) := by
      rw [recallSettings, quiet.2 free, if_neg Bool.false_ne_true, fails, if_neg Bool.false_ne_true]
    exact (taken empty).trans (by rw [acts]; rfl)
  · obtain ⟨idle, still⟩ := Bool.or_eq_false_iff.1 (quiet.2 free)
    have acts : recallSettings p = (Result.ok.bytes, recallAll p.store.settings p) := by
      rw [recallSettings, quiet.2 free, if_neg Bool.false_ne_true, if_pos good]
    have left : RecallLeft p.store.settings p (recallAll p.store.settings p) :=
      recallAll_left idle (kicking_eq_false.1 still).2.2
    generalize recallAll p.store.settings p = q at acts left
    refine ⟨q, (taken empty).trans (by rw [acts]; rfl), left.settings, left.store, ?_⟩
    rw [left.settings]
    obtain ⟨state, depth, duty⟩ := left.damper
    exact ⟨left.ring, left.tracks, left.specks, left.patches, left.lead, left.cues, left.valid, left.disarmed, left.shades,
      left.demands, left.temps, left.rails, ⟨state, depth⟩, duty, left.feed, left.player⟩

end Sys2Proof.Machine
end
